-- ==== Sys2Proof/Word.lean ====
section
/-! DEFINITION. Words, bytes and register files: the word types of the package (R7: bit 0 least significant, bytes
little-endian) and files of 2^w like registers indexed by a w-bit number. -/

namespace Sys2Proof

/-- One byte (R7). -/
abbrev Byte := BitVec 8

/-- An instruction word (R7: 32 bits). -/
abbrev Word32 := BitVec 32

/-- A scalar register value (R15: 64 bits). -/
abbrev Word64 := BitVec 64

/-- One vector register, queue entry or result-queue entry (R15: 2,048 bits). -/
abbrev Entry := BitVec 2048

/-- A file of `2^w` like registers. -/
abbrev RegFile (w : Nat) (α : Type) := Vector α (2 ^ w)

/-- Every register of the file holds `a`. -/
def RegFile.fill (w : Nat) {α : Type} (a : α) : RegFile w α := Vector.replicate (2 ^ w) a

/-- The register with number `i`. -/
def RegFile.get {w : Nat} {α : Type} (r : RegFile w α) (i : BitVec w) : α := r[i.toNat]'i.isLt

/-- The file after a write of register `i`. -/
def RegFile.set {w : Nat} {α : Type} (r : RegFile w α) (i : BitVec w) (a : α) : RegFile w α :=
  Vector.set r i.toNat a i.isLt

/-- The bit of a truth value. -/
def bitOf (b : Bool) : BitVec 1 := if b then 1 else 0

/-- The values 0 to n - 1, in order. -/
def upTo (n : Nat) : List Nat := List.range n

end Sys2Proof
end

