-- ==== Sys2Proof/Config.lean ====
section
/-! DEFINITION. What the part fixes and the spec leaves open: values without a body, so that no proof can see them. Each is
named in an entry of notes/assumptions. -/

namespace Sys2Proof

/-- The choice among the values that R23 allows to a read inside a latency window: of `n` candidates the read returns
candidate `pick ctr tag n % n` (DESIGN CHOICE, log 3). -/
opaque Config.pick : Nat → Nat → Nat → Nat

/-- A value that a rule leaves open, by the free-value counter and a tag (DESIGN CHOICE, log 3). -/
opaque Config.freeWord : Nat → Nat → BitVec 64

/-- SHA-384 of a byte string given as its length and its value (FIPS 180-4, outside this spec; DESIGN CHOICE, log 10). -/
opaque Config.sha384 : Nat → Nat → BitVec 384

/-- HKDF-SHA-384 (RFC 5869) of a 64-byte root with an info value; 64 bytes of output (R437; DESIGN CHOICE, log 10). -/
opaque Config.hkdf : BitVec 512 → Nat → BitVec 512

/-- AES-256-GCM ciphertext of one 64-bit word by key, IV and word index (R441; DESIGN CHOICE, log 10). -/
opaque Config.gcmWord : BitVec 512 → Nat → Nat → BitVec 64 → BitVec 64

/-- An ECDSA P-384 signature by a private key over a digest (R443, R446; DESIGN CHOICE, log 10). -/
opaque Config.ecdsa : BitVec 384 → BitVec 384 → BitVec 768

/-- The public key of a private key (R443; DESIGN CHOICE, log 10). -/
opaque Config.publicKey : BitVec 384 → BitVec 384

/-- The seed of the physically unclonable function of this part (R443; DESIGN CHOICE, log 16). -/
opaque Config.pufSeed : BitVec 384

/-- Whether a signature over a digest verifies under a public key (R444; DESIGN CHOICE, log 10). -/
opaque Config.ecdsaVerify : BitVec 384 → BitVec 384 → BitVec 768 → Bool

/-- The root key of key slot 0, the security core's own (R437; DESIGN CHOICE, log 10). -/
opaque Config.slotZero : BitVec 512

/-- The digest of the root key that the boot ROM holds (R444; DESIGN CHOICE, log 16). -/
opaque Config.rootDigest : BitVec 384

/-- The public key of the Welousil root certificate (R443; DESIGN CHOICE, log 16). -/
opaque Config.rootPublic : BitVec 384

/-- Welousil's signature over this part's identity key, made at manufacture (R443; DESIGN CHOICE, log 16). -/
opaque Config.identityCert : BitVec 768

/-- The fused minimum security version of the boot ROM (R444; DESIGN CHOICE, log 16). -/
opaque Config.minVersion : BitVec 64

/-- The digest of the boot ROM (R445; DESIGN CHOICE, log 16). -/
opaque Config.romDigest : BitVec 384

/-- The set of an L2 slice that holds a line (R64 gives sets and ways and no index; DESIGN CHOICE, log 15). -/
opaque Config.l2Set : Nat → Nat

/-- The number of the switch port to which a Synhus Link port is wired (R452; DESIGN CHOICE, log 49). -/
opaque Config.switchPort : Nat → BitVec 8

/-- Whether a device is reached over the scale-out ports and not over Synhus Link (R89, ch. 20; DESIGN CHOICE, log 31). -/
opaque Config.scaleOut : BitVec 22 → Bool

end Sys2Proof
end

