-- ==== Sys2Proof/Syntax.lean ====
section
/-! DEFINITION. The instructions and steps of the package as terms: one constructor of `Instr` for each row of
spec/opcode_table.json. The base instructions of R168 to R178 carry their token clause and fields; the template kinds of
R186 carry the issue of a patch word (R180) with the record as amended; the remaining rows are the package's events, each
with what its surroundings decide as operands. -/

namespace Sys2Proof

/-- The four sequencers of a core (R15). -/
inductive SeqId where
  | S | L | C | W
  deriving DecidableEq, Repr

/-- The number of a sequencer, as FCAUSE and the save image number it (R227, R416). -/
def SeqId.num : SeqId → BitVec 2
  | .S => 0 | .L => 1 | .C => 2 | .W => 3

/-- The token clause of a base instruction (R19): TK[25:24] and PEER[23:22]. -/
structure Tok where
  tk : BitVec 2
  peer : BitVec 2
  deriving DecidableEq, Repr

/-- The second operand of the BR layout (R169): register B, a 32-bit literal or a 64-bit literal. -/
inductive Src where
  | reg (b : BitVec 4)
  | lit32 (w : BitVec 32)
  | lit64 (w : BitVec 64)
  deriving DecidableEq, Repr

/-- The fields of a template record, low to high (R182). -/
structure Template where
  kind : BitVec 8
  dtype : BitVec 4
  stype1 : BitVec 4
  stype2 : BitVec 4
  stype3 : BitVec 4
  dst : BitVec 8
  src1 : BitVec 8
  src2 : BitVec 8
  src3 : BitVec 8
  lmsel : BitVec 4
  rnd : BitVec 3
  sat : BitVec 1
  k : BitVec 16
  stampmode : BitVec 2
  stampreg : BitVec 4
  peer : BitVec 2
  accmode : BitVec 2
  scale : BitVec 4
  rsv94 : BitVec 2
  base : BitVec 32
  strides : BitVec 32
  modulus : BitVec 64
  mcgroup : BitVec 8
  kmsel : BitVec 4
  latclass : BitVec 4
  rsv240 : BitVec 16
  deriving DecidableEq, Repr

/-- The issue of one template by a patch word (R180, R181): the patch word, the literal words that follow it and the record
as amended for this issue. -/
structure TplIssue where
  patch : Word32
  lits : List Word32
  tpl : Template
  deriving DecidableEq, Repr

/-- What firmware brings to the resume of a stopped task (R179, R214, R362): the results of an emulated conversion in x registers;
and for the translator, the number of functions of its module and the words that it makes of the function that trapped, which count only
where the launch's translation cache does not hold it yet; `src` is an address of the module that it reads for them (R396). -/
structure Service where
  xs : List (BitVec 4 × Word64)
  nfunc : BitVec 13
  code : List Word32
  src : Option (BitVec 56) := none
  deriving DecidableEq, Repr

/-- A command of the security ring as its lane holds it (R422): the slot's claim k, its completion signal (0 for none) and
the operand words w0 to w15. -/
structure SecCmd where
  k : Nat
  csig : BitVec 52
  w : RegFile 4 Word64
  deriving DecidableEq, Repr

/-- What the cells of a loft row did under the pulses of R432: how many pulses the first physical row took and whether it
then read back its target, and the same of the spare it was remapped to. -/
structure PulseResult where
  pulses : Nat
  ok : Bool
  sparePulses : Nat
  spareOk : Bool
  deriving DecidableEq, Repr

/-- A firmware image offered to the boot ROM (R444): whether one arrived, its security version, the length and value of its bytes, its
signature, and the certificates from the root key's on: each a public key with its signature by the key before it. The spec gives no
layout for it (DESIGN CHOICE, log 56). -/
structure BootImage where
  arrived : Bool
  version : Word64
  size : Nat
  body : Nat
  signature : BitVec 768
  chain : List (BitVec 384 × BitVec 768)
  deriving DecidableEq, Repr

/-- What a hub access does at its address (R368): a read, a write, or a RISC-V atomic with the operation numbered as in R235 (0 ADD to 8 SWAP,
then compare and swap, which takes the value that it expects). -/
inductive HubOp where
  | read
  | write (v : Word64)
  | amo (op : BitVec 4) (v expected : Word64)
  deriving DecidableEq, Repr

/-- One access of the hub complex by physical address (R367, R427); size is 2^logSize bytes. -/
structure HubAccess where
  pa : BitVec 52
  logSize : BitVec 2
  op : HubOp
  deriving DecidableEq, Repr

/-- The writable policy registers of a tier engine (R408). -/
inductive TierReg where
  | ctl | thr
  deriving DecidableEq, Repr

/-- What the farrier engine's tests of a column find (R459 to R462): the lanes of its vertical bus that failed and the weak rows of the
bank. -/
structure FarrierFinding where
  failedLanes : List Nat
  weakRows : List Nat
  deriving DecidableEq, Repr

/-- A setting that a Redfish client may write (R464): a tier policy (R408), the power cap (R455), an operator, the enable of a port (R452),
and an aperture entry, which firmware sets from the configuration of its domain (R393): its device and RBASE, or none to clear it. -/
inductive ConfigWrite where
  | tierPolicy (die : BitVec 2) (reg : TierReg) (val : Word64)
  | powerCap (val : Word64)
  | addOperator (digest : BitVec 384)
  | portEnable (port : Nat) (en : Bool)
  | aperture (num : Nat) (entry : Option (BitVec 22 × BitVec 12))
  deriving DecidableEq, Repr

/-- The resources that the Redfish service exposes (R465), one for each row of its table, and the device configuration (R464). -/
inductive Resource where
  | chassis | thermal | ports | memory | farrier | loft | yard | logServices | powerState | configuration
  deriving DecidableEq, Repr

/-- A Redfish request (R464): the digest of the client's certificate, if it presents one, the setting it writes, if any, and the resource it
reads where it writes none. -/
structure RedfishReq where
  client : Option (BitVec 384)
  write : Option ConfigWrite
  resource : Resource := .configuration
  deriving DecidableEq, Repr

/-- Where a soft error strikes (R458). Memory is named by the model's memory key of the byte. -/
inductive SoftWhere where
  | mem (key : Nat)
  | lineTag (line : Nat)
  | l1Tag (line : Nat)
  | l2Tag (line : Nat)
  | xReg (q : SeqId) (r : BitVec 4)
  | vLane (r : BitVec 4) (lane : BitVec 6)
  | tLane (r : BitVec 4) (lane : BitVec 6)
  | qEntry (n : BitVec 3) (i : Nat)
  | oEntry (n : BitVec 2) (i : Nat)
  | flag (q : SeqId) (r : BitVec 3)
  | btReg (q : SeqId) (r : BitVec 2)
  | lcReg (q : SeqId) (r : BitVec 2)
  | laneMask (r : BitVec 3)
  | keepMask (r : BitVec 2)
  | accReg (r : BitVec 2)
  | scoutBuf
  | maskProg (r : BitVec 2)
  | tplRec (r : BitVec 6)
  | imWord (q : SeqId) (word : Nat)
  deriving DecidableEq, Repr

/-- A request that another device of the domain makes over a link, as the transaction layer numbers it for its source (R451): a write of
2^logSize bytes. The spec gives no layout for it (DESIGN CHOICE, log 57). -/
structure LinkReq where
  source : BitVec 22
  num : Nat
  pa : BitVec 52
  logSize : BitVec 2
  val : Word64
  deriving DecidableEq, Repr

/-- A flit as a port receives it (R450): whether its CRC is good, its number on the link, the flit from which the far end asks for a replay,
if it asks for one, and the request that it brings, if any. -/
structure Flit where
  good : Bool
  num : Nat
  replayFrom : Option Nat
  request : Option LinkReq
  deriving DecidableEq, Repr

/-- One soft error (R458): its place and whether correction succeeds. -/
structure SoftHit where
  place : SoftWhere
  correctable : Bool
  deriving DecidableEq, Repr

/-- What a client of the management service asks for; none where the request names no client (R464). -/
structure Asked (α : Type) where
  client : Option (BitVec 384)
  value : α
  deriving DecidableEq, Repr

/-- One constructor for each row of spec/opcode_table.json. -/
inductive Instr where
  /-- NOP (R213): Does nothing beyond its token actions. -/
  | nop (k : Tok)
  /-- TRAP (R214): Makes its pop and stops the task with SOFTWARE_TRAP, passing an 8-bit service code. -/
  | trap (k : Tok) (c : BitVec 8)
  /-- BRK (R214): Makes its pop and stops the task with BREAKPOINT. -/
  | brk (k : Tok)
  /-- EXIT (R215): Ends the issuing sequencer; on S a non-zero xA names a successor tag. -/
  | exit (k : Tok) (a : BitVec 4)
  /-- SWAP (R216): Makes its pop and stalls the sequencer until the plane flip of R35. -/
  | swap (k : Tok)
  /-- YIELD (R213): Offers the gang group for pre-emption to a waiting group of equal or higher priority, else acts as NOP. -/
  | yield (k : Tok)
  /-- WAITT (R217): Sleeps until task time reaches xA, then writes the task time to xD. -/
  | waitt (k : Tok) (d : BitVec 4) (a : BitVec 4)
  /-- TWAIT (R218): Sleeps until the FIFO from PEER holds xA tokens or xB ticks pass, then writes the token count. -/
  | twait (p : BitVec 2) (d : BitVec 4) (a : BitVec 4) (b : BitVec 4)
  /-- TCNT (R218): Writes the count of tokens, and of 0 tokens, present in the FIFO from PEER. -/
  | tcnt (p : BitVec 2) (d : BitVec 4)
  /-- ERET (R414): Leaves the firmware context and starts the task whose image is loaded; illegal in a task. -/
  | eret 
  /-- SPLITW (R52): Waits for queues and reads to drain, invalidates L1, evicts pages and writes a new SPLIT value. -/
  | splitw (k : Tok) (a : BitVec 4)
  /-- CFLUSH (R239): Writes back a modified global line and invalidates it in L2 and every L1. -/
  | cflush (k : Tok) (a : BitVec 4)
  /-- CINV (R239): Invalidates a global line in the issuing core's L1. -/
  | cinv (k : Tok) (a : BitVec 4)
  /-- CWB (R239): Writes a modified global line back to LPDDR-6, keeping it in L2. -/
  | cwb (k : Tok) (a : BitVec 4)
  /-- SPIN (R242): Pins a scratchpad page resident, or a global page against tier migration. -/
  | spin (k : Tok) (s : BitVec 2) (a : BitVec 4)
  /-- SPUN (R242): Unpins a scratchpad or global page. -/
  | spun (k : Tok) (s : BitVec 2) (a : BitVec 4)
  /-- HINT (R220): Asks for data to be brought nearer without making an access. -/
  | hint (k : Tok) (kk : BitVec 4) (a : BitVec 4)
  /-- QX (R219): Moves a scalar from the head of an operand queue into an x register of C, popping or peeking. -/
  | qx (k : Tok) (d : BitVec 4) (a : BitVec 4) (f : BitVec 2)
  /-- ADD (R198): d := a + b. -/
  | add (k : Tok) (d : BitVec 4) (a : BitVec 4) (b : Src)
  /-- SUB (R198): d := a − b. -/
  | sub (k : Tok) (d : BitVec 4) (a : BitVec 4) (b : Src)
  /-- AND (R198): d := a AND b. -/
  | and (k : Tok) (d : BitVec 4) (a : BitVec 4) (b : Src)
  /-- OR (R198): d := a OR b. -/
  | or (k : Tok) (d : BitVec 4) (a : BitVec 4) (b : Src)
  /-- XOR (R198): d := a XOR b. -/
  | xor (k : Tok) (d : BitVec 4) (a : BitVec 4) (b : Src)
  /-- ANDN (R198): d := a AND NOT b. -/
  | andn (k : Tok) (d : BitVec 4) (a : BitVec 4) (b : Src)
  /-- SLL (R198): Logical left shift by b[5:0]. -/
  | sll (k : Tok) (d : BitVec 4) (a : BitVec 4) (b : Src)
  /-- SRL (R198): Logical right shift by b[5:0]. -/
  | srl (k : Tok) (d : BitVec 4) (a : BitVec 4) (b : Src)
  /-- SRA (R198): Arithmetic right shift by b[5:0]. -/
  | sra (k : Tok) (d : BitVec 4) (a : BitVec 4) (b : Src)
  /-- ROL (R198): Left rotation by b[5:0]. -/
  | rol (k : Tok) (d : BitVec 4) (a : BitVec 4) (b : Src)
  /-- MUL (R198): Low 64 bits of the product. -/
  | mul (k : Tok) (d : BitVec 4) (a : BitVec 4) (b : Src)
  /-- MULH (R198): High 64 bits of the signed product. -/
  | mulh (k : Tok) (d : BitVec 4) (a : BitVec 4) (b : Src)
  /-- MULHU (R198): High 64 bits of the unsigned product. -/
  | mulhu (k : Tok) (d : BitVec 4) (a : BitVec 4) (b : Src)
  /-- DIV (R199): Signed quotient rounded toward zero, with fixed results for zero and overflow. -/
  | div (k : Tok) (d : BitVec 4) (a : BitVec 4) (b : Src)
  /-- DIVU (R199): Unsigned quotient. -/
  | divu (k : Tok) (d : BitVec 4) (a : BitVec 4) (b : Src)
  /-- REM (R199): Signed remainder with the sign of the dividend. -/
  | rem (k : Tok) (d : BitVec 4) (a : BitVec 4) (b : Src)
  /-- REMU (R199): Unsigned remainder. -/
  | remu (k : Tok) (d : BitVec 4) (a : BitVec 4) (b : Src)
  /-- MIN (R198): Signed minimum. -/
  | min (k : Tok) (d : BitVec 4) (a : BitVec 4) (b : Src)
  /-- MAX (R198): Signed maximum. -/
  | max (k : Tok) (d : BitVec 4) (a : BitVec 4) (b : Src)
  /-- MINU (R198): Unsigned minimum. -/
  | minu (k : Tok) (d : BitVec 4) (a : BitVec 4) (b : Src)
  /-- MAXU (R198): Unsigned maximum. -/
  | maxu (k : Tok) (d : BitVec 4) (a : BitVec 4) (b : Src)
  /-- CLZ (R198): Count of leading zero bits. -/
  | clz (k : Tok) (d : BitVec 4) (a : BitVec 4)
  /-- CTZ (R198): Count of trailing zero bits. -/
  | ctz (k : Tok) (d : BitVec 4) (a : BitVec 4)
  /-- POPC (R198): Count of one bits. -/
  | popc (k : Tok) (d : BitVec 4) (a : BitVec 4)
  /-- SEXTB (R198): Sign-extends the low byte. -/
  | sextb (k : Tok) (d : BitVec 4) (a : BitVec 4)
  /-- SEXTH (R198): Sign-extends the low 16 bits. -/
  | sexth (k : Tok) (d : BitVec 4) (a : BitVec 4)
  /-- SEXTW (R198): Sign-extends the low 32 bits. -/
  | sextw (k : Tok) (d : BitVec 4) (a : BitVec 4)
  /-- ZEXTW (R198): Zero-extends the low 32 bits. -/
  | zextw (k : Tok) (d : BitVec 4) (a : BitVec 4)
  /-- ADDSH1 (R198): d := a + (b << 1). -/
  | addsh1 (k : Tok) (d : BitVec 4) (a : BitVec 4) (b : Src)
  /-- ADDSH2 (R198): d := a + (b << 2). -/
  | addsh2 (k : Tok) (d : BitVec 4) (a : BitVec 4) (b : Src)
  /-- ADDSH3 (R198): d := a + (b << 3). -/
  | addsh3 (k : Tok) (d : BitVec 4) (a : BitVec 4) (b : Src)
  /-- ADDSH4 (R198): d := a + (b << 4). -/
  | addsh4 (k : Tok) (d : BitVec 4) (a : BitVec 4) (b : Src)
  /-- BEXT (R198): Extracts a bit field of a at pos and len. -/
  | bext (k : Tok) (d : BitVec 4) (a : BitVec 4) (b : Src)
  /-- BINS (R198): Inserts a bit field of a into d at pos and len. -/
  | bins (k : Tok) (d : BitVec 4) (a : BitVec 4) (b : Src)
  /-- ADDW (R198): Sign-extended 32-bit sum. -/
  | addw (k : Tok) (d : BitVec 4) (a : BitVec 4) (b : Src)
  /-- ADDI (R200): d := a + sign-extended immediate. -/
  | addi (k : Tok) (d : BitVec 4) (a : BitVec 4) (imm : BitVec 14)
  /-- ANDI (R200): d := a AND immediate. -/
  | andi (k : Tok) (d : BitVec 4) (a : BitVec 4) (imm : BitVec 14)
  /-- ORI (R200): d := a OR immediate. -/
  | ori (k : Tok) (d : BitVec 4) (a : BitVec 4) (imm : BitVec 14)
  /-- XORI (R200): d := a XOR immediate. -/
  | xori (k : Tok) (d : BitVec 4) (a : BitVec 4) (imm : BitVec 14)
  /-- SLLI (R170): Logical left shift by an immediate amount. -/
  | slli (k : Tok) (d : BitVec 4) (a : BitVec 4) (n : BitVec 6)
  /-- SRLI (R170): Logical right shift by an immediate amount. -/
  | srli (k : Tok) (d : BitVec 4) (a : BitVec 4) (n : BitVec 6)
  /-- SRAI (R170): Arithmetic right shift by an immediate amount. -/
  | srai (k : Tok) (d : BitVec 4) (a : BitVec 4) (n : BitVec 6)
  /-- MULI (R200): Low 64 bits of a times the immediate. -/
  | muli (k : Tok) (d : BitVec 4) (a : BitVec 4) (imm : BitVec 14)
  /-- CMP (R201): Sets a flag to a condition between xA and the second operand. -/
  | cmp (k : Tok) (f : BitVec 3) (a : BitVec 4) (b : Src) (c : BitVec 3)
  /-- CMPI (R201): Sets a flag to a condition between xA and an immediate. -/
  | cmpi (k : Tok) (f : BitVec 3) (c : BitVec 3) (a : BitVec 4) (imm : BitVec 12)
  /-- SEL (R202): Selects xA or xB by a flag. -/
  | sel (k : Tok) (d : BitVec 4) (a : BitVec 4) (b : BitVec 4) (f : BitVec 3)
  /-- FAND (R202): Flag AND. -/
  | flagAnd (k : Tok) (d : BitVec 3) (a : BitVec 3) (b : BitVec 3)
  /-- FOR (R202): Flag OR. -/
  | flagOr (k : Tok) (d : BitVec 3) (a : BitVec 3) (b : BitVec 3)
  /-- FXOR (R202): Flag XOR. -/
  | flagXor (k : Tok) (d : BitVec 3) (a : BitVec 3) (b : BitVec 3)
  /-- FNOT (R202): Flag NOT. -/
  | flagNot (k : Tok) (d : BitVec 3) (a : BitVec 3)
  /-- FMOV (R202): Flag copy. -/
  | flagMov (k : Tok) (d : BitVec 3) (a : BitVec 3)
  /-- FSET (R202): Sets a flag to 1. -/
  | flagSet (k : Tok) (d : BitVec 3)
  /-- FCLR (R202): Clears a flag. -/
  | flagClr (k : Tok) (d : BitVec 3)
  /-- FRD (R202): Packs the eight flags into an x register. -/
  | flagRead (k : Tok) (d : BitVec 4)
  /-- VANY (R203): Sets a flag when a mask is non-zero. -/
  | vany (k : Tok) (d : BitVec 3) (a : BitVec 4)
  /-- VALL (R203): Sets a flag when a mask is all ones. -/
  | vall (k : Tok) (d : BitVec 3) (a : BitVec 4)
  /-- VNONE (R203): Sets a flag when a mask is zero. -/
  | vnone (k : Tok) (d : BitVec 3) (a : BitVec 4)
  /-- PBT_DISP (R206): Sets a branch-target register to PC plus a word displacement. -/
  | pbtDisp (k : Tok) (b : BitVec 2) (d : BitVec 19)
  /-- PBT_REG (R206): Sets a branch-target register from xA. -/
  | pbtReg (k : Tok) (b : BitVec 2) (a : BitVec 4)
  /-- BRT_ALWAYS (R207): Branches always to btN after its delay slots, optionally linking. -/
  | brtAlways (k : Tok) (b : BitVec 2) (e : BitVec 2) (kk : BitVec 1)
  /-- BRT_COND (R207): Branches to btN after its delay slots when a flag has the given sense, optionally linking. -/
  | brtCond (k : Tok) (b : BitVec 2) (f : BitVec 3) (s : BitVec 1) (e : BitVec 2) (kk : BitVec 1)
  /-- LOOP (R209): Loads a loop counter and runs or skips a hardware loop body. -/
  | loop (k : Tok) (c : BitVec 2) (a : BitVec 4) (e : BitVec 16)
  /-- RDSR (R211): Reads a special register into xD. -/
  | rdsr (k : Tok) (d : BitVec 4) (s : BitVec 13)
  /-- WRSR (R211): Writes xA to a special register, with register-specific effects for LVS, FFLAGS and SEED. -/
  | wrsr (k : Tok) (a : BitVec 4) (s : BitVec 13)
  /-- FENCE (R79): Orders path-0 accesses of selected classes and kinds at a scope. -/
  | fence (k : Tok) (c : BitVec 16) (s : BitVec 3) (kk : BitVec 3)
  /-- FENCEX (R81): Orders accesses and commands on one set of paths before those on another. -/
  | fencex (k : Tok) (a : BitVec 8) (b : BitVec 8) (s : BitVec 3)
  /-- LD (R233): Loads 1 to 8 bytes at base plus offset from a space. -/
  | ld (k : Tok) (d : BitVec 4) (a : BitVec 4) (o : BitVec 4) (s : BitVec 2) (z : BitVec 2) (g : BitVec 1) (imm : BitVec 1) (r : BitVec 1) (f : BitVec 3)
  /-- ST (R233): Stores 1 to 8 bytes at base plus offset into a space. -/
  | st (k : Tok) (d : BitVec 4) (a : BitVec 4) (o : BitVec 4) (s : BitVec 2) (z : BitVec 2) (g : BitVec 1) (r : BitVec 1) (f : BitVec 3)
  /-- LDX (R233): Loads from base plus index register. -/
  | ldx (k : Tok) (d : BitVec 4) (a : BitVec 4) (b : BitVec 4) (o : BitVec 4) (z : BitVec 2) (s : BitVec 2) (g : BitVec 1) (r : BitVec 1)
  /-- STX (R233): Stores to base plus index register. -/
  | stx (k : Tok) (d : BitVec 4) (a : BitVec 4) (b : BitVec 4) (o : BitVec 4) (z : BitVec 2) (s : BitVec 2) (g : BitVec 1) (r : BitVec 1)
  /-- AMO (R235): Performs an indivisible read-modify-write at the atomic unit of the home. -/
  | amo (k : Tok) (d a b : BitVec 4) (op : BitVec 4) (sz : BitVec 1) (oc : BitVec 4) (scope : BitVec 3) (ord : BitVec 2) (c : BitVec 4) (sp : BitVec 2)
  /-- WAITM (R237): Sleeps until a watched location differs from a value or a limit passes. -/
  | waitm (k : Tok) (d : BitVec 4) (a : BitVec 4) (b : BitVec 4) (o : BitVec 4) (z : BitVec 2) (s : BitVec 2) (g : BitVec 1) (r : BitVec 1)
  /-- SDEF (R245): Reads and checks a stream descriptor into a stream slot. -/
  | sdef (k : Tok) (n : BitVec 4) (a : BitVec 4)
  /-- SSET (R245): Writes one field of a stream slot. -/
  | sset (k : Tok) (n : BitVec 4) (f : BitVec 4) (b : Src)
  /-- SGET (R245): Reads one field of a stream slot. -/
  | sget (k : Tok) (d : BitVec 4) (n : BitVec 4) (f : BitVec 4)
  /-- SLD (R246): Streams one entry into an operand queue. -/
  | sld (k : Tok) (n : BitVec 3) (m : BitVec 4)
  /-- SLDN (R246): Streams a count of entries into an operand queue through the stream unit. -/
  | sldn (k : Tok) (n : BitVec 3) (m : BitVec 4) (b : Src)
  /-- SST (R246): Streams one entry out of an output queue. -/
  | sst (k : Tok) (m : BitVec 4) (n : BitVec 2)
  /-- SSTN (R246): Streams a count of entries out of an output queue through the stream unit. -/
  | sstn (k : Tok) (d : BitVec 4) (m : BitVec 4) (n : BitVec 2)
  /-- SADV (R245): Advances a stream cursor without access. -/
  | sadv (k : Tok) (m : BitVec 4) (b : Src)
  /-- SRST (R245): Resets a stream cursor to 0 once PEND is 0. -/
  | srst (k : Tok) (m : BitVec 4)
  /-- SPOS (R245): Returns the address of the cursor's entry. -/
  | spos (k : Tok) (d : BitVec 4) (m : BitVec 4)
  /-- CPY (R249): Issues a memory-to-memory copy into the copy buffer. -/
  | cpy (k : Tok) (a : BitVec 4)
  /-- CPYS (R249): Issues a stamped copy into the copy buffer. -/
  | cpys (k : Tok) (a : BitVec 4)
  /-- GATH (R249): Issues a gather by an index list. -/
  | gath (k : Tok) (a : BitVec 4)
  /-- SCAT (R249): Issues a scatter by an index list. -/
  | scat (k : Tok) (a : BitVec 4)
  /-- CPYQ (R249): Issues a copy from memory into an operand queue, reserving its entries. -/
  | cpyq (k : Tok) (a : BitVec 4) (n : BitVec 3)
  /-- CPYF (R249): Issues a fill of memory with an 8-byte pattern. -/
  | cpyf (k : Tok) (a : BitVec 4)
  /-- RINIT (R104): Writes a whole ring descriptor with zero counts. -/
  | rinit (k : Tok) (d : BitVec 4) (a : BitVec 4) (b : Src)
  /-- RCLAIM (R104): Claims n free slots if available. -/
  | rclaim (k : Tok) (d : BitVec 4) (a : BitVec 4) (b : Src)
  /-- RWFREE (R104): Sleeps until n slots are free, then claims them. -/
  | rwfree (k : Tok) (d : BitVec 4) (a : BitVec 4) (b : Src)
  /-- RPUB (R104): Publishes claimed slots in order, held at the home until HEAD reaches k. -/
  | rpub (k : Tok) (d : BitVec 4) (a : BitVec 4) (b : Src)
  /-- RWFILL (R104): Sleeps until n slots are filled, then takes them. -/
  | rwfill (k : Tok) (d : BitVec 4) (a : BitVec 4) (b : Src)
  /-- RTAKE (R104): Takes n published slots if available. -/
  | rtake (k : Tok) (d : BitVec 4) (a : BitVec 4) (b : Src)
  /-- RREL (R104): Releases taken slots in order, held at the home until TAIL reaches k. -/
  | rrel (k : Tok) (d : BitVec 4) (a : BitVec 4) (b : Src)
  /-- RSTAT (R104): Returns the filled and free counts of a ring. -/
  | rstat (k : Tok) (d : BitVec 4) (a : BitVec 4)
  /-- BINIT (R98): Initialises a barrier object with a count and mode. -/
  | binit (k : Tok) (a : BitVec 4) (b : Src)
  /-- BARV (R98): Makes an arrival with an expected byte count at a barrier object. -/
  | barv (k : Tok) (a : BitVec 4) (b : Src)
  /-- BARD (R98): Registers a deferred arrival at a barrier object. -/
  | bard (k : Tok) (a : BitVec 4) (b : Src)
  /-- BEXP (R98): Adds expected transaction bytes to a barrier object. -/
  | bexp (k : Tok) (a : BitVec 4) (b : Src)
  /-- BWAIT (R100): Waits until the object's phase differs from p, faulting on errored objects. -/
  | bwait (k : Tok) (d : BitVec 4) (a : BitVec 4) (b : Src)
  /-- BTEST (R100): Tests once whether the object's phase differs from p. -/
  | btest (k : Tok) (d : BitVec 4) (a : BitVec 4) (b : Src)
  /-- BINV (R98): Invalidates a barrier object. -/
  | binv (k : Tok) (a : BitVec 4)
  /-- TLD (R281): Loads a template record from an operand queue head. -/
  | tld (k : Tok) (a : BitVec 4) (q : BitVec 1) (n : BitVec 3)
  /-- TSET (R281): Writes one field of a template record. -/
  | tset (k : Tok) (a : BitVec 4) (b : Src)
  /-- TGET (R281): Reads one field of a template record. -/
  | tget (k : Tok) (d : BitVec 4) (a : BitVec 4)
  /-- TCLR (R281): Clears a template slot to KIND 0xFF. -/
  | tclr (k : Tok) (a : BitVec 4)
  /-- MKLD (R303): Loads and checks a mask program into a program slot. -/
  | mkld (k : Tok) (s : BitVec 2) (a : BitVec 4) (b : Src)
  /-- MKEV (R304): Classes up to 512 tiles and pushes the live and partial masks into a queue. -/
  | mkev (k : Tok) (n : BitVec 3) (a : BitVec 4)
  /-- MKEL (R306): Builds the element mask of 64 score elements. -/
  | mkel (k : Tok) (d : BitVec 3) (kk : BitVec 4) (b : Src)
  /-- MKCT (R307): Finds the next set bit or counts set bits of a keep-mask. -/
  | mkct (k : Tok) (d : BitVec 4) (m : BitVec 1) (a : BitVec 2) (b : Src)
  /-- THR (R312): Turns scout scores and a live mask into a keep-mask. -/
  | thr (k : Tok) (d : BitVec 2) (a : BitVec 2) (b : Src)
  /-- KMOP (R313): Derives a keep-mask from a source keep-mask. -/
  | kmop (k : Tok) (d : BitVec 2) (a : BitVec 2) (b : Src)
  /-- KMIO_IN (R314): Loads a keep-mask from a part of an operand queue head. -/
  | kmioIn (k : Tok) (h : BitVec 2) (kk : BitVec 2) (q : BitVec 1) (n : BitVec 3)
  /-- KMIO_OUT (R314): Pushes a keep-mask into an output queue. -/
  | kmioOut (k : Tok) (o : BitVec 2) (kk : BitVec 2)
  /-- ATTQ (R316): Issues a slice attention request and returns its tag. -/
  | attq (k : Tok) (d : BitVec 4) (a : BitVec 4)
  /-- ATTW (R319): Waits for a request's completion and returns its status or delivers its fault. -/
  | attw (k : Tok) (d : BitVec 4) (a : BitVec 4)
  /-- ACCT (R320): Writes a snapshot of the sixteen accounting counters. -/
  | acct (k : Tok) (a : BitVec 4) (b : Src)
  /-- ACCTZ (R320): Clears selected accounting counters. -/
  | acctz (k : Tok) (b : Src)
  /-- RETIRED_CONVERSION (R179): A major 0x2F word traps with EMULATE for firmware emulation. -/
  | retiredConversion (x : BitVec 26)
  /-- PATCH_WORD (R180): Issues a template of the active plane, optionally amending one field. -/
  | patchWord (i : BitVec 6) (t : BitVec 2) (f : BitVec 6) (v : BitVec 16) (lits : List Word32)
  /-- VMOV (R263): Copies src1 into the destination. -/
  | vmov (i : TplIssue)
  /-- VADD (R263): Elementwise addition. -/
  | vadd (i : TplIssue)
  /-- VSUB (R263): Elementwise subtraction. -/
  | vsub (i : TplIssue)
  /-- VMUL (R263): Elementwise multiplication. -/
  | vmul (i : TplIssue)
  /-- VFMA (R263): Fused multiply-add. -/
  | vfma (i : TplIssue)
  /-- VFMS (R263): Fused multiply-subtract. -/
  | vfms (i : TplIssue)
  /-- VFNMA (R263): Negated fused multiply-add. -/
  | vfnma (i : TplIssue)
  /-- VMIN (R264): Elementwise minimum. -/
  | vmin (i : TplIssue)
  /-- VMAX (R264): Elementwise maximum. -/
  | vmax (i : TplIssue)
  /-- VABS (R264): Elementwise absolute value. -/
  | vabs (i : TplIssue)
  /-- VNEG (R264): Elementwise negation. -/
  | vneg (i : TplIssue)
  /-- VCMP (R265): Elementwise comparison into a vector or lane mask. -/
  | vcmp (i : TplIssue)
  /-- VSEL (R266): Selects elements of src1 or src2 by a mask. -/
  | vsel (i : TplIssue)
  /-- VAND (R266): Bitwise AND. -/
  | vand (i : TplIssue)
  /-- VOR (R266): Bitwise OR. -/
  | vor (i : TplIssue)
  /-- VXOR (R266): Bitwise XOR. -/
  | vxor (i : TplIssue)
  /-- VNOT (R266): Bitwise complement. -/
  | vnot (i : TplIssue)
  /-- VSHL (R266): Elementwise left shift. -/
  | vshl (i : TplIssue)
  /-- VSHR (R266): Elementwise logical right shift. -/
  | vshr (i : TplIssue)
  /-- VSRA (R266): Elementwise arithmetic right shift. -/
  | vsra (i : TplIssue)
  /-- VCVT (R270): Converts elements between types. -/
  | vcvt (i : TplIssue)
  /-- VQNT (R271): Quantises blocks into MX staging form. -/
  | vqnt (i : TplIssue)
  /-- VDQNT (R271): Dequantises MX staging form. -/
  | vdqnt (i : TplIssue)
  /-- VEXP2 (R272): Correctly rounded 2^x. -/
  | vexp2 (i : TplIssue)
  /-- VLOG2 (R272): Correctly rounded log2 x. -/
  | vlog2 (i : TplIssue)
  /-- VRCP (R272): Correctly rounded reciprocal. -/
  | vrcp (i : TplIssue)
  /-- VRSQ (R272): Correctly rounded reciprocal square root. -/
  | vrsq (i : TplIssue)
  /-- VSQRT (R272): Correctly rounded square root. -/
  | vsqrt (i : TplIssue)
  /-- VROPE (R273): Rotates element pairs by explicit positions. -/
  | vrope (i : TplIssue)
  /-- VRED (R276): Reduces an entry through the fixed pairwise tree. -/
  | vred (i : TplIssue)
  /-- VSCAN (R276): Inclusive prefix scan through a log-step network. -/
  | vscan (i : TplIssue)
  /-- VPERM (R268): Permutes elements by an index vector. -/
  | vperm (i : TplIssue)
  /-- VBCAST (R268): Broadcasts a selected element. -/
  | vbcast (i : TplIssue)
  /-- VSPLAT (R268): Broadcasts element 0. -/
  | vsplat (i : TplIssue)
  /-- VIOTA (R268): Writes s1(0) + i to each element. -/
  | viota (i : TplIssue)
  /-- VPOPC (R268): Counts one bits per element. -/
  | vpopc (i : TplIssue)
  /-- VMLOG (R267): Combines lane masks or keep-masks. -/
  | vmlog (i : TplIssue)
  /-- VSMX (R274): Computes the online-softmax exponent step 2^(x − m). -/
  | vsmx (i : TplIssue)
  /-- VMRG (R275): Merges two attention triples lane by lane. -/
  | vmrg (i : TplIssue)
  /-- VMADD (R278): Modular addition. -/
  | vmadd (i : TplIssue)
  /-- VMSUB (R278): Modular subtraction. -/
  | vmsub (i : TplIssue)
  /-- VMMUL (R278): Modular multiplication in the selected convention. -/
  | vmmul (i : TplIssue)
  /-- VNTT (R279): Sixteen Cooley-Tukey butterflies. -/
  | vntt (i : TplIssue)
  /-- VINTT (R279): Sixteen Gentleman-Sande butterflies. -/
  | vintt (i : TplIssue)
  /-- VMRED (R278): Modular reduction of 64-bit values. -/
  | vmred (i : TplIssue)
  /-- VCLAMP (R264): Clamps elements between two bounds. -/
  | vclamp (i : TplIssue)
  /-- VPACK (R269): Shifts an entry and packs a piece of another above it. -/
  | vpack (i : TplIssue)
  /-- VUNPK (R269): Shifts an entry right with zero fill. -/
  | vunpk (i : TplIssue)
  /-- VDOT4 (R277): Sums four products per 32-bit lane. -/
  | vdot4 (i : TplIssue)
  /-- MMA (R288): Matrix multiply-accumulate over K-groups into an accumulator. -/
  | mma (i : TplIssue)
  /-- MMAX (R288): Microscaled matrix multiply-accumulate. -/
  | mmax (i : TplIssue)
  /-- MMB (R288): Binary matrix multiply-accumulate. -/
  | mmb (i : TplIssue)
  /-- MMOD (R288): Modular matrix multiply-accumulate. -/
  | mmod (i : TplIssue)
  /-- MZERO (R298): Zeroes an accumulator. -/
  | mzero (i : TplIssue)
  /-- MST (R299): Converts and writes a band of an accumulator. -/
  | mst (i : TplIssue)
  /-- MLD (R299): Loads a band of an accumulator from a source. -/
  | mld (i : TplIssue)
  /-- MADDA (R298): Adds two accumulators. -/
  | madda (i : TplIssue)
  /-- MTRN (R298): Transposes 32 by 32 halves of an accumulator. -/
  | mtrn (i : TplIssue)
  /-- SCOUT (R309): Scores one key group of a tile against shadow keys into the scout score buffer. -/
  | scout (i : TplIssue)
  /-- MSCR (R310): Moves a block of the scout score buffer to or from lanes. -/
  | mscr (i : TplIssue)
  /-- TIME_TICK (R36): The package time base advances by one tick. -/
  | timeTick 
  /-- TASK_DISPATCH (R32): A task starts on a core in its first-dispatch state. -/
  | taskDispatch (core : BitVec 11) (lid : BitVec 14) (task : Word64)
  /-- PLANE_LOAD_COMPLETE (R34): The loader finishes writing the shadow plane and READY becomes 1. -/
  | planeLoadComplete 
  /-- PLANE_FLIP (R35): At a drain point with READY set, the planes exchange and every sequencer continues at word 0. -/
  | planeFlip 
  /-- SUCCESSOR_START (R383): At the drain point of an EXIT naming the staged successor, the planes exchange and the successor starts. -/
  | successorStart 
  /-- TASK_DRAIN_POINT (R33): The task ends when every sequencer has exited and all queues, commands and the copy buffer have drained. -/
  | taskDrainPoint (core : BitVec 11)
  /-- DEADLOCK_DETECT (R40): The core faults TOKEN_PROTOCOL or QUEUE_PROTOCOL when its sequencers deadlock. -/
  | deadlockDetect 
  /-- PREEMPT_REQUEST (R415): The yard sends a halt request with time Tp to every core of a gang group. -/
  | preemptRequest (lid : BitVec 14) (group : Nat)
  /-- SEQUENCER_HALT (R42): A sequencer halts at an instruction boundary after Tp, holding stamped commands. -/
  | sequencerHalt (q : SeqId)
  /-- SAVE_IMAGE_COMPLETE (R411): The firmware context completes the save image and the yard acts on the stop cause. -/
  | saveImageComplete (core : BitVec 11)
  /-- FAULT_RESUME (R230): Firmware resumes a stopped task at the point its fault cause gives. -/
  | faultResume (svc : Service)
  /-- GANG_RESUME (R420): The yard restores a pre-empted gang group, rebases TOFS and starts it at Tr. -/
  | gangResume (lid : BitVec 14) (group : Nat)
  /-- DRAIN_AND_CLEAR (R46): On a world change the core writes back the old world's pages and clears its state. -/
  | drainAndClear 
  /-- SCRATCH_REFILL (R55): A non-resident scratchpad page is refilled from its backing region. -/
  | scratchRefill (page : BitVec 7)
  /-- COPY_BUFFER_LEAVE (R251): A command leaves the copy buffer and is accepted by the copy engine. -/
  | copyBufferLeave 
  /-- COPY_PAGE_CHECK (R253): The copy engine revalidates a handle or translates a new page before moving its elements. -/
  | copyPageCheck (cmd : Nat)
  /-- COPY_COMPLETE (R254): A copy completes or stops and pushes its token into the reserved E slot. -/
  | copyComplete (cmd : Nat)
  /-- STAMPED_MATRIX_ISSUE (R295): At its stamp cycle a stamped matrix operation issues if its operands are ready. -/
  | stampedMatrixIssue 
  /-- MATRIX_GROUP_BOUNDARY (R288): The matrix engine completes one K-group of an operation once its slabs have arrived. -/
  | matrixGroupBoundary 
  /-- MKEV_RETIRE (R304): MKEV finishes its reads, classes the tiles and pushes its entry. -/
  | mkevRetire 
  /-- STREAM_ENTRY_MOVE (R246): The stream unit moves one entry of an SLDN or SSTN once room or an entry is available. -/
  | streamEntryMove (job : Nat)
  /-- DEFERRED_ARRIVAL (R99): The core makes a registered deferred arrival once earlier commands have performed. -/
  | deferredArrival 
  /-- BARRIER_WAIT_WAKE (R100): A sleeping BWAIT re-reads the object at a change and completes or faults. -/
  | barrierWaitWake (q : SeqId)
  /-- BARRIER_TIMEOUT (R100): A BWAIT limit expires and faults BARRIER_TIMEOUT. -/
  | barrierTimeout (q : SeqId)
  /-- WAITM_WAKE (R237): A write to the watched bytes wakes WAITM for a new read. -/
  | waitmWake (q : SeqId)
  /-- WAITM_LIMIT (R237): The WAITM limit expires and it leaves with its last read. -/
  | waitmLimit (q : SeqId)
  /-- RING_WAIT_WAKE (R104): A sleeping RWFREE, RWFILL or held RPUB or RREL wakes when the count it needs changes. -/
  | ringWaitWake (q : SeqId)
  /-- RING_WAIT_TIMEOUT (R256): An RWFREE or RWFILL limit expires with BARRIER_TIMEOUT. -/
  | ringWaitTimeout (q : SeqId)
  /-- TWAIT_WAKE (R218): The FIFO reaches the awaited token count and TWAIT completes. -/
  | twaitWake (q : SeqId)
  /-- TWAIT_LIMIT (R218): The TWAIT limit passes and it completes without fault. -/
  | twaitLimit (q : SeqId)
  /-- WAITT_WAKE (R217): Task time reaches the WAITT target and the sequencer wakes. -/
  | waittWake (q : SeqId)
  /-- ATTQ_PAGE_CONSUME (R162): A slice attention unit consumes a present page into its leaf triple. -/
  | attqPageConsume (req : Nat) (page : Nat)
  /-- ATTQ_DEADLINE (R163): At the request's deadline, absent pages are replaced by shadows or dropped. -/
  | attqDeadline (req : Nat)
  /-- ATTQ_COMPLETE (R318): A request writes its results and status and pushes its token. -/
  | attqComplete (req : Nat)
  /-- TIER_EVALUATION (R409): Every HEATINT ticks the tier engine decays heat and starts migrations. -/
  | tierEvaluation (die : BitVec 2)
  /-- MIGRATION_SWITCH_OVER (R66): A finished migration copy switches the page's translation and home in one update. -/
  | migrationSwitchOver (die : BitVec 2)
  /-- TRANSLATION_WALK_COMPLETE (R398): A translation unit finishes a walk and answers every waiter. -/
  | translationWalkComplete (die : BitVec 2) (queue : BitVec 10) (va : BitVec 56)
  /-- SHOOTDOWN_COMPLETE (R401): A translation shootdown completes once matching entries are dropped and their accesses performed. -/
  | shootdownComplete 
  /-- DEMAND_REWALK (R403): The yard walks a held task's FADDR again at a mapping activation or every 250,000 ticks. -/
  | demandRewalk (lid : BitVec 14)
  /-- LOG_RECORD_WRITE (R412): The yard writes a record to the yard log when the ring has room. -/
  | logRecordWrite (die : BitVec 2)
  /-- NOTIFY (R377): A write to a queue's notify register makes the yard examine the queue. -/
  | notify (die : BitVec 2) (queue : BitVec 10)
  /-- QUEUE_POLL_TIMER (R377): The yard re-examines a queue every 25,000 ticks while WRIDX differs from ACCIDX. -/
  | queuePollTimer (die : BitVec 2) (queue : BitVec 10)
  /-- QENABLE (R372): Checks a queue entry and starts acceptance, first checking the yard log. -/
  | qenable (die : BitVec 2) (cmd : Word64)
  /-- QDISABLE (R372): Stops acceptance from a queue. -/
  | qdisable (die : BitVec 2) (cmd : Word64)
  /-- LRESUME (R372): Resumes a task held after a TRAP or BREAKPOINT. -/
  | lresume (die : BitVec 2) (cmd : Word64)
  /-- LABORT (R372): Ends a launch with CANCELLED. -/
  | labort (die : BitVec 2) (cmd : Word64)
  /-- YARD_REGISTER_WRITE (R370): Writes a yard window register that has no behaviour of its own. -/
  | yardRegisterWrite (die : BitVec 2) (off : BitVec 27) (val : Word64)
  /-- DEP_SIGNAL_SATISFIED (R384): Every dependency signal reaches ≤ 0 and the launch's record and image are checked for staging. -/
  | depSignalSatisfied (lid : BitVec 14)
  /-- STAGING_DONE (R385): Every input stream has been staged into L2 and the launch becomes READY. -/
  | stagingDone (lid : BitVec 14)
  /-- STAGEMAX_EXPIRY (R384): STAGEMAX ticks pass and staging stops waiting. -/
  | stagemaxExpiry (lid : BitVec 14)
  /-- GROUP_PLACEMENT (R386): The yard finds cores for a READY gang group and dispatches it. -/
  | groupPlacement (lid : BitVec 14) (group : Nat)
  /-- AGING_TICK (R386): Every AGETICK ticks a waiting group's effective priority rises by 1. -/
  | agingTick (die : BitVec 2)
  /-- LAUNCH_COMPLETE (R390): The yard writes the status and decrements the completion signal with the COMPLETE record in one step. -/
  | launchComplete (lid : BitVec 14)
  /-- YARD_RESET (R391): A reset yard rebuilds its scoreboard from the journal and the cores. -/
  | yardReset (die : BitVec 2)
  /-- DIE_FAILURE (R392): The next die's yard recovers a failed die's queues from the mirror. -/
  | dieFailure (die : BitVec 2)
  /-- SEC_COMMAND_ACCEPT (R422): The security core accepts a valid command slot and hands it to a lane. -/
  | secCommandAccept 
  /-- FASSIGN (R424): Assigns free frames to a world after scrubbing them under its key. -/
  | fassign (c : SecCmd)
  /-- FRELEASE (R424): Scrubs and frees a world's unmapped frames. -/
  | frelease (c : SecCmd)
  /-- MAPSET (R425): Checks and writes one page-table entry, shooting down an old valid entry. -/
  | mapset (c : SecCmd)
  /-- HCREATE (R426): Creates a live handle in the lowest free or retired slot. -/
  | hcreate (c : SecCmd)
  /-- HRETIRE (R426): Retires a live handle, incrementing or quarantining its generation. -/
  | hretire (c : SecCmd)
  /-- WCREATE (R429): Writes a world record and enters KEYING. -/
  | wcreate (c : SecCmd)
  /-- WDESTROY (R429): Clears a world's slot and scrubs and frees its frames, handles and loft segments. -/
  | wdestroy (c : SecCmd)
  /-- KREVOKE (R439): Flushes or discards a world's cached data and clears its key slot. -/
  | krevoke (c : SecCmd)
  /-- EXPORT (R441): Writes a sealed checkpoint of a world and frees its frames. -/
  | exportWorld (c : SecCmd)
  /-- IMPORT (R442): Checks a sealed checkpoint and restores the world once re-keyed. -/
  | importWorld (c : SecCmd)
  /-- WSTAT (R428): Returns word 0 of a world record. -/
  | wstat (c : SecCmd)
  /-- PSTATE_ACTIVE (R423): Requests the active power state. -/
  | pstateActive (c : SecCmd)
  /-- PSTATE_BREEZE (R423): Requests the clock-gated breeze state. -/
  | pstateBreeze (c : SecCmd)
  /-- PSTATE_LULL (R448): Pre-empts all groups, flushes data and enters lull. -/
  | pstateLull (c : SecCmd)
  /-- PSTATE_CALM (R449): Enters calm once every protected world allows it, clearing the key store. -/
  | pstateCalm (c : SecCmd)
  /-- LGRANT (R431): Grants a free loft segment to a world or zeroes and frees one. -/
  | lgrant (c : SecCmd)
  /-- LPROG (R432): Programs loft rows from a world's data frames. -/
  | lprog (c : SecCmd)
  /-- LZERO (R432): Programs loft rows to zero. -/
  | lzero (c : SecCmd)
  /-- LPE_ROW_PROGRAM (R433): The LPE holds a bank and programs one row by write-and-check, after the bank's rest. -/
  | lpeRowProgram (die : BitVec 2) (pulse : PulseResult)
  /-- LHASH (R434): Recomputes a segment root and compares it with the stored root. -/
  | lhash (c : SecCmd)
  /-- LWEAR (R423): Reports a bank's spares and wear counts. -/
  | lwear (c : SecCmd)
  /-- GET_VERSION (R446): SPDM version request. -/
  | getVersion (sess : Nat)
  /-- GET_CAPABILITIES (R446): SPDM capabilities request. -/
  | getCapabilities (sess : Nat)
  /-- NEGOTIATE_ALGORITHMS (R446): SPDM algorithm negotiation. -/
  | negotiateAlgorithms (sess : Nat)
  /-- GET_DIGESTS (R446): SPDM certificate digest request. -/
  | getDigests (sess : Nat)
  /-- GET_CERTIFICATE (R443): Returns the certificate chain of slot 0. -/
  | getCertificate (sess : Nat)
  /-- CHALLENGE (R446): SPDM challenge signed by the alias key. -/
  | challenge (sess : Nat) (nonce : BitVec 256)
  /-- GET_MEASUREMENTS (R447): Returns measurement blocks signed over the requester's nonce. -/
  | getMeasurements (sess : Nat) (nonce : BitVec 256) (index : BitVec 8)
  /-- KEY_EXCHANGE (R446): Opens an SPDM session with mutual authentication, up to 64. -/
  | keyExchange (req : BitVec 384)
  /-- FINISH (R446): SPDM session finish. -/
  | finish (sess : Nat)
  /-- HEARTBEAT (R446): SPDM session heartbeat. -/
  | heartbeat (sess : Nat)
  /-- KEY_UPDATE (R446): SPDM session key update. -/
  | keyUpdate (sess : Nat)
  /-- END_SESSION (R446): Ends an SPDM session. -/
  | endSession (sess : Nat)
  /-- VENDOR_DEFINED_REQUEST (R438): Delivers a custodian share, loading the key when all shares have arrived. -/
  | vendorDefinedRequest (sess : Nat) (world : BitVec 6) (custodian : BitVec 4) (share : BitVec 512)
  /-- COLD_START (R444): The boot ROM fetches and verifies firmware and the loft segments are measured. -/
  | coldStart (image : BootImage)
  /-- BOOT_FETCH_TIMEOUT (R444): After 60 s without an acceptable image the ROM checks the loft copy. -/
  | bootFetchTimeout (image : BootImage)
  /-- BREEZE_ENTRY (R457): After 250,000 idle ticks the yard enters breeze. -/
  | breezeEntry 
  /-- BREEZE_WAKE (R457): A notify, signal, command or management request wakes the package from breeze. -/
  | breezeWake 
  /-- LULL_WAKE (R448): On wake from lull new scrambler keys are drawn, WAKECNT increments and groups resume. -/
  | lullWake 
  /-- HUB_MEMORY_ACCESS (R427): A hub access to a protected or reserve frame is refused and logged. -/
  | hubMemoryAccess (acc : HubAccess)
  /-- PCAP_WRITE (R455): Writes the power cap, refusing out-of-range values. -/
  | pcapWrite (val : Asked Word64)
  /-- POWER_CAP_STEP (R455): Each millisecond over the cap the manager lowers a clock step. -/
  | powerCapStep (pkgw : BitVec 13)
  /-- CAP_EXCESS_PREEMPT (R455): After 10 ms over the cap the yard pre-empts low-priority groups to slow an island. -/
  | capExcessPreempt 
  /-- THERMAL_105 (R456): A junction above 105 °C drops the die's floor islands to 0.8 GHz. -/
  | thermal105 (die : BitVec 2)
  /-- THERMAL_115 (R456): Above 115 °C for 1 ms the package enters lull. -/
  | thermal115 
  /-- THERMAL_125 (R456): Above 125 °C supply is removed. -/
  | thermal125 
  /-- TIERCTL_WRITE (R408): Writes tier engine policy registers, refusing illegal combinations. -/
  | tierctlWrite (die : BitVec 2) (reg : TierReg) (val : Word64)
  /-- TIERSTAT_REJECT_CLEAR (R408): Writing one clears REJECT. -/
  | tierstatRejectClear (die : BitVec 2) (val : Word64)
  /-- PORT_ENABLE_WRITE (R452): Enables or takes down a Synhus Link port. -/
  | portEnableWrite (port : Asked Nat) (en : Bool)
  /-- FLIT_RECEIVE (R450): A port receives a 256-byte flit and checks its CRC. -/
  | flitReceive (port : Nat) (flit : Flit)
  /-- PORT_RETRAIN (R451): After 16 failed replays of one flit the port retrains, degrading on failure. -/
  | portRetrain (port : Nat) (trained : Bool)
  /-- PLANE_DOWN (R451): A switch reporting a plane down takes the port down and reroutes its traffic. -/
  | planeDown (port : Nat)
  /-- D2D_RETRY_FAILURE (R392): A failed die-to-die retry takes the die beyond it out of service. -/
  | d2dRetryFailure (die : BitVec 2)
  /-- PATROL_SCRUB (R458): The scrubber reads and corrects lines of LPDDR-6 and L2 on its 24-hour cycle. -/
  | patrolScrub 
  /-- FARRIER_CLAIM (R459): The farrier engine claims an idle column's bus and tests and repairs it. -/
  | farrierClaim (die : BitVec 2) (column : BitVec 7) (found : FarrierFinding)
  /-- FARRIER_YIELD (R460): The farrier engine yields the bus within 32 cycles of a dispatch to the column. -/
  | farrierYield (die : BitVec 2) (column : BitVec 7)
  /-- WEAK_ROW_REFRESH (R462): A weak loft row is reprogrammed with its corrected contents. -/
  | weakRowRefresh (die : BitVec 2) (row : Nat)
  /-- REDFISH_REQUEST (R464): A Redfish request reads telemetry or changes the device configuration. -/
  | redfishRequest (req : RedfishReq)
  /-- TELEMETRY_SAMPLE (R465): Telemetry resources are sampled every 100 ms. -/
  | telemetrySample 
  /-- INSTRUCTION_RETIRE (R22): An issued instruction writes its destination, raises its flags and makes its push in its retire cycle, up to its bound after issue. -/
  | instructionRetire (q : SeqId)
  /-- QUANTUM_EXPIRY (R386): A running gang group passes QUANTUM ticks since its last dispatch and becomes eligible for pre-emption by a higher-priority waiter. -/
  | quantumExpiry (lid : BitVec 14) (group : Nat)
  /-- DIE_RETURN (R392): A failed die is present again, so package-domain launches waiting in READY may be placed. -/
  | dieReturn (die : BitVec 2)
  /-- HEARTBEAT_TIMEOUT (R446): A requester misses the 30 s HeartbeatPeriod and its SPDM session ends. -/
  | heartbeatTimeout (sess : Nat)
  /-- SUPPLY_LOSS (R13): All supply is lost and only the loft and the identity keep their contents. -/
  | supplyLoss 
  /-- SOFT_ERROR (R458): A stored word, line or loft read word takes a bit error, corrected or uncorrectable, that later reads deliver. -/
  | softError (hit : SoftHit)
  deriving DecidableEq, Repr

end Sys2Proof
end

