-- ==== Sys2Proof/WellFormed.lean ====
section
/-! DEFINITION. When an instruction term is one that the part accepts at decode: the checks of R167 step 6 that do not
depend on the issuing sequencer or on values (R19, R170 to R177, R180, R209, R215, R220, R234, R235, R245). -/

namespace Sys2Proof

/-- A push towards the E FIFO is illegal (R19). -/
def tokOk (k : Tok) : Bool := !(k.tk.getLsbD 1 && k.peer == 3)

/-- The special-register numbers that name a register (R211). -/
def srnKnown (s : BitVec 13) : Bool :=
  let n := s.toNat
  decide (n ≤ 0x005) || (decide (0x010 ≤ n) && decide (n ≤ 0x023)) || (decide (0x030 ≤ n) && decide (n ≤ 0x03B)) ||
    (decide (0x040 ≤ n) && decide (n ≤ 0x050))

/-- The special registers that some sequencer may write: FFLAGS, LVS and SEED (R211). -/
def srnWritable (s : BitVec 13) : Bool := s == 0x021#13 || s == 0x022#13 || s == 0x023#13

/-- The width in bits of the template field numbered `f` (R182); fields 1 to 23 are amendable. -/
def fieldWidth (f : Nat) : Nat :=
  match f with
  | 1 => 8 | 2 => 4 | 3 => 4 | 4 => 4 | 5 => 4 | 6 => 8 | 7 => 8 | 8 => 8 | 9 => 8 | 10 => 4 | 11 => 3 | 12 => 1
  | 13 => 16 | 14 => 2 | 15 => 4 | 16 => 2 | 17 => 2 | 18 => 4 | 19 => 32 | 20 => 32 | 21 => 64 | 22 => 8 | 23 => 4
  | 24 => 4 | 25 => 16 | _ => 0

/-- The amendment's literal: one word for FSEL 62, two for FSEL 63, low word first (R180). -/
def amendLiteral (f : BitVec 6) (lits : List Word32) : Nat :=
  if f = 62 then (lits.getD 0 0).toNat else (lits.getD 0 0).toNat + (lits.getD 1 0).toNat * 2 ^ 32

/-- The "Legal when" column of R180: no amendment has VAL 0, a 16-bit amendment fits its field, a literal amendment names an
amendable field and the literal's bits above the field are zero. -/
def patchOk (f : BitVec 6) (v : BitVec 16) (lits : List Word32) : Bool :=
  if f = 0 then v == 0
  else if f.toNat ≤ 23 then decide (v.toNat < 2 ^ fieldWidth f.toNat)
  else if f.toNat ≤ 61 then false
  else decide (v.toNat < 64) && decide (1 ≤ v.toNat) && decide (v.toNat ≤ 23) &&
    decide (amendLiteral f lits < 2 ^ fieldWidth v.toNat)

/-- A template kind's term carries its own KIND code, a patch word and at most four literal words (R166, R186). -/
def kindOk (code : BitVec 8) (i : TplIssue) : Bool :=
  i.tpl.kind == code && i.patch.extractLsb 31 30 == 3#2 && decide (i.lits.length ≤ 4)

/-- The checks of each row's term. -/
def Instr.wellFormed : Instr → Bool
  | .nop k => tokOk k
  | .trap k _ => tokOk k
  | .brk k => tokOk k
  | .exit k _ => tokOk k && decide (k.tk = 0 ∨ k.tk = 1)
  | .swap k => tokOk k
  | .yield k => tokOk k
  | .waitt k _ _ => tokOk k
  | .twait _ _ _ _ => true
  | .tcnt _ _ => true
  | .eret => true
  | .splitw k _ => tokOk k
  | .cflush k _ => tokOk k
  | .cinv k _ => tokOk k
  | .cwb k _ => tokOk k
  | .spin k _ _ => tokOk k
  | .spun k _ _ => tokOk k
  | .hint k kk _ => tokOk k && decide (kk.toNat ≤ 4)
  | .qx k _ _ f => tokOk k && decide (f ≠ 3)
  | .add k _ _ _ => tokOk k
  | .sub k _ _ _ => tokOk k
  | .and k _ _ _ => tokOk k
  | .or k _ _ _ => tokOk k
  | .xor k _ _ _ => tokOk k
  | .andn k _ _ _ => tokOk k
  | .sll k _ _ _ => tokOk k
  | .srl k _ _ _ => tokOk k
  | .sra k _ _ _ => tokOk k
  | .rol k _ _ _ => tokOk k
  | .mul k _ _ _ => tokOk k
  | .mulh k _ _ _ => tokOk k
  | .mulhu k _ _ _ => tokOk k
  | .div k _ _ _ => tokOk k
  | .divu k _ _ _ => tokOk k
  | .rem k _ _ _ => tokOk k
  | .remu k _ _ _ => tokOk k
  | .min k _ _ _ => tokOk k
  | .max k _ _ _ => tokOk k
  | .minu k _ _ _ => tokOk k
  | .maxu k _ _ _ => tokOk k
  | .clz k _ _ => tokOk k
  | .ctz k _ _ => tokOk k
  | .popc k _ _ => tokOk k
  | .sextb k _ _ => tokOk k
  | .sexth k _ _ => tokOk k
  | .sextw k _ _ => tokOk k
  | .zextw k _ _ => tokOk k
  | .addsh1 k _ _ _ => tokOk k
  | .addsh2 k _ _ _ => tokOk k
  | .addsh3 k _ _ _ => tokOk k
  | .addsh4 k _ _ _ => tokOk k
  | .bext k _ _ _ => tokOk k
  | .bins k _ _ _ => tokOk k
  | .addw k _ _ _ => tokOk k
  | .addi k _ _ _ => tokOk k
  | .andi k _ _ _ => tokOk k
  | .ori k _ _ _ => tokOk k
  | .xori k _ _ _ => tokOk k
  | .slli k _ _ _ => tokOk k
  | .srli k _ _ _ => tokOk k
  | .srai k _ _ _ => tokOk k
  | .muli k _ _ _ => tokOk k
  | .cmp k _ _ _ _ => tokOk k
  | .cmpi k _ _ _ _ => tokOk k
  | .sel k _ _ _ _ => tokOk k
  | .flagAnd k _ _ _ => tokOk k
  | .flagOr k _ _ _ => tokOk k
  | .flagXor k _ _ _ => tokOk k
  | .flagNot k _ _ => tokOk k
  | .flagMov k _ _ => tokOk k
  | .flagSet k _ => tokOk k
  | .flagClr k _ => tokOk k
  | .flagRead k _ => tokOk k
  | .vany k _ _ => tokOk k
  | .vall k _ _ => tokOk k
  | .vnone k _ _ => tokOk k
  | .pbtDisp k _ _ => tokOk k
  | .pbtReg k _ _ => tokOk k
  | .brtAlways k _ _ _ => tokOk k
  | .brtCond k _ _ _ _ _ => tokOk k
  | .loop k _ _ e => tokOk k && decide (1 ≤ e.toNat) && decide (e.toNat ≤ 8191)
  | .rdsr k _ s => tokOk k && srnKnown s
  | .wrsr k _ s => tokOk k && srnWritable s
  | .fence k _ s kk => tokOk k && decide (kk.toNat ≤ 4) && decide (s ≠ 7)
  | .fencex k a b s => tokOk k && decide (a.toNat < 128) && decide (b.toNat < 128) && decide (s ≠ 7)
  | .ld k _ _ _ _ _ _ imm r _ => tokOk k && !(imm == 1 && r == 1)
  | .st k _ _ _ s _ _ _ _ => tokOk k && decide (s ≠ 3)
  | .ldx k _ _ _ _ _ _ _ _ => tokOk k
  | .stx k _ _ _ _ _ s _ _ => tokOk k && decide (s ≠ 3)
  | .amo k _ _ _ op _ _ scope _ c sp => tokOk k && decide (op.toNat ≤ 9) && decide (scope ≠ 7) && decide (sp ≠ 3) && (decide (c = 0) || decide (op = 9))
  | .waitm k _ _ _ _ _ s _ _ => tokOk k && decide (s ≠ 3)
  | .sdef k _ _ => tokOk k
  | .sset k _ f _ => tokOk k && decide (f ≠ 15)
  | .sget k _ _ f => tokOk k && decide (f ≠ 15)
  | .sld k _ _ => tokOk k
  | .sldn k _ _ _ => tokOk k
  | .sst k _ _ => tokOk k
  | .sstn k _ _ _ => tokOk k
  | .sadv k _ _ => tokOk k
  | .srst k _ => tokOk k
  | .spos k _ _ => tokOk k
  | .cpy k _ => tokOk k
  | .cpys k _ => tokOk k
  | .gath k _ => tokOk k
  | .scat k _ => tokOk k
  | .cpyq k _ _ => tokOk k
  | .cpyf k _ => tokOk k
  | .rinit k _ _ _ => tokOk k
  | .rclaim k _ _ _ => tokOk k
  | .rwfree k _ _ _ => tokOk k
  | .rpub k _ _ _ => tokOk k
  | .rwfill k _ _ _ => tokOk k
  | .rtake k _ _ _ => tokOk k
  | .rrel k _ _ _ => tokOk k
  | .rstat k _ _ => tokOk k
  | .binit k _ _ => tokOk k
  | .barv k _ _ => tokOk k
  | .bard k _ _ => tokOk k
  | .bexp k _ _ => tokOk k
  | .bwait k _ _ _ => tokOk k
  | .btest k _ _ _ => tokOk k
  | .binv k _ => tokOk k
  | .tld k _ _ _ => tokOk k
  | .tset k _ _ => tokOk k
  | .tget k _ _ => tokOk k
  | .tclr k _ => tokOk k
  | .mkld k _ _ _ => tokOk k
  | .mkev k _ _ => tokOk k
  | .mkel k _ _ _ => tokOk k
  | .mkct k _ _ _ _ => tokOk k
  | .thr k _ _ _ => tokOk k
  | .kmop k _ _ _ => tokOk k
  | .kmioIn k _ _ _ _ => tokOk k
  | .kmioOut k _ _ => tokOk k
  | .attq k _ _ => tokOk k
  | .attw k _ _ => tokOk k
  | .acct k _ _ => tokOk k
  | .acctz k _ => tokOk k
  | .retiredConversion _ => true
  | .patchWord _ _ f v lits => patchOk f v lits && decide (lits.length ≤ 4)
  | .vmov i => kindOk 0x00 i
  | .vadd i => kindOk 0x01 i
  | .vsub i => kindOk 0x02 i
  | .vmul i => kindOk 0x03 i
  | .vfma i => kindOk 0x04 i
  | .vfms i => kindOk 0x05 i
  | .vfnma i => kindOk 0x06 i
  | .vmin i => kindOk 0x07 i
  | .vmax i => kindOk 0x08 i
  | .vabs i => kindOk 0x09 i
  | .vneg i => kindOk 0x0A i
  | .vcmp i => kindOk 0x0B i
  | .vsel i => kindOk 0x0C i
  | .vand i => kindOk 0x0D i
  | .vor i => kindOk 0x0E i
  | .vxor i => kindOk 0x0F i
  | .vnot i => kindOk 0x10 i
  | .vshl i => kindOk 0x11 i
  | .vshr i => kindOk 0x12 i
  | .vsra i => kindOk 0x13 i
  | .vcvt i => kindOk 0x14 i
  | .vqnt i => kindOk 0x15 i
  | .vdqnt i => kindOk 0x16 i
  | .vexp2 i => kindOk 0x17 i
  | .vlog2 i => kindOk 0x18 i
  | .vrcp i => kindOk 0x19 i
  | .vrsq i => kindOk 0x1A i
  | .vsqrt i => kindOk 0x1B i
  | .vrope i => kindOk 0x1C i
  | .vred i => kindOk 0x1D i
  | .vscan i => kindOk 0x1E i
  | .vperm i => kindOk 0x1F i
  | .vbcast i => kindOk 0x20 i
  | .vsplat i => kindOk 0x21 i
  | .viota i => kindOk 0x22 i
  | .vpopc i => kindOk 0x23 i
  | .vmlog i => kindOk 0x24 i
  | .vsmx i => kindOk 0x25 i
  | .vmrg i => kindOk 0x26 i
  | .vmadd i => kindOk 0x27 i
  | .vmsub i => kindOk 0x28 i
  | .vmmul i => kindOk 0x29 i
  | .vntt i => kindOk 0x2A i
  | .vintt i => kindOk 0x2B i
  | .vmred i => kindOk 0x2C i
  | .vclamp i => kindOk 0x2D i
  | .vpack i => kindOk 0x2E i
  | .vunpk i => kindOk 0x2F i
  | .vdot4 i => kindOk 0x30 i
  | .mma i => kindOk 0x80 i
  | .mmax i => kindOk 0x81 i
  | .mmb i => kindOk 0x82 i
  | .mmod i => kindOk 0x83 i
  | .mzero i => kindOk 0x84 i
  | .mst i => kindOk 0x85 i
  | .mld i => kindOk 0x86 i
  | .madda i => kindOk 0x87 i
  | .mtrn i => kindOk 0x88 i
  | .scout i => kindOk 0xC0 i
  | .mscr i => kindOk 0xC1 i
  | .timeTick => true
  | .taskDispatch _ _ _ => true
  | .planeLoadComplete => true
  | .planeFlip => true
  | .successorStart => true
  | .taskDrainPoint _ => true
  | .deadlockDetect => true
  | .preemptRequest _ _ => true
  | .sequencerHalt _ => true
  | .saveImageComplete _ => true
  | .faultResume _ => true
  | .gangResume _ _ => true
  | .drainAndClear => true
  | .scratchRefill _ => true
  | .copyBufferLeave => true
  | .copyPageCheck _ => true
  | .copyComplete _ => true
  | .stampedMatrixIssue => true
  | .matrixGroupBoundary => true
  | .mkevRetire => true
  | .streamEntryMove _ => true
  | .deferredArrival => true
  | .barrierWaitWake _ => true
  | .barrierTimeout _ => true
  | .waitmWake _ => true
  | .waitmLimit _ => true
  | .ringWaitWake _ => true
  | .ringWaitTimeout _ => true
  | .twaitWake _ => true
  | .twaitLimit _ => true
  | .waittWake _ => true
  | .attqPageConsume _ _ => true
  | .attqDeadline _ => true
  | .attqComplete _ => true
  | .tierEvaluation _ => true
  | .migrationSwitchOver _ => true
  | .translationWalkComplete _ _ _ => true
  | .shootdownComplete => true
  | .demandRewalk _ => true
  | .logRecordWrite _ => true
  | .notify _ _ => true
  | .queuePollTimer _ _ => true
  | .qenable _ _ => true
  | .qdisable _ _ => true
  | .lresume _ _ => true
  | .labort _ _ => true
  | .yardRegisterWrite _ _ _ => true
  | .depSignalSatisfied _ => true
  | .stagingDone _ => true
  | .stagemaxExpiry _ => true
  | .groupPlacement _ _ => true
  | .agingTick _ => true
  | .launchComplete _ => true
  | .yardReset _ => true
  | .dieFailure _ => true
  | .secCommandAccept => true
  | .fassign _ => true
  | .frelease _ => true
  | .mapset _ => true
  | .hcreate _ => true
  | .hretire _ => true
  | .wcreate _ => true
  | .wdestroy _ => true
  | .krevoke _ => true
  | .exportWorld _ => true
  | .importWorld _ => true
  | .wstat _ => true
  | .pstateActive _ => true
  | .pstateBreeze _ => true
  | .pstateLull _ => true
  | .pstateCalm _ => true
  | .lgrant _ => true
  | .lprog _ => true
  | .lzero _ => true
  | .lpeRowProgram _ _ => true
  | .lhash _ => true
  | .lwear _ => true
  | .getVersion _ => true
  | .getCapabilities _ => true
  | .negotiateAlgorithms _ => true
  | .getDigests _ => true
  | .getCertificate _ => true
  | .challenge _ _ => true
  | .getMeasurements _ _ _ => true
  | .keyExchange _ => true
  | .finish _ => true
  | .heartbeat _ => true
  | .keyUpdate _ => true
  | .endSession _ => true
  | .vendorDefinedRequest _ _ _ _ => true
  | .coldStart _ => true
  | .bootFetchTimeout _ => true
  | .breezeEntry => true
  | .breezeWake => true
  | .lullWake => true
  | .hubMemoryAccess _ => true
  | .pcapWrite _ => true
  | .powerCapStep _ => true
  | .capExcessPreempt => true
  | .thermal105 _ => true
  | .thermal115 => true
  | .thermal125 => true
  | .tierctlWrite _ _ _ => true
  | .tierstatRejectClear _ _ => true
  | .portEnableWrite port _ => decide (port.value < 18)
  | .flitReceive port _ => decide (port < 18)
  | .portRetrain port _ => decide (port < 18)
  | .planeDown port => decide (port < 18)
  | .d2dRetryFailure _ => true
  | .patrolScrub => true
  | .farrierClaim _ _ _ => true
  | .farrierYield _ _ => true
  | .weakRowRefresh _ _ => true
  | .redfishRequest _ => true
  | .telemetrySample => true
  | .instructionRetire _ => true
  | .quantumExpiry _ _ => true
  | .dieReturn _ => true
  | .heartbeatTimeout _ => true
  | .supplyLoss => true
  | .softError _ => true

end Sys2Proof
end

