-- ==== Sys2Proof/Decode.lean ====
section
/-! DEFINITION. From words to instructions and back: the layouts of R168 to R174, the sub-codes of R177 and R178, the
issuing sequencers of R175 and R176, patch words (R180) and template records (R182, R186). Every encoding of R188 is
refused. The encoder after it is written from the same tables. -/

namespace Sys2Proof

/-! ## Fields -/

/-- The token clause of a base word (R19, R168). -/
def tokOf (w : Word32) : Tok := { tk := w.extractLsb 25 24, peer := w.extractLsb 23 22 }

/-- An instruction of one word whose zero fields are `z` (R168). -/
def plain (w z : Word32) (i : Instr) : Option (Instr × Nat) := if w &&& z = 0 then some (i, 1) else none

/-- The second operand of the BR layout and the words it takes (R169): with LIT other than 00 the field B must be zero. -/
def srcOf (w : Word32) (ls : List Word32) : Option (Src × Nat) :=
  match (w.extractLsb 9 8).toNat with
  | 0 => some (.reg (w.extractLsb 13 10), 1)
  | 1 =>
    match ls with
    | l0 :: _ => if w.extractLsb 13 10 = 0#4 then some (.lit32 l0, 2) else none
    | [] => none
  | 2 =>
    match ls with
    | l0 :: l1 :: _ => if w.extractLsb 13 10 = 0#4 then some (.lit64 (l1 ++ l0), 3) else none
    | _ => none
  | _ => none

/-- An instruction of the BR layout with a second operand, whose zero fields are `z` (R168, R169). -/
def withSrc (w : Word32) (ls : List Word32) (z : Word32) (mk : Src → Instr) : Option (Instr × Nat) :=
  if w &&& z = 0 then (srcOf w ls).map (fun p => (mk p.1, p.2)) else none

/-- AMO, whose second word is part of the instruction (R168, R178). -/
def decodeAmo (w : Word32) (ls : List Word32) : Option (Instr × Nat) :=
  match ls with
  | [] => none
  | m :: _ =>
    if w &&& 0x1F#32 = 0 ∧ m &&& 0x1FFFF#32 = 0 then
      some (.amo (tokOf w) (w.extractLsb 21 18) (w.extractLsb 17 14) (w.extractLsb 13 10) (w.extractLsb 9 6)
        (w.extractLsb 5 5) (m.extractLsb 31 28) (m.extractLsb 27 25) (m.extractLsb 24 23) (m.extractLsb 22 19)
        (m.extractLsb 18 17), 2)
    else none

/-! ## The groups -/

/-- Group SYS, major 0x00: its members by their sub-code (R177) and their zero fields (R168). -/
def decodeSys (w : Word32) (_ls : List Word32) : Option (Instr × Nat) :=
  match (w.extractLsb 7 0).toNat with
  | 0x00 => plain w 0x003FFF00#32 (.nop (tokOf w))
  | 0x01 => plain w 0x003C0300#32 (.trap (tokOf w) (w.extractLsb 17 10))
  | 0x02 => plain w 0x003FFF00#32 (.brk (tokOf w))
  | 0x03 => plain w 0x003C3F00#32 (.exit (tokOf w) (w.extractLsb 17 14))
  | 0x04 => plain w 0x003FFF00#32 (.swap (tokOf w))
  | 0x05 => plain w 0x003FFF00#32 (.yield (tokOf w))
  | 0x06 => plain w 0x00003F00#32 (.waitt (tokOf w) (w.extractLsb 21 18) (w.extractLsb 17 14))
  | 0x07 => plain w 0x03000300#32 (.twait (w.extractLsb 23 22) (w.extractLsb 21 18) (w.extractLsb 17 14) (w.extractLsb 13 10))
  | 0x08 => plain w 0x0303FF00#32 (.tcnt (w.extractLsb 23 22) (w.extractLsb 21 18))
  | 0x09 => plain w 0x03FFFF00#32 .eret
  | 0x0A => plain w 0x003C3F00#32 (.splitw (tokOf w) (w.extractLsb 17 14))
  | 0x0B => plain w 0x003C3F00#32 (.cflush (tokOf w) (w.extractLsb 17 14))
  | 0x0C => plain w 0x003C3F00#32 (.cinv (tokOf w) (w.extractLsb 17 14))
  | 0x0D => plain w 0x003C3F00#32 (.cwb (tokOf w) (w.extractLsb 17 14))
  | 0x0E => plain w 0x00303F00#32 (.spin (tokOf w) (w.extractLsb 19 18) (w.extractLsb 17 14))
  | 0x0F => plain w 0x00303F00#32 (.spun (tokOf w) (w.extractLsb 19 18) (w.extractLsb 17 14))
  | 0x10 => plain w 0x00003F00#32 (.hint (tokOf w) (w.extractLsb 21 18) (w.extractLsb 17 14))
  | 0x11 => plain w 0x00003300#32 (.qx (tokOf w) (w.extractLsb 21 18) (w.extractLsb 17 14) (w.extractLsb 11 10))
  | _ => none

/-- Group ALU, major 0x01: its members by their sub-code (R177) and their zero fields (R168). -/
def decodeAlu (w : Word32) (ls : List Word32) : Option (Instr × Nat) :=
  match (w.extractLsb 7 0).toNat with
  | 0x00 => withSrc w ls 0x00000000#32 (fun b => .add (tokOf w) (w.extractLsb 21 18) (w.extractLsb 17 14) b)
  | 0x01 => withSrc w ls 0x00000000#32 (fun b => .sub (tokOf w) (w.extractLsb 21 18) (w.extractLsb 17 14) b)
  | 0x02 => withSrc w ls 0x00000000#32 (fun b => .and (tokOf w) (w.extractLsb 21 18) (w.extractLsb 17 14) b)
  | 0x03 => withSrc w ls 0x00000000#32 (fun b => .or (tokOf w) (w.extractLsb 21 18) (w.extractLsb 17 14) b)
  | 0x04 => withSrc w ls 0x00000000#32 (fun b => .xor (tokOf w) (w.extractLsb 21 18) (w.extractLsb 17 14) b)
  | 0x05 => withSrc w ls 0x00000000#32 (fun b => .andn (tokOf w) (w.extractLsb 21 18) (w.extractLsb 17 14) b)
  | 0x06 => withSrc w ls 0x00000000#32 (fun b => .sll (tokOf w) (w.extractLsb 21 18) (w.extractLsb 17 14) b)
  | 0x07 => withSrc w ls 0x00000000#32 (fun b => .srl (tokOf w) (w.extractLsb 21 18) (w.extractLsb 17 14) b)
  | 0x08 => withSrc w ls 0x00000000#32 (fun b => .sra (tokOf w) (w.extractLsb 21 18) (w.extractLsb 17 14) b)
  | 0x09 => withSrc w ls 0x00000000#32 (fun b => .rol (tokOf w) (w.extractLsb 21 18) (w.extractLsb 17 14) b)
  | 0x0A => withSrc w ls 0x00000000#32 (fun b => .mul (tokOf w) (w.extractLsb 21 18) (w.extractLsb 17 14) b)
  | 0x0B => withSrc w ls 0x00000000#32 (fun b => .mulh (tokOf w) (w.extractLsb 21 18) (w.extractLsb 17 14) b)
  | 0x0C => withSrc w ls 0x00000000#32 (fun b => .mulhu (tokOf w) (w.extractLsb 21 18) (w.extractLsb 17 14) b)
  | 0x0D => withSrc w ls 0x00000000#32 (fun b => .div (tokOf w) (w.extractLsb 21 18) (w.extractLsb 17 14) b)
  | 0x0E => withSrc w ls 0x00000000#32 (fun b => .divu (tokOf w) (w.extractLsb 21 18) (w.extractLsb 17 14) b)
  | 0x0F => withSrc w ls 0x00000000#32 (fun b => .rem (tokOf w) (w.extractLsb 21 18) (w.extractLsb 17 14) b)
  | 0x10 => withSrc w ls 0x00000000#32 (fun b => .remu (tokOf w) (w.extractLsb 21 18) (w.extractLsb 17 14) b)
  | 0x11 => withSrc w ls 0x00000000#32 (fun b => .min (tokOf w) (w.extractLsb 21 18) (w.extractLsb 17 14) b)
  | 0x12 => withSrc w ls 0x00000000#32 (fun b => .max (tokOf w) (w.extractLsb 21 18) (w.extractLsb 17 14) b)
  | 0x13 => withSrc w ls 0x00000000#32 (fun b => .minu (tokOf w) (w.extractLsb 21 18) (w.extractLsb 17 14) b)
  | 0x14 => withSrc w ls 0x00000000#32 (fun b => .maxu (tokOf w) (w.extractLsb 21 18) (w.extractLsb 17 14) b)
  | 0x15 => plain w 0x00003F00#32 (.clz (tokOf w) (w.extractLsb 21 18) (w.extractLsb 17 14))
  | 0x16 => plain w 0x00003F00#32 (.ctz (tokOf w) (w.extractLsb 21 18) (w.extractLsb 17 14))
  | 0x17 => plain w 0x00003F00#32 (.popc (tokOf w) (w.extractLsb 21 18) (w.extractLsb 17 14))
  | 0x18 => plain w 0x00003F00#32 (.sextb (tokOf w) (w.extractLsb 21 18) (w.extractLsb 17 14))
  | 0x19 => plain w 0x00003F00#32 (.sexth (tokOf w) (w.extractLsb 21 18) (w.extractLsb 17 14))
  | 0x1A => plain w 0x00003F00#32 (.sextw (tokOf w) (w.extractLsb 21 18) (w.extractLsb 17 14))
  | 0x1B => plain w 0x00003F00#32 (.zextw (tokOf w) (w.extractLsb 21 18) (w.extractLsb 17 14))
  | 0x1C => withSrc w ls 0x00000000#32 (fun b => .addsh1 (tokOf w) (w.extractLsb 21 18) (w.extractLsb 17 14) b)
  | 0x1D => withSrc w ls 0x00000000#32 (fun b => .addsh2 (tokOf w) (w.extractLsb 21 18) (w.extractLsb 17 14) b)
  | 0x1E => withSrc w ls 0x00000000#32 (fun b => .addsh3 (tokOf w) (w.extractLsb 21 18) (w.extractLsb 17 14) b)
  | 0x1F => withSrc w ls 0x00000000#32 (fun b => .addsh4 (tokOf w) (w.extractLsb 21 18) (w.extractLsb 17 14) b)
  | 0x20 => withSrc w ls 0x00000000#32 (fun b => .bext (tokOf w) (w.extractLsb 21 18) (w.extractLsb 17 14) b)
  | 0x21 => withSrc w ls 0x00000000#32 (fun b => .bins (tokOf w) (w.extractLsb 21 18) (w.extractLsb 17 14) b)
  | 0x22 => withSrc w ls 0x00000000#32 (fun b => .addw (tokOf w) (w.extractLsb 21 18) (w.extractLsb 17 14) b)
  | _ => none

/-- Group SHI, major 0x06: its members by their sub-code (R177) and their zero fields (R168). -/
def decodeShi (w : Word32) (_ls : List Word32) : Option (Instr × Nat) :=
  match (w.extractLsb 13 12).toNat with
  | 0 => plain w 0x00000FC0#32 (.slli (tokOf w) (w.extractLsb 21 18) (w.extractLsb 17 14) (w.extractLsb 5 0))
  | 1 => plain w 0x00000FC0#32 (.srli (tokOf w) (w.extractLsb 21 18) (w.extractLsb 17 14) (w.extractLsb 5 0))
  | 2 => plain w 0x00000FC0#32 (.srai (tokOf w) (w.extractLsb 21 18) (w.extractLsb 17 14) (w.extractLsb 5 0))
  | _ => none

/-- Group FLG, major 0x0A: its members by their sub-code (R177) and their zero fields (R168). -/
def decodeFlg (w : Word32) (_ls : List Word32) : Option (Instr × Nat) :=
  match (w.extractLsb 6 0).toNat with
  | 0x00 => plain w 0x00000000#32 (.sel (tokOf w) (w.extractLsb 21 18) (w.extractLsb 17 14) (w.extractLsb 13 10) (w.extractLsb 9 7))
  | 0x01 => plain w 0x00222380#32 (.flagAnd (tokOf w) (w.extractLsb 20 18) (w.extractLsb 16 14) (w.extractLsb 12 10))
  | 0x02 => plain w 0x00222380#32 (.flagOr (tokOf w) (w.extractLsb 20 18) (w.extractLsb 16 14) (w.extractLsb 12 10))
  | 0x03 => plain w 0x00222380#32 (.flagXor (tokOf w) (w.extractLsb 20 18) (w.extractLsb 16 14) (w.extractLsb 12 10))
  | 0x04 => plain w 0x00223F80#32 (.flagNot (tokOf w) (w.extractLsb 20 18) (w.extractLsb 16 14))
  | 0x05 => plain w 0x00223F80#32 (.flagMov (tokOf w) (w.extractLsb 20 18) (w.extractLsb 16 14))
  | 0x06 => plain w 0x0023FF80#32 (.flagSet (tokOf w) (w.extractLsb 20 18))
  | 0x07 => plain w 0x0023FF80#32 (.flagClr (tokOf w) (w.extractLsb 20 18))
  | 0x08 => plain w 0x0003FF80#32 (.flagRead (tokOf w) (w.extractLsb 21 18))
  | 0x09 => plain w 0x00203F80#32 (.vany (tokOf w) (w.extractLsb 20 18) (w.extractLsb 17 14))
  | 0x0A => plain w 0x00203F80#32 (.vall (tokOf w) (w.extractLsb 20 18) (w.extractLsb 17 14))
  | 0x0B => plain w 0x00203F80#32 (.vnone (tokOf w) (w.extractLsb 20 18) (w.extractLsb 17 14))
  | _ => none

/-- Group PBT, major 0x0B: its members by their sub-code (R177) and their zero fields (R168). -/
def decodePbt (w : Word32) (_ls : List Word32) : Option (Instr × Nat) :=
  if w.extractLsb 19 19 = 0#1 then plain w 0x00000000#32 (.pbtDisp (tokOf w) (w.extractLsb 21 20) (w.extractLsb 18 0))
  else plain w 0x00043FFF#32 (.pbtReg (tokOf w) (w.extractLsb 21 20) (w.extractLsb 17 14))

/-- Group BRT, major 0x0C: its members by their sub-code (R177) and their zero fields (R168). -/
def decodeBrt (w : Word32) (_ls : List Word32) : Option (Instr × Nat) :=
  if w.extractLsb 15 15 = 0#1 then plain w 0x00000FFF#32 (.brtCond (tokOf w) (w.extractLsb 21 20) (w.extractLsb 19 17) (w.extractLsb 16 16) (w.extractLsb 14 13) (w.extractLsb 12 12))
  else plain w 0x000F0FFF#32 (.brtAlways (tokOf w) (w.extractLsb 21 20) (w.extractLsb 14 13) (w.extractLsb 12 12))

/-- Group SRG, major 0x0E: its members by their sub-code (R177) and their zero fields (R168). -/
def decodeSrg (w : Word32) (_ls : List Word32) : Option (Instr × Nat) :=
  if w.extractLsb 13 13 = 0#1 then plain w 0x0003C000#32 (.rdsr (tokOf w) (w.extractLsb 21 18) (w.extractLsb 12 0))
  else plain w 0x003C0000#32 (.wrsr (tokOf w) (w.extractLsb 17 14) (w.extractLsb 12 0))

/-- Group STRM, major 0x17: its members by their sub-code (R177) and their zero fields (R168). -/
def decodeStrm (w : Word32) (ls : List Word32) : Option (Instr × Nat) :=
  match (w.extractLsb 7 0).toNat with
  | 0x00 => plain w 0x00003F00#32 (.sdef (tokOf w) (w.extractLsb 21 18) (w.extractLsb 17 14))
  | 0x01 => withSrc w ls 0x00000000#32 (fun b => .sset (tokOf w) (w.extractLsb 21 18) (w.extractLsb 17 14) b)
  | 0x02 => plain w 0x00000300#32 (.sget (tokOf w) (w.extractLsb 21 18) (w.extractLsb 17 14) (w.extractLsb 13 10))
  | 0x03 => plain w 0x00203F00#32 (.sld (tokOf w) (w.extractLsb 20 18) (w.extractLsb 17 14))
  | 0x04 => withSrc w ls 0x00200000#32 (fun b => .sldn (tokOf w) (w.extractLsb 20 18) (w.extractLsb 17 14) b)
  | 0x05 => plain w 0x003C3300#32 (.sst (tokOf w) (w.extractLsb 17 14) (w.extractLsb 11 10))
  | 0x06 => plain w 0x00003300#32 (.sstn (tokOf w) (w.extractLsb 21 18) (w.extractLsb 17 14) (w.extractLsb 11 10))
  | 0x07 => withSrc w ls 0x003C0000#32 (fun b => .sadv (tokOf w) (w.extractLsb 17 14) b)
  | 0x08 => plain w 0x003C3F00#32 (.srst (tokOf w) (w.extractLsb 17 14))
  | 0x09 => plain w 0x00003F00#32 (.spos (tokOf w) (w.extractLsb 21 18) (w.extractLsb 17 14))
  | _ => none

/-- Group COPY, major 0x18: its members by their sub-code (R177) and their zero fields (R168). -/
def decodeCopy (w : Word32) (_ls : List Word32) : Option (Instr × Nat) :=
  match (w.extractLsb 7 0).toNat with
  | 0x00 => plain w 0x003C3F00#32 (.cpy (tokOf w) (w.extractLsb 17 14))
  | 0x01 => plain w 0x003C3F00#32 (.cpys (tokOf w) (w.extractLsb 17 14))
  | 0x02 => plain w 0x003C3F00#32 (.gath (tokOf w) (w.extractLsb 17 14))
  | 0x03 => plain w 0x003C3F00#32 (.scat (tokOf w) (w.extractLsb 17 14))
  | 0x04 => plain w 0x003C2300#32 (.cpyq (tokOf w) (w.extractLsb 17 14) (w.extractLsb 12 10))
  | 0x05 => plain w 0x003C3F00#32 (.cpyf (tokOf w) (w.extractLsb 17 14))
  | _ => none

/-- Group RING, major 0x19: its members by their sub-code (R177) and their zero fields (R168). -/
def decodeRing (w : Word32) (ls : List Word32) : Option (Instr × Nat) :=
  match (w.extractLsb 7 0).toNat with
  | 0x00 => withSrc w ls 0x00000000#32 (fun b => .rinit (tokOf w) (w.extractLsb 21 18) (w.extractLsb 17 14) b)
  | 0x01 => withSrc w ls 0x00000000#32 (fun b => .rclaim (tokOf w) (w.extractLsb 21 18) (w.extractLsb 17 14) b)
  | 0x02 => withSrc w ls 0x00000000#32 (fun b => .rwfree (tokOf w) (w.extractLsb 21 18) (w.extractLsb 17 14) b)
  | 0x03 => withSrc w ls 0x00000000#32 (fun b => .rpub (tokOf w) (w.extractLsb 21 18) (w.extractLsb 17 14) b)
  | 0x04 => withSrc w ls 0x00000000#32 (fun b => .rwfill (tokOf w) (w.extractLsb 21 18) (w.extractLsb 17 14) b)
  | 0x05 => withSrc w ls 0x00000000#32 (fun b => .rtake (tokOf w) (w.extractLsb 21 18) (w.extractLsb 17 14) b)
  | 0x06 => withSrc w ls 0x00000000#32 (fun b => .rrel (tokOf w) (w.extractLsb 21 18) (w.extractLsb 17 14) b)
  | 0x07 => plain w 0x00003F00#32 (.rstat (tokOf w) (w.extractLsb 21 18) (w.extractLsb 17 14))
  | _ => none

/-- Group BARR, major 0x1A: its members by their sub-code (R177) and their zero fields (R168). -/
def decodeBarr (w : Word32) (ls : List Word32) : Option (Instr × Nat) :=
  match (w.extractLsb 7 0).toNat with
  | 0x00 => withSrc w ls 0x003C0000#32 (fun b => .binit (tokOf w) (w.extractLsb 17 14) b)
  | 0x01 => withSrc w ls 0x003C0000#32 (fun b => .barv (tokOf w) (w.extractLsb 17 14) b)
  | 0x02 => withSrc w ls 0x003C0000#32 (fun b => .bard (tokOf w) (w.extractLsb 17 14) b)
  | 0x03 => withSrc w ls 0x003C0000#32 (fun b => .bexp (tokOf w) (w.extractLsb 17 14) b)
  | 0x04 => withSrc w ls 0x00000000#32 (fun b => .bwait (tokOf w) (w.extractLsb 21 18) (w.extractLsb 17 14) b)
  | 0x05 => withSrc w ls 0x00000000#32 (fun b => .btest (tokOf w) (w.extractLsb 21 18) (w.extractLsb 17 14) b)
  | 0x06 => plain w 0x003C3F00#32 (.binv (tokOf w) (w.extractLsb 17 14))
  | _ => none

/-- Group TPLC, major 0x1B: its members by their sub-code (R177) and their zero fields (R168). -/
def decodeTplc (w : Word32) (ls : List Word32) : Option (Instr × Nat) :=
  match (w.extractLsb 7 0).toNat with
  | 0x00 => plain w 0x003C0300#32 (.tld (tokOf w) (w.extractLsb 17 14) (w.extractLsb 13 13) (w.extractLsb 12 10))
  | 0x01 => withSrc w ls 0x003C0000#32 (fun b => .tset (tokOf w) (w.extractLsb 17 14) b)
  | 0x02 => plain w 0x00003F00#32 (.tget (tokOf w) (w.extractLsb 21 18) (w.extractLsb 17 14))
  | 0x03 => plain w 0x003C3F00#32 (.tclr (tokOf w) (w.extractLsb 17 14))
  | _ => none

/-- Group MASK, major 0x1C: its members by their sub-code (R177) and their zero fields (R168). -/
def decodeMask (w : Word32) (ls : List Word32) : Option (Instr × Nat) :=
  match (w.extractLsb 7 0).toNat with
  | 0x00 => withSrc w ls 0x00300000#32 (fun b => .mkld (tokOf w) (w.extractLsb 19 18) (w.extractLsb 17 14) b)
  | 0x01 => plain w 0x00203F00#32 (.mkev (tokOf w) (w.extractLsb 20 18) (w.extractLsb 17 14))
  | 0x02 => withSrc w ls 0x00200000#32 (fun b => .mkel (tokOf w) (w.extractLsb 20 18) (w.extractLsb 17 14) b)
  | 0x03 => withSrc w ls 0x00020000#32 (fun b => .mkct (tokOf w) (w.extractLsb 21 18) (w.extractLsb 16 16) (w.extractLsb 15 14) b)
  | _ => none

/-- Group ATTN, major 0x1D: its members by their sub-code (R177) and their zero fields (R168). -/
def decodeAttn (w : Word32) (ls : List Word32) : Option (Instr × Nat) :=
  match (w.extractLsb 7 0).toNat with
  | 0x00 => withSrc w ls 0x00330000#32 (fun b => .thr (tokOf w) (w.extractLsb 19 18) (w.extractLsb 15 14) b)
  | 0x01 => withSrc w ls 0x00330000#32 (fun b => .kmop (tokOf w) (w.extractLsb 19 18) (w.extractLsb 15 14) b)
  | 0x02 => if w.extractLsb 13 13 = 0#1 then plain w 0x00001F00#32 (.kmioIn (tokOf w) (w.extractLsb 21 20) (w.extractLsb 19 18) (w.extractLsb 17 17) (w.extractLsb 16 14)) else plain w 0x00331F00#32 (.kmioOut (tokOf w) (w.extractLsb 19 18) (w.extractLsb 15 14))
  | 0x03 => plain w 0x00003F00#32 (.attq (tokOf w) (w.extractLsb 21 18) (w.extractLsb 17 14))
  | 0x04 => plain w 0x00003F00#32 (.attw (tokOf w) (w.extractLsb 21 18) (w.extractLsb 17 14))
  | 0x05 => withSrc w ls 0x003C0000#32 (fun b => .acct (tokOf w) (w.extractLsb 17 14) b)
  | 0x06 => withSrc w ls 0x003FC000#32 (fun b => .acctz (tokOf w) b)
  | _ => none

/-- A base word with the words that follow it (R168, R175): `none` for every encoding that R188 gives to ILLEGAL_INSTR. The
second component is the number of words the instruction holds. -/
def decodeFields (w : Word32) (ls : List Word32) : Option (Instr × Nat) :=
  match (w.extractLsb 31 26).toNat with
  | 0x00 => decodeSys w ls
  | 0x01 => decodeAlu w ls
  | 0x02 => plain w 0x00000000#32 (.addi (tokOf w) (w.extractLsb 21 18) (w.extractLsb 17 14) (w.extractLsb 13 0))
  | 0x03 => plain w 0x00000000#32 (.andi (tokOf w) (w.extractLsb 21 18) (w.extractLsb 17 14) (w.extractLsb 13 0))
  | 0x04 => plain w 0x00000000#32 (.ori (tokOf w) (w.extractLsb 21 18) (w.extractLsb 17 14) (w.extractLsb 13 0))
  | 0x05 => plain w 0x00000000#32 (.xori (tokOf w) (w.extractLsb 21 18) (w.extractLsb 17 14) (w.extractLsb 13 0))
  | 0x06 => decodeShi w ls
  | 0x07 => plain w 0x00000000#32 (.muli (tokOf w) (w.extractLsb 21 18) (w.extractLsb 17 14) (w.extractLsb 13 0))
  | 0x08 => withSrc w ls 0x000400F8#32 (fun b => .cmp (tokOf w) (w.extractLsb 21 19) (w.extractLsb 17 14) b (w.extractLsb 2 0))
  | 0x09 => plain w 0x00000000#32 (.cmpi (tokOf w) (w.extractLsb 21 19) (w.extractLsb 18 16) (w.extractLsb 15 12) (w.extractLsb 11 0))
  | 0x0A => decodeFlg w ls
  | 0x0B => decodePbt w ls
  | 0x0C => decodeBrt w ls
  | 0x0D => plain w 0x00000000#32 (.loop (tokOf w) (w.extractLsb 21 20) (w.extractLsb 19 16) (w.extractLsb 15 0))
  | 0x0E => decodeSrg w ls
  | 0x0F => plain w 0x00000000#32 (.fence (tokOf w) (w.extractLsb 21 6) (w.extractLsb 5 3) (w.extractLsb 2 0))
  | 0x10 => plain w 0x00000007#32 (.fencex (tokOf w) (w.extractLsb 21 14) (w.extractLsb 13 6) (w.extractLsb 5 3))
  | 0x11 => plain w 0x00000000#32 (.ld (tokOf w) (w.extractLsb 21 18) (w.extractLsb 17 14) (w.extractLsb 13 10) (w.extractLsb 9 8) (w.extractLsb 7 6) (w.extractLsb 5 5) (w.extractLsb 4 4) (w.extractLsb 3 3) (w.extractLsb 2 0))
  | 0x12 => plain w 0x00000010#32 (.st (tokOf w) (w.extractLsb 21 18) (w.extractLsb 17 14) (w.extractLsb 13 10) (w.extractLsb 9 8) (w.extractLsb 7 6) (w.extractLsb 5 5) (w.extractLsb 3 3) (w.extractLsb 2 0))
  | 0x13 => plain w 0x00000000#32 (.ldx (tokOf w) (w.extractLsb 21 18) (w.extractLsb 17 14) (w.extractLsb 13 10) (w.extractLsb 9 6) (w.extractLsb 5 4) (w.extractLsb 3 2) (w.extractLsb 1 1) (w.extractLsb 0 0))
  | 0x14 => plain w 0x00000000#32 (.stx (tokOf w) (w.extractLsb 21 18) (w.extractLsb 17 14) (w.extractLsb 13 10) (w.extractLsb 9 6) (w.extractLsb 5 4) (w.extractLsb 3 2) (w.extractLsb 1 1) (w.extractLsb 0 0))
  | 0x15 => decodeAmo w ls
  | 0x16 => plain w 0x00000000#32 (.waitm (tokOf w) (w.extractLsb 21 18) (w.extractLsb 17 14) (w.extractLsb 13 10) (w.extractLsb 9 6) (w.extractLsb 5 4) (w.extractLsb 3 2) (w.extractLsb 1 1) (w.extractLsb 0 0))
  | 0x17 => decodeStrm w ls
  | 0x18 => decodeCopy w ls
  | 0x19 => decodeRing w ls
  | 0x1A => decodeBarr w ls
  | 0x1B => decodeTplc w ls
  | 0x1C => decodeMask w ls
  | 0x1D => decodeAttn w ls
  | 0x2F => some (.retiredConversion (w.extractLsb 25 0), 1)
  | n =>
    if 0x30 ≤ n then
      some (.patchWord (w.extractLsb 29 24) (w.extractLsb 23 22) (w.extractLsb 21 16) (w.extractLsb 15 0) (ls.take 4), 1)
    else none

/-- An instruction word with the words that follow it: the instruction and how many words it takes. The checks of R167 step 6 on the
instruction as a whole (WellFormed) come at its issue. A patch word keeps the words after it: how many of them it holds depends on
the record it issues (R181). -/
def decodeWord (w : Word32) (ls : List Word32) : Option (Instr × Nat) := decodeFields w ls

/-- The words after the base word that the base word itself announces (R166, R169, R180): the literals of the BR layout, the
second word of AMO and the amendment literal of FSEL 62 and 63. -/
def announced (w : Word32) : Nat :=
  let m := (w.extractLsb 31 26).toNat
  let lit := (w.extractLsb 9 8).toNat % 3
  if m = 0x15 then 1
  else if m = 0x00 ∨ m = 0x01 ∨ m = 0x08 ∨ (0x17 ≤ m ∧ m ≤ 0x1D) then lit
  else if 0x30 ≤ m then (if w.extractLsb 21 16 = 62#6 then 1 else if w.extractLsb 21 16 = 63#6 then 2 else 0)
  else 0

/-- Whether the sequencer may issue the word's major, and its FN where the group is restricted by FN (R175, R176). -/
def seqAllowed (w : Word32) (q : SeqId) : Bool :=
  let m := (w.extractLsb 31 26).toNat
  let fn := (w.extractLsb 7 0).toNat
  let s := q == .S
  let l := q == .L
  let c := q == .C
  let wq := q == .W
  if m = 0x00 then
    if fn = 0x0A then s
    else if fn = 0x0B ∨ fn = 0x0C ∨ fn = 0x0D ∨ fn = 0x10 then !c
    else if fn = 0x0E ∨ fn = 0x0F then s || l
    else if fn = 0x11 then c
    else true
  else if m ≤ 0x10 then true
  else if m ≤ 0x16 then !c
  else if m = 0x17 then
    if fn = 0x03 ∨ fn = 0x04 then l
    else if fn = 0x07 then l || wq
    else if fn = 0x05 ∨ fn = 0x06 then wq
    else !c
  else if m = 0x18 then s || l
  else if m = 0x19 then !c
  else if m = 0x1A then true
  else if m = 0x1B then c
  else if m = 0x1C then
    if fn = 0x00 then s || l
    else if fn = 0x01 then l
    else if fn = 0x02 ∨ fn = 0x03 then c
    else !wq
  else if m = 0x1D then
    if fn ≤ 0x02 then c
    else if fn = 0x03 ∨ fn = 0x04 then s || l
    else if fn = 0x05 ∨ fn = 0x06 then s
    else !wq
  else true

/-! ## Template records and kinds -/

/-- The 256 bits of a record (R182). -/
def Template.toBits (t : Template) : BitVec 256 :=
  t.rsv240 ++ t.latclass ++ t.kmsel ++ t.mcgroup ++ t.modulus ++ t.strides ++ t.base ++ t.rsv94 ++ t.scale ++ t.accmode ++
    t.peer ++ t.stampreg ++ t.stampmode ++ t.k ++ t.sat ++ t.rnd ++ t.lmsel ++ t.src3 ++ t.src2 ++ t.src1 ++ t.dst ++
    t.stype3 ++ t.stype2 ++ t.stype1 ++ t.dtype ++ t.kind

/-- The record that 256 bits hold (R182). -/
def Template.ofBits (b : BitVec 256) : Template where
  kind := b.extractLsb 7 0
  dtype := b.extractLsb 11 8
  stype1 := b.extractLsb 15 12
  stype2 := b.extractLsb 19 16
  stype3 := b.extractLsb 23 20
  dst := b.extractLsb 31 24
  src1 := b.extractLsb 39 32
  src2 := b.extractLsb 47 40
  src3 := b.extractLsb 55 48
  lmsel := b.extractLsb 59 56
  rnd := b.extractLsb 62 60
  sat := b.extractLsb 63 63
  k := b.extractLsb 79 64
  stampmode := b.extractLsb 81 80
  stampreg := b.extractLsb 85 82
  peer := b.extractLsb 87 86
  accmode := b.extractLsb 89 88
  scale := b.extractLsb 93 90
  rsv94 := b.extractLsb 95 94
  base := b.extractLsb 127 96
  strides := b.extractLsb 159 128
  modulus := b.extractLsb 223 160
  mcgroup := b.extractLsb 231 224
  kmsel := b.extractLsb 235 232
  latclass := b.extractLsb 239 236
  rsv240 := b.extractLsb 255 240

/-- The lowest bit of field `f` in the record (R182). -/
def fieldLow (f : Nat) : Nat :=
  match f with
  | 1 => 0 | 2 => 8 | 3 => 12 | 4 => 16 | 5 => 20 | 6 => 24 | 7 => 32 | 8 => 40 | 9 => 48 | 10 => 56 | 11 => 60 | 12 => 63
  | 13 => 64 | 14 => 80 | 15 => 82 | 16 => 86 | 17 => 88 | 18 => 90 | 19 => 96 | 20 => 128 | 21 => 160 | 22 => 224
  | 23 => 232 | 24 => 236 | 25 => 240 | _ => 0

/-- Field `f` of the record. -/
def fieldGet (b : BitVec 256) (f : Nat) : Nat := (b >>> fieldLow f).toNat % 2 ^ fieldWidth f

/-- The record with field `f` replaced by the low bits of `v`. -/
def fieldSet (b : BitVec 256) (f : Nat) (v : Nat) : BitVec 256 :=
  let mask := BitVec.ofNat 256 ((2 ^ fieldWidth f - 1) * 2 ^ fieldLow f)
  (b &&& ~~~mask) ||| BitVec.ofNat 256 (v % 2 ^ fieldWidth f * 2 ^ fieldLow f)

/-- The record with a patch word's amendment (R180): a field wider than 16 bits keeps its upper bits under FSEL 1 to 23. -/
def amend (b : BitVec 256) (f : BitVec 6) (v : BitVec 16) (lits : List Word32) : BitVec 256 :=
  if f = 0 then b
  else if f.toNat ≤ 23 then
    fieldSet b f.toNat (fieldGet b f.toNat / 2 ^ 16 * 2 ^ 16 + v.toNat)
  else if f.toNat ≤ 61 then b
  else fieldSet b v.toNat (amendLiteral f lits)

/-- How many literal words the amendment takes (R180). -/
def amendWords (f : BitVec 6) : Nat := if f = 62 then 1 else if f = 63 then 2 else 0

/-- How many literal words an operand code takes (R181). -/
def splatWords (code : BitVec 8) : Nat := if code = 0x3A then 1 else if code = 0x3B then 2 else 0

/-- The term of a kind by its KIND code (R186). -/
def decodeKind (i : TplIssue) : Option Instr :=
  match i.tpl.kind.toNat with
  | 0x00 => some (.vmov i)
  | 0x01 => some (.vadd i)
  | 0x02 => some (.vsub i)
  | 0x03 => some (.vmul i)
  | 0x04 => some (.vfma i)
  | 0x05 => some (.vfms i)
  | 0x06 => some (.vfnma i)
  | 0x07 => some (.vmin i)
  | 0x08 => some (.vmax i)
  | 0x09 => some (.vabs i)
  | 0x0A => some (.vneg i)
  | 0x0B => some (.vcmp i)
  | 0x0C => some (.vsel i)
  | 0x0D => some (.vand i)
  | 0x0E => some (.vor i)
  | 0x0F => some (.vxor i)
  | 0x10 => some (.vnot i)
  | 0x11 => some (.vshl i)
  | 0x12 => some (.vshr i)
  | 0x13 => some (.vsra i)
  | 0x14 => some (.vcvt i)
  | 0x15 => some (.vqnt i)
  | 0x16 => some (.vdqnt i)
  | 0x17 => some (.vexp2 i)
  | 0x18 => some (.vlog2 i)
  | 0x19 => some (.vrcp i)
  | 0x1A => some (.vrsq i)
  | 0x1B => some (.vsqrt i)
  | 0x1C => some (.vrope i)
  | 0x1D => some (.vred i)
  | 0x1E => some (.vscan i)
  | 0x1F => some (.vperm i)
  | 0x20 => some (.vbcast i)
  | 0x21 => some (.vsplat i)
  | 0x22 => some (.viota i)
  | 0x23 => some (.vpopc i)
  | 0x24 => some (.vmlog i)
  | 0x25 => some (.vsmx i)
  | 0x26 => some (.vmrg i)
  | 0x27 => some (.vmadd i)
  | 0x28 => some (.vmsub i)
  | 0x29 => some (.vmmul i)
  | 0x2A => some (.vntt i)
  | 0x2B => some (.vintt i)
  | 0x2C => some (.vmred i)
  | 0x2D => some (.vclamp i)
  | 0x2E => some (.vpack i)
  | 0x2F => some (.vunpk i)
  | 0x30 => some (.vdot4 i)
  | 0x80 => some (.mma i)
  | 0x81 => some (.mmax i)
  | 0x82 => some (.mmb i)
  | 0x83 => some (.mmod i)
  | 0x84 => some (.mzero i)
  | 0x85 => some (.mst i)
  | 0x86 => some (.mld i)
  | 0x87 => some (.madda i)
  | 0x88 => some (.mtrn i)
  | 0xC0 => some (.scout i)
  | 0xC1 => some (.mscr i)
  | _ => none

/-! ## The encoder -/

/-- The field B of an operand (R169). -/
def Src.bField : Src → BitVec 4
  | .reg b => b
  | .lit32 _ => 0
  | .lit64 _ => 0

/-- The field LIT of an operand (R169). -/
def Src.litField : Src → BitVec 2
  | .reg _ => 0
  | .lit32 _ => 1
  | .lit64 _ => 2

/-- The literal words of an operand, low word first (R166, R169). -/
def Src.words : Src → List Word32
  | .reg _ => []
  | .lit32 w => [w]
  | .lit64 w => [w.extractLsb 31 0, w.extractLsb 63 32]

/-- The words of an instruction (R168 to R181); an event has none. -/
def encode : Instr → List Word32
  | .nop k => (0#6 ++ k.tk ++ k.peer ++ 0#22 : Word32) :: []
  | .trap k c => (0#6 ++ k.tk ++ k.peer ++ 0#4 ++ c ++ 1#10 : Word32) :: []
  | .brk k => (0#6 ++ k.tk ++ k.peer ++ 2#22 : Word32) :: []
  | .exit k a => (0#6 ++ k.tk ++ k.peer ++ 0#4 ++ a ++ 3#14 : Word32) :: []
  | .swap k => (0#6 ++ k.tk ++ k.peer ++ 4#22 : Word32) :: []
  | .yield k => (0#6 ++ k.tk ++ k.peer ++ 5#22 : Word32) :: []
  | .waitt k d a => (0#6 ++ k.tk ++ k.peer ++ d ++ a ++ 6#14 : Word32) :: []
  | .twait p d a b => (0#6 ++ 0#2 ++ p ++ d ++ a ++ b ++ 7#10 : Word32) :: []
  | .tcnt p d => (0#6 ++ 0#2 ++ p ++ d ++ 8#18 : Word32) :: []
  | .eret => (0#6 ++ 9#26 : Word32) :: []
  | .splitw k a => (0#6 ++ k.tk ++ k.peer ++ 0#4 ++ a ++ 10#14 : Word32) :: []
  | .cflush k a => (0#6 ++ k.tk ++ k.peer ++ 0#4 ++ a ++ 11#14 : Word32) :: []
  | .cinv k a => (0#6 ++ k.tk ++ k.peer ++ 0#4 ++ a ++ 12#14 : Word32) :: []
  | .cwb k a => (0#6 ++ k.tk ++ k.peer ++ 0#4 ++ a ++ 13#14 : Word32) :: []
  | .spin k s a => (0#6 ++ k.tk ++ k.peer ++ 0#2 ++ s ++ a ++ 14#14 : Word32) :: []
  | .spun k s a => (0#6 ++ k.tk ++ k.peer ++ 0#2 ++ s ++ a ++ 15#14 : Word32) :: []
  | .hint k kk a => (0#6 ++ k.tk ++ k.peer ++ kk ++ a ++ 16#14 : Word32) :: []
  | .qx k d a f => (0#6 ++ k.tk ++ k.peer ++ d ++ a ++ 0#2 ++ f ++ 17#10 : Word32) :: []
  | .add k d a b => (1#6 ++ k.tk ++ k.peer ++ d ++ a ++ b.bField ++ b.litField ++ 0#8 : Word32) :: b.words
  | .sub k d a b => (1#6 ++ k.tk ++ k.peer ++ d ++ a ++ b.bField ++ b.litField ++ 1#8 : Word32) :: b.words
  | .and k d a b => (1#6 ++ k.tk ++ k.peer ++ d ++ a ++ b.bField ++ b.litField ++ 2#8 : Word32) :: b.words
  | .or k d a b => (1#6 ++ k.tk ++ k.peer ++ d ++ a ++ b.bField ++ b.litField ++ 3#8 : Word32) :: b.words
  | .xor k d a b => (1#6 ++ k.tk ++ k.peer ++ d ++ a ++ b.bField ++ b.litField ++ 4#8 : Word32) :: b.words
  | .andn k d a b => (1#6 ++ k.tk ++ k.peer ++ d ++ a ++ b.bField ++ b.litField ++ 5#8 : Word32) :: b.words
  | .sll k d a b => (1#6 ++ k.tk ++ k.peer ++ d ++ a ++ b.bField ++ b.litField ++ 6#8 : Word32) :: b.words
  | .srl k d a b => (1#6 ++ k.tk ++ k.peer ++ d ++ a ++ b.bField ++ b.litField ++ 7#8 : Word32) :: b.words
  | .sra k d a b => (1#6 ++ k.tk ++ k.peer ++ d ++ a ++ b.bField ++ b.litField ++ 8#8 : Word32) :: b.words
  | .rol k d a b => (1#6 ++ k.tk ++ k.peer ++ d ++ a ++ b.bField ++ b.litField ++ 9#8 : Word32) :: b.words
  | .mul k d a b => (1#6 ++ k.tk ++ k.peer ++ d ++ a ++ b.bField ++ b.litField ++ 10#8 : Word32) :: b.words
  | .mulh k d a b => (1#6 ++ k.tk ++ k.peer ++ d ++ a ++ b.bField ++ b.litField ++ 11#8 : Word32) :: b.words
  | .mulhu k d a b => (1#6 ++ k.tk ++ k.peer ++ d ++ a ++ b.bField ++ b.litField ++ 12#8 : Word32) :: b.words
  | .div k d a b => (1#6 ++ k.tk ++ k.peer ++ d ++ a ++ b.bField ++ b.litField ++ 13#8 : Word32) :: b.words
  | .divu k d a b => (1#6 ++ k.tk ++ k.peer ++ d ++ a ++ b.bField ++ b.litField ++ 14#8 : Word32) :: b.words
  | .rem k d a b => (1#6 ++ k.tk ++ k.peer ++ d ++ a ++ b.bField ++ b.litField ++ 15#8 : Word32) :: b.words
  | .remu k d a b => (1#6 ++ k.tk ++ k.peer ++ d ++ a ++ b.bField ++ b.litField ++ 16#8 : Word32) :: b.words
  | .min k d a b => (1#6 ++ k.tk ++ k.peer ++ d ++ a ++ b.bField ++ b.litField ++ 17#8 : Word32) :: b.words
  | .max k d a b => (1#6 ++ k.tk ++ k.peer ++ d ++ a ++ b.bField ++ b.litField ++ 18#8 : Word32) :: b.words
  | .minu k d a b => (1#6 ++ k.tk ++ k.peer ++ d ++ a ++ b.bField ++ b.litField ++ 19#8 : Word32) :: b.words
  | .maxu k d a b => (1#6 ++ k.tk ++ k.peer ++ d ++ a ++ b.bField ++ b.litField ++ 20#8 : Word32) :: b.words
  | .clz k d a => (1#6 ++ k.tk ++ k.peer ++ d ++ a ++ 21#14 : Word32) :: []
  | .ctz k d a => (1#6 ++ k.tk ++ k.peer ++ d ++ a ++ 22#14 : Word32) :: []
  | .popc k d a => (1#6 ++ k.tk ++ k.peer ++ d ++ a ++ 23#14 : Word32) :: []
  | .sextb k d a => (1#6 ++ k.tk ++ k.peer ++ d ++ a ++ 24#14 : Word32) :: []
  | .sexth k d a => (1#6 ++ k.tk ++ k.peer ++ d ++ a ++ 25#14 : Word32) :: []
  | .sextw k d a => (1#6 ++ k.tk ++ k.peer ++ d ++ a ++ 26#14 : Word32) :: []
  | .zextw k d a => (1#6 ++ k.tk ++ k.peer ++ d ++ a ++ 27#14 : Word32) :: []
  | .addsh1 k d a b => (1#6 ++ k.tk ++ k.peer ++ d ++ a ++ b.bField ++ b.litField ++ 28#8 : Word32) :: b.words
  | .addsh2 k d a b => (1#6 ++ k.tk ++ k.peer ++ d ++ a ++ b.bField ++ b.litField ++ 29#8 : Word32) :: b.words
  | .addsh3 k d a b => (1#6 ++ k.tk ++ k.peer ++ d ++ a ++ b.bField ++ b.litField ++ 30#8 : Word32) :: b.words
  | .addsh4 k d a b => (1#6 ++ k.tk ++ k.peer ++ d ++ a ++ b.bField ++ b.litField ++ 31#8 : Word32) :: b.words
  | .bext k d a b => (1#6 ++ k.tk ++ k.peer ++ d ++ a ++ b.bField ++ b.litField ++ 32#8 : Word32) :: b.words
  | .bins k d a b => (1#6 ++ k.tk ++ k.peer ++ d ++ a ++ b.bField ++ b.litField ++ 33#8 : Word32) :: b.words
  | .addw k d a b => (1#6 ++ k.tk ++ k.peer ++ d ++ a ++ b.bField ++ b.litField ++ 34#8 : Word32) :: b.words
  | .addi k d a imm => (2#6 ++ k.tk ++ k.peer ++ d ++ a ++ imm : Word32) :: []
  | .andi k d a imm => (3#6 ++ k.tk ++ k.peer ++ d ++ a ++ imm : Word32) :: []
  | .ori k d a imm => (4#6 ++ k.tk ++ k.peer ++ d ++ a ++ imm : Word32) :: []
  | .xori k d a imm => (5#6 ++ k.tk ++ k.peer ++ d ++ a ++ imm : Word32) :: []
  | .slli k d a n => (6#6 ++ k.tk ++ k.peer ++ d ++ a ++ 0#8 ++ n : Word32) :: []
  | .srli k d a n => (6#6 ++ k.tk ++ k.peer ++ d ++ a ++ 64#8 ++ n : Word32) :: []
  | .srai k d a n => (6#6 ++ k.tk ++ k.peer ++ d ++ a ++ 128#8 ++ n : Word32) :: []
  | .muli k d a imm => (7#6 ++ k.tk ++ k.peer ++ d ++ a ++ imm : Word32) :: []
  | .cmp k f a b c => (8#6 ++ k.tk ++ k.peer ++ f ++ 0#1 ++ a ++ b.bField ++ b.litField ++ 0#5 ++ c : Word32) :: b.words
  | .cmpi k f c a imm => (9#6 ++ k.tk ++ k.peer ++ f ++ c ++ a ++ imm : Word32) :: []
  | .sel k d a b f => (10#6 ++ k.tk ++ k.peer ++ d ++ a ++ b ++ f ++ 0#7 : Word32) :: []
  | .flagAnd k d a b => (10#6 ++ k.tk ++ k.peer ++ 0#1 ++ d ++ 0#1 ++ a ++ 0#1 ++ b ++ 1#10 : Word32) :: []
  | .flagOr k d a b => (10#6 ++ k.tk ++ k.peer ++ 0#1 ++ d ++ 0#1 ++ a ++ 0#1 ++ b ++ 2#10 : Word32) :: []
  | .flagXor k d a b => (10#6 ++ k.tk ++ k.peer ++ 0#1 ++ d ++ 0#1 ++ a ++ 0#1 ++ b ++ 3#10 : Word32) :: []
  | .flagNot k d a => (10#6 ++ k.tk ++ k.peer ++ 0#1 ++ d ++ 0#1 ++ a ++ 4#14 : Word32) :: []
  | .flagMov k d a => (10#6 ++ k.tk ++ k.peer ++ 0#1 ++ d ++ 0#1 ++ a ++ 5#14 : Word32) :: []
  | .flagSet k d => (10#6 ++ k.tk ++ k.peer ++ 0#1 ++ d ++ 6#18 : Word32) :: []
  | .flagClr k d => (10#6 ++ k.tk ++ k.peer ++ 0#1 ++ d ++ 7#18 : Word32) :: []
  | .flagRead k d => (10#6 ++ k.tk ++ k.peer ++ d ++ 8#18 : Word32) :: []
  | .vany k d a => (10#6 ++ k.tk ++ k.peer ++ 0#1 ++ d ++ a ++ 9#14 : Word32) :: []
  | .vall k d a => (10#6 ++ k.tk ++ k.peer ++ 0#1 ++ d ++ a ++ 10#14 : Word32) :: []
  | .vnone k d a => (10#6 ++ k.tk ++ k.peer ++ 0#1 ++ d ++ a ++ 11#14 : Word32) :: []
  | .pbtDisp k b d => (11#6 ++ k.tk ++ k.peer ++ b ++ 0#1 ++ d : Word32) :: []
  | .pbtReg k b a => (11#6 ++ k.tk ++ k.peer ++ b ++ 2#2 ++ a ++ 0#14 : Word32) :: []
  | .brtAlways k b e kk => (12#6 ++ k.tk ++ k.peer ++ b ++ 1#5 ++ e ++ kk ++ 0#12 : Word32) :: []
  | .brtCond k b f s e kk => (12#6 ++ k.tk ++ k.peer ++ b ++ f ++ s ++ 0#1 ++ e ++ kk ++ 0#12 : Word32) :: []
  | .loop k c a e => (13#6 ++ k.tk ++ k.peer ++ c ++ a ++ e : Word32) :: []
  | .rdsr k d s => (14#6 ++ k.tk ++ k.peer ++ d ++ 0#5 ++ s : Word32) :: []
  | .wrsr k a s => (14#6 ++ k.tk ++ k.peer ++ 0#4 ++ a ++ 1#1 ++ s : Word32) :: []
  | .fence k c s kk => (15#6 ++ k.tk ++ k.peer ++ c ++ s ++ kk : Word32) :: []
  | .fencex k a b s => (16#6 ++ k.tk ++ k.peer ++ a ++ b ++ s ++ 0#3 : Word32) :: []
  | .ld k d a o s z g imm r f => (17#6 ++ k.tk ++ k.peer ++ d ++ a ++ o ++ s ++ z ++ g ++ imm ++ r ++ f : Word32) :: []
  | .st k d a o s z g r f => (18#6 ++ k.tk ++ k.peer ++ d ++ a ++ o ++ s ++ z ++ g ++ 0#1 ++ r ++ f : Word32) :: []
  | .ldx k d a b o z s g r => (19#6 ++ k.tk ++ k.peer ++ d ++ a ++ b ++ o ++ z ++ s ++ g ++ r : Word32) :: []
  | .stx k d a b o z s g r => (20#6 ++ k.tk ++ k.peer ++ d ++ a ++ b ++ o ++ z ++ s ++ g ++ r : Word32) :: []
  | .amo k d a b op sz oc scope ord c sp => (21#6 ++ k.tk ++ k.peer ++ d ++ a ++ b ++ op ++ sz ++ 0#5 : Word32) :: [(oc ++ scope ++ ord ++ c ++ sp ++ 0#17 : Word32)]
  | .waitm k d a b o z s g r => (22#6 ++ k.tk ++ k.peer ++ d ++ a ++ b ++ o ++ z ++ s ++ g ++ r : Word32) :: []
  | .sdef k n a => (23#6 ++ k.tk ++ k.peer ++ n ++ a ++ 0#14 : Word32) :: []
  | .sset k n f b => (23#6 ++ k.tk ++ k.peer ++ n ++ f ++ b.bField ++ b.litField ++ 1#8 : Word32) :: b.words
  | .sget k d n f => (23#6 ++ k.tk ++ k.peer ++ d ++ n ++ f ++ 2#10 : Word32) :: []
  | .sld k n m => (23#6 ++ k.tk ++ k.peer ++ 0#1 ++ n ++ m ++ 3#14 : Word32) :: []
  | .sldn k n m b => (23#6 ++ k.tk ++ k.peer ++ 0#1 ++ n ++ m ++ b.bField ++ b.litField ++ 4#8 : Word32) :: b.words
  | .sst k m n => (23#6 ++ k.tk ++ k.peer ++ 0#4 ++ m ++ 0#2 ++ n ++ 5#10 : Word32) :: []
  | .sstn k d m n => (23#6 ++ k.tk ++ k.peer ++ d ++ m ++ 0#2 ++ n ++ 6#10 : Word32) :: []
  | .sadv k m b => (23#6 ++ k.tk ++ k.peer ++ 0#4 ++ m ++ b.bField ++ b.litField ++ 7#8 : Word32) :: b.words
  | .srst k m => (23#6 ++ k.tk ++ k.peer ++ 0#4 ++ m ++ 8#14 : Word32) :: []
  | .spos k d m => (23#6 ++ k.tk ++ k.peer ++ d ++ m ++ 9#14 : Word32) :: []
  | .cpy k a => (24#6 ++ k.tk ++ k.peer ++ 0#4 ++ a ++ 0#14 : Word32) :: []
  | .cpys k a => (24#6 ++ k.tk ++ k.peer ++ 0#4 ++ a ++ 1#14 : Word32) :: []
  | .gath k a => (24#6 ++ k.tk ++ k.peer ++ 0#4 ++ a ++ 2#14 : Word32) :: []
  | .scat k a => (24#6 ++ k.tk ++ k.peer ++ 0#4 ++ a ++ 3#14 : Word32) :: []
  | .cpyq k a n => (24#6 ++ k.tk ++ k.peer ++ 0#4 ++ a ++ 0#1 ++ n ++ 4#10 : Word32) :: []
  | .cpyf k a => (24#6 ++ k.tk ++ k.peer ++ 0#4 ++ a ++ 5#14 : Word32) :: []
  | .rinit k d a b => (25#6 ++ k.tk ++ k.peer ++ d ++ a ++ b.bField ++ b.litField ++ 0#8 : Word32) :: b.words
  | .rclaim k d a b => (25#6 ++ k.tk ++ k.peer ++ d ++ a ++ b.bField ++ b.litField ++ 1#8 : Word32) :: b.words
  | .rwfree k d a b => (25#6 ++ k.tk ++ k.peer ++ d ++ a ++ b.bField ++ b.litField ++ 2#8 : Word32) :: b.words
  | .rpub k d a b => (25#6 ++ k.tk ++ k.peer ++ d ++ a ++ b.bField ++ b.litField ++ 3#8 : Word32) :: b.words
  | .rwfill k d a b => (25#6 ++ k.tk ++ k.peer ++ d ++ a ++ b.bField ++ b.litField ++ 4#8 : Word32) :: b.words
  | .rtake k d a b => (25#6 ++ k.tk ++ k.peer ++ d ++ a ++ b.bField ++ b.litField ++ 5#8 : Word32) :: b.words
  | .rrel k d a b => (25#6 ++ k.tk ++ k.peer ++ d ++ a ++ b.bField ++ b.litField ++ 6#8 : Word32) :: b.words
  | .rstat k d a => (25#6 ++ k.tk ++ k.peer ++ d ++ a ++ 7#14 : Word32) :: []
  | .binit k a b => (26#6 ++ k.tk ++ k.peer ++ 0#4 ++ a ++ b.bField ++ b.litField ++ 0#8 : Word32) :: b.words
  | .barv k a b => (26#6 ++ k.tk ++ k.peer ++ 0#4 ++ a ++ b.bField ++ b.litField ++ 1#8 : Word32) :: b.words
  | .bard k a b => (26#6 ++ k.tk ++ k.peer ++ 0#4 ++ a ++ b.bField ++ b.litField ++ 2#8 : Word32) :: b.words
  | .bexp k a b => (26#6 ++ k.tk ++ k.peer ++ 0#4 ++ a ++ b.bField ++ b.litField ++ 3#8 : Word32) :: b.words
  | .bwait k d a b => (26#6 ++ k.tk ++ k.peer ++ d ++ a ++ b.bField ++ b.litField ++ 4#8 : Word32) :: b.words
  | .btest k d a b => (26#6 ++ k.tk ++ k.peer ++ d ++ a ++ b.bField ++ b.litField ++ 5#8 : Word32) :: b.words
  | .binv k a => (26#6 ++ k.tk ++ k.peer ++ 0#4 ++ a ++ 6#14 : Word32) :: []
  | .tld k a q n => (27#6 ++ k.tk ++ k.peer ++ 0#4 ++ a ++ q ++ n ++ 0#10 : Word32) :: []
  | .tset k a b => (27#6 ++ k.tk ++ k.peer ++ 0#4 ++ a ++ b.bField ++ b.litField ++ 1#8 : Word32) :: b.words
  | .tget k d a => (27#6 ++ k.tk ++ k.peer ++ d ++ a ++ 2#14 : Word32) :: []
  | .tclr k a => (27#6 ++ k.tk ++ k.peer ++ 0#4 ++ a ++ 3#14 : Word32) :: []
  | .mkld k s a b => (28#6 ++ k.tk ++ k.peer ++ 0#2 ++ s ++ a ++ b.bField ++ b.litField ++ 0#8 : Word32) :: b.words
  | .mkev k n a => (28#6 ++ k.tk ++ k.peer ++ 0#1 ++ n ++ a ++ 1#14 : Word32) :: []
  | .mkel k d kk b => (28#6 ++ k.tk ++ k.peer ++ 0#1 ++ d ++ kk ++ b.bField ++ b.litField ++ 2#8 : Word32) :: b.words
  | .mkct k d m a b => (28#6 ++ k.tk ++ k.peer ++ d ++ 0#1 ++ m ++ a ++ b.bField ++ b.litField ++ 3#8 : Word32) :: b.words
  | .thr k d a b => (29#6 ++ k.tk ++ k.peer ++ 0#2 ++ d ++ 0#2 ++ a ++ b.bField ++ b.litField ++ 0#8 : Word32) :: b.words
  | .kmop k d a b => (29#6 ++ k.tk ++ k.peer ++ 0#2 ++ d ++ 0#2 ++ a ++ b.bField ++ b.litField ++ 1#8 : Word32) :: b.words
  | .kmioIn k h kk q n => (29#6 ++ k.tk ++ k.peer ++ h ++ kk ++ q ++ n ++ 2#14 : Word32) :: []
  | .kmioOut k o kk => (29#6 ++ k.tk ++ k.peer ++ 0#2 ++ o ++ 0#2 ++ kk ++ 8194#14 : Word32) :: []
  | .attq k d a => (29#6 ++ k.tk ++ k.peer ++ d ++ a ++ 3#14 : Word32) :: []
  | .attw k d a => (29#6 ++ k.tk ++ k.peer ++ d ++ a ++ 4#14 : Word32) :: []
  | .acct k a b => (29#6 ++ k.tk ++ k.peer ++ 0#4 ++ a ++ b.bField ++ b.litField ++ 5#8 : Word32) :: b.words
  | .acctz k b => (29#6 ++ k.tk ++ k.peer ++ 0#8 ++ b.bField ++ b.litField ++ 6#8 : Word32) :: b.words
  | .retiredConversion x => [(47#6 ++ x : Word32)]
  | .patchWord i t f v lits => (3#2 ++ i ++ t ++ f ++ v : Word32) :: lits
  | .vmov i => i.patch :: i.lits
  | .vadd i => i.patch :: i.lits
  | .vsub i => i.patch :: i.lits
  | .vmul i => i.patch :: i.lits
  | .vfma i => i.patch :: i.lits
  | .vfms i => i.patch :: i.lits
  | .vfnma i => i.patch :: i.lits
  | .vmin i => i.patch :: i.lits
  | .vmax i => i.patch :: i.lits
  | .vabs i => i.patch :: i.lits
  | .vneg i => i.patch :: i.lits
  | .vcmp i => i.patch :: i.lits
  | .vsel i => i.patch :: i.lits
  | .vand i => i.patch :: i.lits
  | .vor i => i.patch :: i.lits
  | .vxor i => i.patch :: i.lits
  | .vnot i => i.patch :: i.lits
  | .vshl i => i.patch :: i.lits
  | .vshr i => i.patch :: i.lits
  | .vsra i => i.patch :: i.lits
  | .vcvt i => i.patch :: i.lits
  | .vqnt i => i.patch :: i.lits
  | .vdqnt i => i.patch :: i.lits
  | .vexp2 i => i.patch :: i.lits
  | .vlog2 i => i.patch :: i.lits
  | .vrcp i => i.patch :: i.lits
  | .vrsq i => i.patch :: i.lits
  | .vsqrt i => i.patch :: i.lits
  | .vrope i => i.patch :: i.lits
  | .vred i => i.patch :: i.lits
  | .vscan i => i.patch :: i.lits
  | .vperm i => i.patch :: i.lits
  | .vbcast i => i.patch :: i.lits
  | .vsplat i => i.patch :: i.lits
  | .viota i => i.patch :: i.lits
  | .vpopc i => i.patch :: i.lits
  | .vmlog i => i.patch :: i.lits
  | .vsmx i => i.patch :: i.lits
  | .vmrg i => i.patch :: i.lits
  | .vmadd i => i.patch :: i.lits
  | .vmsub i => i.patch :: i.lits
  | .vmmul i => i.patch :: i.lits
  | .vntt i => i.patch :: i.lits
  | .vintt i => i.patch :: i.lits
  | .vmred i => i.patch :: i.lits
  | .vclamp i => i.patch :: i.lits
  | .vpack i => i.patch :: i.lits
  | .vunpk i => i.patch :: i.lits
  | .vdot4 i => i.patch :: i.lits
  | .mma i => i.patch :: i.lits
  | .mmax i => i.patch :: i.lits
  | .mmb i => i.patch :: i.lits
  | .mmod i => i.patch :: i.lits
  | .mzero i => i.patch :: i.lits
  | .mst i => i.patch :: i.lits
  | .mld i => i.patch :: i.lits
  | .madda i => i.patch :: i.lits
  | .mtrn i => i.patch :: i.lits
  | .scout i => i.patch :: i.lits
  | .mscr i => i.patch :: i.lits
  | .timeTick => []
  | .taskDispatch _ _ _ => []
  | .planeLoadComplete => []
  | .planeFlip => []
  | .successorStart => []
  | .taskDrainPoint _ => []
  | .deadlockDetect => []
  | .preemptRequest _ _ => []
  | .sequencerHalt _ => []
  | .saveImageComplete _ => []
  | .faultResume _ => []
  | .gangResume _ _ => []
  | .drainAndClear => []
  | .scratchRefill _ => []
  | .copyBufferLeave => []
  | .copyPageCheck _ => []
  | .copyComplete _ => []
  | .stampedMatrixIssue => []
  | .matrixGroupBoundary => []
  | .mkevRetire => []
  | .streamEntryMove _ => []
  | .deferredArrival => []
  | .barrierWaitWake _ => []
  | .barrierTimeout _ => []
  | .waitmWake _ => []
  | .waitmLimit _ => []
  | .ringWaitWake _ => []
  | .ringWaitTimeout _ => []
  | .twaitWake _ => []
  | .twaitLimit _ => []
  | .waittWake _ => []
  | .attqPageConsume _ _ => []
  | .attqDeadline _ => []
  | .attqComplete _ => []
  | .tierEvaluation _ => []
  | .migrationSwitchOver _ => []
  | .translationWalkComplete _ _ _ => []
  | .shootdownComplete => []
  | .demandRewalk _ => []
  | .logRecordWrite _ => []
  | .notify _ _ => []
  | .queuePollTimer _ _ => []
  | .qenable _ _ => []
  | .qdisable _ _ => []
  | .lresume _ _ => []
  | .labort _ _ => []
  | .yardRegisterWrite _ _ _ => []
  | .depSignalSatisfied _ => []
  | .stagingDone _ => []
  | .stagemaxExpiry _ => []
  | .groupPlacement _ _ => []
  | .agingTick _ => []
  | .launchComplete _ => []
  | .yardReset _ => []
  | .dieFailure _ => []
  | .secCommandAccept => []
  | .fassign _ => []
  | .frelease _ => []
  | .mapset _ => []
  | .hcreate _ => []
  | .hretire _ => []
  | .wcreate _ => []
  | .wdestroy _ => []
  | .krevoke _ => []
  | .exportWorld _ => []
  | .importWorld _ => []
  | .wstat _ => []
  | .pstateActive _ => []
  | .pstateBreeze _ => []
  | .pstateLull _ => []
  | .pstateCalm _ => []
  | .lgrant _ => []
  | .lprog _ => []
  | .lzero _ => []
  | .lpeRowProgram _ _ => []
  | .lhash _ => []
  | .lwear _ => []
  | .getVersion _ => []
  | .getCapabilities _ => []
  | .negotiateAlgorithms _ => []
  | .getDigests _ => []
  | .getCertificate _ => []
  | .challenge _ _ => []
  | .getMeasurements _ _ _ => []
  | .keyExchange _ => []
  | .finish _ => []
  | .heartbeat _ => []
  | .keyUpdate _ => []
  | .endSession _ => []
  | .vendorDefinedRequest _ _ _ _ => []
  | .coldStart _ => []
  | .bootFetchTimeout _ => []
  | .breezeEntry => []
  | .breezeWake => []
  | .lullWake => []
  | .hubMemoryAccess _ => []
  | .pcapWrite _ => []
  | .powerCapStep _ => []
  | .capExcessPreempt => []
  | .thermal105 _ => []
  | .thermal115 => []
  | .thermal125 => []
  | .tierctlWrite _ _ _ => []
  | .tierstatRejectClear _ _ => []
  | .portEnableWrite _ _ => []
  | .flitReceive _ _ => []
  | .portRetrain _ _ => []
  | .planeDown _ => []
  | .d2dRetryFailure _ => []
  | .patrolScrub => []
  | .farrierClaim _ _ _ => []
  | .farrierYield _ _ => []
  | .weakRowRefresh _ _ => []
  | .redfishRequest _ => []
  | .telemetrySample => []
  | .instructionRetire _ => []
  | .quantumExpiry _ _ => []
  | .dieReturn _ => []
  | .heartbeatTimeout _ => []
  | .supplyLoss => []
  | .softError _ => []

/-- The instruction that the decoder reads from the table's numbering of words: the first word is bits 31 to 0 and each
later word follows. The words after those given are zeros, four of them at most (R166). -/
def decodeTableWord (_nbits w : Nat) : Option Instr :=
  (decodeWord (BitVec.ofNat 32 w)
    [BitVec.ofNat 32 (w / 2 ^ 32), BitVec.ofNat 32 (w / 2 ^ 64), BitVec.ofNat 32 (w / 2 ^ 96), BitVec.ofNat 32 (w / 2 ^ 128)]).map
    Prod.fst

end Sys2Proof
end

