-- ==== Sys2Proof/Machine/State.lean ====
section
/-! DEFINITION. The state of the package as plain data, and the state after reset. One core is held in full, the other
cores as peers (DESIGN CHOICE, log 1). Each record's docstring names the rules that give its fields. -/

namespace Sys2Proof.Machine

open Sys2Proof

/-! ## Why a step can stop -/

/-- The machine stops only where no power or no firmware lets anything run. -/
inductive Fault where
  /-- No event is pending while the package has no power (R13, R456). Safe: nothing runs. -/
  | poweredOff
  /-- No event is pending while the device stays halted after a failed boot (R444). Safe: nothing runs. -/
  | bootHalted
  deriving DecidableEq, Repr

/-- Steps that have no meaning. -/
inductive Refusal where
  /-- An instruction without a meaning in this model. Safe: a claim about it cannot be proved. -/
  | notModelled (mnemonic : String)
  /-- The queue of events from outside holds a term that is an instruction of a sequencer, which no outside party can make
  happen (raised by step). Safe: the step has no next state. -/
  | notAnEvent
  deriving DecidableEq, Repr

/-! ## Fault records, tokens and queue entries -/

/-- A fault record: the registers FCAUSE, FPC, FSEQ, FADDR and FREC0 to FREC7 (R227, R229), words 3 to 14 of R413; and for a failed
copy or ATTQ its descriptor, which goes with it into a log (words 16 to 31 of R413). -/
structure FaultRec where
  cause : Word64
  pc : Word64
  seq : Word64
  addr : Word64
  snap : RegFile 3 Word64
  desc : List Word64 := []
  deriving DecidableEq, Repr

/-- The record registers before any fault (R227, R229). -/
def FaultRec.none : FaultRec := { cause := 0, pc := 0, seq := 0, addr := 0, snap := RegFile.fill 3 0 }

/-- One slot of a token FIFO (R18, R20, R93): reserved, then filled with a value and, for a 0 of an engine, its record. -/
structure Slot where
  id : Nat
  filled : Bool
  val : Bool
  record : Option FaultRec
  deriving DecidableEq, Repr

/-- Poison with its cause, the address read as FADDR holds it and the word that filled the value (R226). -/
structure Poison where
  cause : BitVec 8
  addr : Word64
  word : Word32
  deriving DecidableEq, Repr

/-- One place of an operand or output queue (R15, R246, R259): reserved, then filled; it holds the L1 lines it locks (R58). -/
structure QEntry where
  id : Nat
  filled : Bool
  data : Entry
  poison : Option Poison
  locks : List Nat
  deriving DecidableEq, Repr

/-! ## A sequencer -/

/-- A hardware loop (R209, R417). `nest` orders the active loops by start, the latest highest. -/
structure LoopState where
  start : BitVec 16
  stop : BitVec 16
  active : Bool
  nest : BitVec 3
  deriving DecidableEq, Repr

/-- Delay slots owed after a BRT, whether it is taken, the chosen successor and a link register still to be written
(R207, R208, R417). -/
structure DelayState where
  owed : BitVec 2
  taken : Bool
  next : BitVec 16
  link : Bool
  deriving DecidableEq, Repr

/-- A destination that an issued instruction writes in its retire cycle (R22). -/
inductive Write where
  | x (r : BitVec 4) (v : Word64) (p : Option Poison)
  | flag (r : BitVec 3) (v : BitVec 1)
  | bt (r : BitVec 2) (v : Word64)
  | lc (r : BitVec 2) (v : Word64)
  | v (r : BitVec 4) (d : Entry) (lanes : BitVec 64)
  | t (d : Entry)
  | o (n : BitVec 2) (id : Nat) (d : Entry)
  | q (n : BitVec 3) (l : List (Nat × Entry))
  | fill (n : BitVec 3) (id : Nat) (d : Entry)
  | m (r : BitVec 3) (d lanes : BitVec 64)
  | km (r : BitVec 2) (d : BitVec 512)
  | acc (r : BitVec 2) (d : BitVec 65536)
  | fflags (bits : BitVec 7)
  | scout (es : List (BitVec 9 × BitVec 32))
  | mask (r : BitVec 2) (d : List Word64)
  | tpl (r : BitVec 6) (bits d : BitVec 256)
  | acct (n : BitVec 4) (k : Nat)
  deriving DecidableEq, Repr

/-- An instruction in flight (R22): its retire cycle, its destinations, the token slot it fills, as FIFO number and slot,
whether the scoreboard of R205 covers it, and the engine operation, if any, that has still to give its destinations. -/
structure Pending where
  due : Nat
  writes : List Write
  push : Option (BitVec 4 × Nat)
  covered : Bool
  op : Option Nat
  deriving DecidableEq, Repr

/-- Whose scratchpad a page belongs to: the task, its world, and the queue and backing region by which its bytes leave a frame (R54,
R57). -/
structure PageOwner where
  lid : BitVec 14
  task : Word64
  world : BitVec 6
  die : BitVec 2
  queue : BitVec 10
  scrBase : BitVec 56
  deriving DecidableEq, Repr

/-- What a sleeping instruction waits for (R100, R104, R217, R218, R237, R319), or the service of a TRAP (R214). Object addresses have the form of R231. -/
inductive WaitKind where
  | waitt (d : BitVec 4) (target : Word64)
  | twait (fifo : BitVec 4) (d : BitVec 4) (need : Nat) (limit : Word64) (since : Word64)
  | waitm (d : BitVec 4) (sp : BitVec 2) (addr : Word64) (logSize : BitVec 2) (sgn : BitVec 1) (cmp : Word64)
      (limit : Word64) (since : Word64)
  | bwait (d : BitVec 4) (obj : Word64) (phase : BitVec 4) (limit : Word64) (since : Word64)
  | ring (d : BitVec 4) (obj : Word64) (n : Nat) (fill : Bool) (limit : Word64) (since : Word64)
  | held (obj : Word64) (id : Nat)
  | attw (d : BitVec 4) (tag : BitVec 3)
  | service
  deriving DecidableEq, Repr

/-- A sleeping instruction: what it waits for, its words (for its fault record), the push slot it holds, and, where its access is of
cluster space, the task whose page it goes to, found at its issue (R50). -/
structure Wait where
  kind : WaitKind
  instr : Instr
  push : Option (BitVec 4 × Nat)
  home : Option PageOwner := none
  deriving DecidableEq, Repr

/-- The reason of a sequencer's last stall (R39); at a queue, with the entries or places that its instruction needs. -/
inductive Stall where
  | token (fifo : BitVec 4)
  | tokenPush (fifo : BitVec 4)
  | queueEmpty (n : BitVec 4) (need : Nat)
  | queueFull (n : BitVec 4) (need : Nat)
  | lock (set : Nat)
  | stamp
  | bound
  | page (p : BitVec 7)
  | copyBuffer
  | eFifo
  | engine
  | pending
  | drain
  deriving DecidableEq, Repr

/-- The state of one entry of a request table (R317, R416). -/
inductive ReqState where
  | idle | busy | completed | failed
  deriving DecidableEq, Repr

/-- An entry of a request table (R317): its descriptor's object address, its E slot, whether its fault was delivered, its
status and the record of its failure. -/
structure Req where
  state : ReqState
  delivered : Bool
  obj : Word64
  eslot : Nat
  status : Word64
  record : Option FaultRec
  deriving DecidableEq, Repr

/-- A FENCEX that has not completed (R81): its number in issue order, the commands it waits for, the paths it holds, and its scope as
resolved at its issue (R29). A halt leaves one over every path for a held RPUB or RREL (R91, R104). -/
structure FenceHold where
  at_ : Nat
  waits : List Nat
  paths : BitVec 8
  scope : Nat
  deriving DecidableEq, Repr

/-- A write that could not perform because no route leads to its device (R89): its path, the class of a path-0 write, the E slot of
an engine command, and the record of the fault it will be. -/
structure LostWrite where
  path : Nat
  oclass : BitVec 4
  slot : Option Nat
  record : FaultRec
  deriving DecidableEq, Repr

/-- The state of one sequencer (R15, R22, R26 to R29, R89, R101, R204 to R212, R226, R317, R417). `newFence` holds the paths that a FENCEX has
ordered and no command on them has been issued since, `seen` for each path the number below which every write comes before the reads of
this sequencer's commands on it (R81, R82). -/
structure SeqState where
  present : Bool
  exited : Bool
  pc : BitVec 16
  x : RegFile 4 Word64
  xPoison : RegFile 4 (Option Poison)
  f : BitVec 8
  bt : RegFile 2 Word64
  lc : RegFile 2 Word64
  loops : RegFile 2 LoopState
  delay : DelayState
  issueCnt : BitVec 32
  lvs : BitVec 3
  popped : Bool
  swapWait : Bool
  halted : Bool
  wait : Option Wait
  stall : Option Stall
  pend : List Pending
  arm : Bool
  e : List Slot
  reqs : RegFile 3 Req
  objErr : Option (Word64 × FaultRec)
  asyncErr : Option FaultRec
  writeErr : List LostWrite
  succTag : Word64
  fences : List FenceHold
  newFence : BitVec 8
  seen : RegFile 3 Nat
  deriving DecidableEq, Repr

/-! ## Planes -/

/-- A stream slot (R243, R244): the 512 bits of its descriptor, whether the slot is valid, and its pending count. -/
structure StreamSlot where
  desc : BitVec 512
  valid : Bool
  pend : Nat
  deriving DecidableEq, Repr

/-- A mask program slot (R145, R416): its words, at most 16; none when the slot is empty. -/
abbrev MaskSlot := List Word64

/-- A function that the translator has placed in a code heap (R362, R364): its number, its first word and how many it has. -/
structure HeapFn where
  fn : Nat
  start : Nat
  len : Nat
  deriving DecidableEq, Repr

/-- A plane (R34): the instruction memories of the four sequencers as the words that differ from `fill`, the functions placed in each
one's code heap in the order of their publication (R364), the 64 template records, the four mask slots and the 16 stream slots. -/
structure Plane where
  im : RegFile 2 (List (Nat × Word32))
  fill : Word32
  heap : RegFile 2 (List HeapFn)
  tpl : RegFile 6 (BitVec 256)
  masks : RegFile 2 MaskSlot
  streams : RegFile 4 StreamSlot
  deriving DecidableEq, Repr

/-! ## Engines -/

/-- Who a command belongs to (R44, R70): the launch, the task and the sequencer, with the place of the issuing instruction
for fault records (R229): plane, PC, issue-sequence number and its words, the first lowest. -/
structure Origin where
  lid : BitVec 14
  task : Word64
  q : SeqId
  plane : BitVec 1
  pc : BitVec 16
  seqNum : BitVec 32
  body : BitVec 256
  deriving DecidableEq, Repr

/-- A copy command (R248 to R255, R419): the descriptor as read at issue, its object address, FN, the operand queue of a CPYQ
with its reserved places, effective time, E slot, whether the engine has accepted it, the elements moved, the bytes of a
partly filled entry, the cause and record of a stop (R224), whether it waits for a page that is not present, and BASE and LEN of the regions of its handles. -/
structure CopyCmd where
  id : Nat
  origin : Origin
  world : BitVec 6
  desc : BitVec 1024
  obj : Word64
  fn : BitVec 3
  qn : BitVec 3
  places : List Nat
  eff : Word64
  stamped : Bool
  eslot : Nat
  accepted : Bool
  moved : Nat
  part : BitVec 2048
  stop : Option (BitVec 8 × FaultRec)
  parked : Bool
  srcRegion : Nat × Nat
  dstRegion : Nat × Nat
  deriving DecidableEq, Repr

/-- A matrix-engine operation (R283, R288, R295 to R298, R309, R419): its amended record, patch word and literals, the
K-groups done, whether it started and is stamped, its effective time, E slot, the entries popped so far for the group under
way, the flags of its groups, the v registers it read at issue, the keep-mask and mask program a SCOUT took at issue, the
entry of the scout score buffer as it found it with the cycle of that value and the operations issued before its writer, the places an MST reserved, the generator's state
at issue (R117), and a stop. -/
structure MatCmd where
  id : Nat
  origin : Origin
  issue : TplIssue
  done : Nat
  started : Bool
  stamped : Bool
  eff : Word64
  eslot : Option Nat
  tag : List Entry
  buf1 : List Entry
  buf2 : List Entry
  flags : BitVec 7
  regs : List Entry
  partialMask : BitVec 512
  prog : MaskSlot
  entry : BitVec 32
  entryDue : Nat
  entryAfter : List Nat
  places : List Nat
  seed : Word64
  stopped : Bool
  deriving DecidableEq, Repr

/-- The stream unit's work for one SLDN or SSTN (R246, R247): slot and plane, first entry, count, entries done, the operand or
output queue, the places reserved so far, the keep-mask read at issue, a stop, and whether a halt has held it (R91). -/
structure StreamJob where
  id : Nat
  origin : Origin
  plane : BitVec 1
  slot : BitVec 4
  load : Bool
  first : Nat
  count : Nat
  done : Nat
  qn : BitVec 3
  places : List Nat
  toReserve : Nat
  mask : Option (BitVec 512)
  stopped : Bool
  held : Bool
  deriving DecidableEq, Repr

/-- A registered deferred arrival (R99): its object, count, the commands it waits for, the record of its BARD, and for an object in cluster
space the task whose page holds it, found at issue (R50). -/
structure Deferred where
  id : Nat
  origin : Origin
  obj : Word64
  c : BitVec 16
  waits : List Nat
  record : FaultRec
  home : Option PageOwner := none
  deriving DecidableEq, Repr

/-- A running MKEV (R304, R305): its reserved queue place, its descriptor, the mask program taken at issue, the tiles
classed, the two masks so far, its class counts EMPTY, PARTIAL and FULL, and a stop. -/
structure MkevJob where
  id : Nat
  origin : Origin
  qn : BitVec 3
  place : Nat
  desc : BitVec 256
  obj : Word64
  prog : MaskSlot
  tiles : Nat
  live : BitVec 512
  part : BitVec 512
  counts : Nat × Nat × Nat
  stopped : Bool
  deriving DecidableEq, Repr

/-- A slice attention request (R158 to R166, R316 to R319): its table entry, descriptor, E slot, effective deadline, the mask
program taken at issue, the leaf triples so far by page (for each row m, s and w), the pages consumed, replaced by shadows,
dropped and skipped, those reported as absent, whether the deadline has been applied, and a stop. -/
structure AttReq where
  id : Nat
  origin : Origin
  idx : BitVec 3
  desc : BitVec 1024
  obj : Word64
  eslot : Nat
  deadline : Word64
  prog : Option MaskSlot
  leaves : List (Nat × List (List Nat))
  consumed : List Nat
  shadowed : List Nat
  dropped : List Nat
  skipped : List Nat
  asked : List Nat
  stop : Option FaultRec
  deriving DecidableEq, Repr

/-! ## The task and the core -/

/-- What runs on the core; `saved` never stands in a state between steps: it marks the view of a saved task for which the engines go
on (R44). -/
inductive RunState where
  | idle
  | saved
  | running
  | halting (tp : Word64)
  | stopped
  | staging
  deriving DecidableEq, Repr

/-- Identity of a task (R14, R28, R32, R50, R383): launch, gang group, task number, world, queue, coordinates, extents, level
table, the core of its first dispatch, backing region, successor record and tag, and the stacks that its record gives (R355, R380). -/
structure TaskId where
  lid : BitVec 14
  group : Nat
  taskId : Word64
  world : BitVec 6
  die : BitVec 2
  queue : BitVec 10
  lvc : RegFile 3 (BitVec 24)
  lve : RegFile 3 (BitVec 24)
  levels : RegFile 3 Word64
  slot : BitVec 11
  scrBase : BitVec 56
  succRec : BitVec 56
  succTag : Word64
  stackTops : RegFile 2 Word64
  deriving DecidableEq, Repr

/-- The state of the running task (R15, R18, R32, R37, R43, R53 to R58, R99, R118, R132, R152, R157, R227, R246, R251, R288,
R304, R317). Token FIFO number 4 * from + to joins two sequencers; `hold` is a stamped
operation that C holds, with its effective time (R38, R282). `broken` names the storage of the task and its planes, other than that of the
grains of R226, whose own bits fail correction (R226, R458). -/
structure Task where
  ident : TaskId
  seqs : RegFile 2 SeqState
  fifos : RegFile 4 (List Slot)
  q : RegFile 3 (List QEntry)
  o : RegFile 2 (List QEntry)
  v : RegFile 4 Entry
  vPoison : List ((BitVec 4 × BitVec 6) × Poison)
  t : RegFile 4 Entry
  tPoison : List ((BitVec 4 × BitVec 6) × Poison)
  m : RegFile 3 (BitVec 64)
  km : RegFile 2 (BitVec 512)
  acc : RegFile 2 (BitVec 65536)
  scout : BitVec 16384
  fflags : BitVec 7
  seed : Word64
  split : BitVec 4
  tofs : Word64
  acct : RegFile 4 Word64
  faults : FaultRec
  active : BitVec 1
  copies : List CopyCmd
  mats : List MatCmd
  hold : Option (TplIssue × Word64)
  jobs : List StreamJob
  deferred : List Deferred
  mkevs : List MkevJob
  atts : List AttReq
  gpins : List (BitVec 56)
  pins : List (BitVec 7)
  broken : List SoftWhere
  deriving DecidableEq, Repr

/-- A resident scratchpad page (R53 to R57) of the running task or of one that has been saved: its way in its bank and its place in
refill order. -/
structure Resident where
  owner : PageOwner
  page : BitVec 7
  way : Nat
  order : Nat
  deriving DecidableEq, Repr

/-- An L1 line (R58): VA[55:7] with its address space, its way, its allocation order and its lock count. -/
structure L1Line where
  line : Nat
  way : Nat
  order : Nat
  locks : Nat
  deriving DecidableEq, Repr

/-- A cached translation (R397): world, address space (none for a global entry), the page's VA, the leaf entry and the
logarithm of the page size. -/
structure TlbEntry where
  world : BitVec 6
  space : Option (BitVec 12)
  va : Nat
  leaf : Word64
  logSize : Nat
  deriving DecidableEq, Repr

/-- The firmware context of a core (R414): its instruction memory by word, the word that it fetches next, its registers and SRN 0x1000 to
0x1FFF. No rule gives its program or an instruction that reads it. -/
structure FwContext where
  im : List (Nat × Word32)
  pc : Nat
  x : RegFile 4 Word64
  srn : List (Nat × Word64)
  deriving DecidableEq, Repr

/-- The bytes that a write of this core replaced, which an engine's read that no order puts after the write may still return (R82): the write's
number and time, the sequencer and class of a store or an atomic on path 0, its range of keys, and the cells of the range before it (DESIGN
CHOICE, log 2). -/
structure OldBytes where
  num : Nat
  by_ : Option (SeqId × BitVec 4)
  time : Word64
  key : Nat
  size : Nat
  cells : List Host.Cell
  deriving DecidableEq, Repr

/-- The core that the model holds in full: its identifier (R2), its task, its planes with READY, LOADING and the staged
successor (R34, R383), residency (R53), L1 and translation cache (R58, R397), its world (R46), its cycle count
(R22), the task that the yard has placed and that waits for its dispatch (R32, R386), and its firmware context, with whether it
runs (R414); the SPLIT under which L1 stands (R51), the time from which stamped commands leave (R45), and the bytes that this core's late
writes replaced (R82). -/
structure Core where
  coreId : BitVec 11
  run : RunState
  task : Task
  planes : RegFile 1 Plane
  ready : Bool
  loading : Bool
  staged : Option (RegFile 6 Word64)
  refused : Bool
  lastWorld : BitVec 6
  resident : List Resident
  l1 : List L1Line
  tlb : List TlbEntry
  firmware : Bool
  cycle : Nat
  haltCause : Option FaultRec
  next : Option TaskId
  fw : FwContext
  l1Split : BitVec 4
  stampFrom : Word64
  olds : List OldBytes
  deriving DecidableEq, Repr

/-- A peer (DESIGN CHOICE, log 1): a task on another core, with its launch, world, the core of its first dispatch, its SPLIT, whether it
holds its core, whether it is resident, its pinned scratchpad pages, and the save area of its image while it is pre-empted (R14, R50, R56,
R440). A task that has drained is no longer listed. -/
structure Peer where
  core : BitVec 11
  lid : BitVec 14
  group : Nat
  task : Word64
  world : BitVec 6
  slot : BitVec 11
  split : BitVec 4
  scrBase : BitVec 56
  die : BitVec 2
  queue : BitVec 10
  placed : Bool
  resident : Bool
  pins : List (BitVec 7)
  area : Option Nat
  deriving DecidableEq, Repr

/-! ## Launches and yards -/

/-- The states of R384. -/
inductive LaunchState where
  | accepted | waiting | staging | ready | running | finished
  deriving DecidableEq, Repr

/-- The state of a gang group (R30, R384). -/
inductive GroupState where
  | waiting | running | halting | preempted | held | drained
  deriving DecidableEq, Repr

/-- A gang group (R30, R386): its number, its state, since when it waits or runs, steps of aging, whether its quantum has
passed, how many tasks of it have drained, its Tp, whether a YIELD has offered it, and whether the log has been told that its world has too
few save frames (R440). -/
structure Group where
  num : Nat
  state : GroupState
  since : Word64
  aging : Nat
  quantumOver : Bool
  drained : Nat
  tp : Word64
  yieldTo : Bool
  short : Bool
  deriving DecidableEq, Repr

/-- A launch (R375, R378 to R386, R390, R391): index and yard die, its queue, the packet's words 0 to 15, the launch record's
64 words, its state, the time of its last change, its groups that have been dispatched, the number of the first group that
has not and its steps of aging, drained tasks, what its status will say, and the functions translated for it, by sequencer and number
(R362). -/
structure Launch where
  lid : BitVec 14
  queueDie : BitVec 2
  queue : BitVec 10
  packet : RegFile 4 Word64
  record : RegFile 6 Word64
  state : LaunchState
  since : Word64
  groups : List Group
  fresh : Nat
  freshAging : Nat
  tasksDone : Nat
  total : Nat
  groupSize : Nat
  code : Option (BitVec 8)
  cause : BitVec 8
  userCode : BitVec 32
  succRef : Bool
  restarted : Bool
  cache : List ((SeqId × Nat) × List Word32)
  deriving DecidableEq, Repr

/-- Why a task image is held (R388, R403, R411). -/
inductive Hold where
  | preempted | demand | emulate | trap (code : BitVec 8) | breakpoint
  deriving DecidableEq, Repr

/-- A save image (R43, R415 to R420, R440): the task, its active plane, Tp, whether it is valid, why it is held and the PA of
its save area, if the world's save frames had room. -/
structure Image where
  task : Task
  plane : Plane
  core : BitVec 11
  tp : Word64
  valid : Bool
  enc : Bool
  hold : Hold
  area : Option Nat
  deriving DecidableEq, Repr

/-- A queue that a yard serves (R373, R377): its number, its table entry as QENABLE read it, whether it accepts packets, ACCIDX
and when it was last examined. -/
structure Queue where
  num : BitVec 10
  entry : BitVec 512
  enabled : Bool
  accIdx : Word64
  polled : Word64
  deriving DecidableEq, Repr

/-- What the journal records (R389); an acceptance with the 16 words read. -/
inductive JournalRec where
  | accept (queue : BitVec 10) (seq : BitVec 32) (lid : BitVec 14) (words : List Word64)
  | dispatch (lid : BitVec 14) (group : Nat)
  | complete (lid : BitVec 14)
  deriving DecidableEq, Repr

/-- A record for the yard log or a HANDLER ring (R413): kind, place, the fault record and words 16 to 31. -/
structure LogRec where
  kind : BitVec 4
  ident : Word64
  task : Word64
  record : FaultRec
  tail : List Word64
  deriving DecidableEq, Repr

/-- A yard (R370 to R372, R377, R387, R389, R391, R392, R412): the registers of its window, its enabled queues, the log's
size, records that wait to be written, its journal with the number of records appended since its reset, its current phase and whether its
die has failed. -/
structure Yard where
  state : BitVec 2
  mirroring : Bool
  cmdErr : BitVec 8
  qtBase : Word64
  jBase : Word64
  jMirror : Word64
  jSize : Word64
  regBase : Word64
  schedBase : Word64
  ageTick : Word64
  quantum : Word64
  stageMax : Word64
  logBase : Word64
  logAddr : Word64
  logN : Nat
  queues : List Queue
  logWait : List LogRec
  journal : List JournalRec
  appended : Nat
  phase : BitVec 8
  failed : Bool
  deriving DecidableEq, Repr

/-! ## Memory hierarchy and tiers -/

/-- A line of an L2 slice (R63, R64, R435): line number, slice, set, way, allocation order in the phase, its world and whether
it is modified. -/
structure L2Line where
  line : Nat
  slice : Nat
  set : Nat
  way : Nat
  phase : Nat
  order : Nat
  world : BitVec 6
  dirty : Bool
  hot : Bool
  deriving DecidableEq, Repr

/-- Tiers of a key-value page (R406, R409). -/
inductive TierState where
  | hot | warm | cold | moving
  deriving DecidableEq, Repr

/-- An entry of a tier directory (R66, R406, R407): the frame, the page-table entry that maps it, its TIER, state and heat,
its world, when it was promoted, the states it moves between and the frame it moves to, whether a move of it was aborted since
the last evaluation, and whether the page is asked for (R410). -/
structure TierPage where
  frame : Nat
  pte : Nat
  tier : BitVec 2
  state : TierState
  heat : BitVec 16
  world : BitVec 6
  promoted : Nat
  source : TierState
  target : TierState
  toFrame : Nat
  aborted : Bool
  wanted : Bool
  deriving DecidableEq, Repr

/-- A tier engine (R408, R409): `ways` is the number of reserved ways in effect before the last write of HOTWAYS, which stay reserved until the
pages in those released have been demoted. -/
structure TierEngine where
  ctl : Word64
  thr : Word64
  doneCnt : BitVec 32
  aborts : BitVec 16
  reject : Bool
  pages : List TierPage
  evaluated : Word64
  order : Nat
  ways : Nat
  deriving DecidableEq, Repr

/-! ## Worlds, security and the loft -/

/-- The states of a world (R429). -/
inductive WorldState where
  | free | keying | live | revoking | keyless | erased | exported
  deriving DecidableEq, Repr

/-- A world record with its key slot, which holds the root K, the data key pair and the tag key (R428, R437, R438), and the slots of its handle table that are quarantined (R405). -/
structure World where
  state : WorldState
  n : BitVec 5
  arrived : BitVec 16
  expCnt : BitVec 16
  policy : BitVec 384
  check : Option (BitVec 384)
  custodians : List (BitVec 384)
  shares : List (BitVec 4 × BitVec 512)
  key : Option (BitVec 512)
  dataKey : Option (BitVec 512)
  tagKey : Option (BitVec 256)
  quarantined : List Nat
  deriving DecidableEq, Repr

/-- A command in a lane of the security core (R422): how far it has come, and a word it keeps for its result. -/
structure LaneCmd where
  op : BitVec 8
  lane : Nat
  cmd : SecCmd
  phase : Nat
  saved : Word64
  deriving DecidableEq, Repr

/-- A loft programming engine's progress on a command (R431 to R433): rows done, remapped, pulses, and since when its bank
rests. -/
structure LpeState where
  rows : Nat
  remapped : Nat
  pulses : Nat
  rest : Word64
  deriving DecidableEq, Repr

/-- Loft ownership, roots, wear and repair (R430, R432 to R434): entries by segment and by row, spares used by bank, rows
retired by bank, the weak row that each die's engine refreshes (R462), and the firmware copy of the reserved region (R430, R444). Entries
not listed are zero. -/
structure Loft where
  owner : List (Nat × BitVec 8)
  roots : List (Nat × BitVec 384)
  wear : List (Nat × Nat)
  remap : List (Nat × Nat)
  spares : List (Nat × Nat)
  retired : List (Nat × Nat)
  unreadable : List Nat
  held : List Nat
  lanes : RegFile 2 LpeState
  refresh : RegFile 2 (Option Nat)
  firmware : Option BootImage
  deriving DecidableEq, Repr

/-- An SPDM session (R446, R448): its number, the requester's certificate digest, whether it is secured, its last heartbeat, its key generation and the WAKECNT that it has been sent. -/
structure Session where
  id : Nat
  requester : BitVec 384
  secured : Bool
  beat : Word64
  keyGen : Nat
  wakeSeen : Nat
  deriving DecidableEq, Repr

/-- What the management port sends in answer (R446, R447): the message's name, its values and a signature where the message
carries one. -/
structure SpdmAnswer where
  message : String
  session : Nat
  values : List (BitVec 384)
  signature : Option (BitVec 768)
  deriving DecidableEq, Repr

/-- Entries of the security log (R427, R465). -/
inductive SecLog where
  | hubRefusal (pa : BitVec 52)
  | refused (op : BitVec 8) (k : Nat)
  | bootFailure
  deriving DecidableEq, Repr

/-- A sealed checkpoint as EXPORT made it (R441): its world and EXPCNT, the rest of the world record, each frame's PA, ownership entry and
plain words, what is mapped (address space, VA, level and leaf), the root of each address space, the handle table and the slots of it that are quarantined, the loft digest, the policy digest and the key it was sealed under; and whether the device has passed through
calm since (R449). -/
structure Checkpoint where
  world : BitVec 6
  expCnt : BitVec 16
  n : BitVec 5
  check : Option (BitVec 384)
  custodians : List (BitVec 384)
  frames : List (Nat × Nat × List Word64)
  maps : List (BitVec 12 × Nat × Nat × Word64)
  spaces : List (BitVec 12 × Nat)
  handles : List Word64
  quarantined : List Nat
  loftDigest : BitVec 384
  policy : BitVec 384
  sealKey : BitVec 512
  calmed : Bool
  deriving DecidableEq, Repr

/-- The security core (R422 to R449): lanes' commands, worlds with key slots (slot 0 is the security core's own, R437), how often the scrambler keys were drawn and the 64 keys (R435), sessions and answers, its log
(at most 4,096 entries), the running firmware's measurement, and every sealed checkpoint that it has signed (R441). -/
structure Security where
  queue : List LaneCmd
  worlds : RegFile 6 World
  draws : Nat
  scramblers : List (BitVec 256)
  sessions : List Session
  nextSession : Nat
  answers : List SpdmAnswer
  log : List SecLog
  fwDigest : BitVec 384
  fwVersion : Nat
  fwFromLoft : Bool
  measured : Bool
  checkpoints : List Checkpoint
  deriving DecidableEq, Repr

/-! ## Power, links, errors, repair and management -/

/-- The power states (R423, R448, R449, R457). -/
inductive PowerState where
  | active | breeze | lull | calm
  deriving DecidableEq, Repr

/-- What the boot of R444 has come to. -/
inductive BootState where
  | cold | running | failed
  deriving DecidableEq, Repr

/-- An island's set clock and present clock in steps of 100 MHz, and whether a thermal limit holds it below (R454 to R456). -/
structure Island where
  set : Nat
  now : Nat
  thermal : Bool
  deriving DecidableEq, Repr

/-- Power management (R448, R454 to R457): `lowering` lists the floor islands to be freed and lowered for the cap, `toLull` says
that the package is on its way to lull. -/
structure Power where
  state : PowerState
  changed : Word64
  wakeCnt : Nat
  supply : Bool
  boot : BootState
  capw : BitVec 13
  pkgw : BitVec 13
  throt : Bool
  overMs : Nat
  islands : Vector Island 24
  idleSince : Word64
  lowering : List Nat
  toLull : Bool
  deriving DecidableEq, Repr

/-- A request of this package that a flit carries (R451): the device it goes to, its number there, the memory key of its bytes, their number,
and whether it writes. -/
structure OutReq where
  target : BitVec 22
  num : Nat
  key : Nat
  size : Nat
  write : Bool
  deriving DecidableEq, Repr

/-- A Synhus Link port (R450 to R453): its status and counters; as a receiver the number of the next flit in order, whether a replay is under
way and how often in a row it failed, and whether the port retrains; as a sender the number of its next flit and its replay buffer of the
last 256 flits, oldest first. -/
structure Port where
  en : Bool
  up : Bool
  width : BitVec 2
  retrains : BitVec 16
  peer : BitVec 8
  flitsTx : Word64
  flitsRx : Word64
  crcErr : Word64
  replays : Word64
  replayFlits : Word64
  degrade : Word64
  rerouted : Word64
  replaying : Bool
  failures : Nat
  retraining : Bool
  nextRx : Nat
  nextTx : Nat
  sent : List (Nat × OutReq)
  deriving DecidableEq, Repr

/-- A scale-out port's counters (ch. 20, Scale-out and die-to-die). -/
structure GbePort where
  fecCorr : Word64
  fecUncorr : Word64
  framesTx : Word64
  framesRx : Word64
  drops : Word64
  retx : Word64
  deriving DecidableEq, Repr

/-- A die-to-die boundary: its counters and whether its retry still works (ch. 20, R392). Boundaries 0 to 3 join die n to die
(n + 1) mod 4, 4 to 7 join the hub die to die n (R1). -/
structure Boundary where
  retry : Nat
  laneRepair : Nat
  up : Bool
  deriving DecidableEq, Repr

/-- The structures whose errors are counted (R458). -/
inductive ErrStruct where
  | sram | cache | lpddr | loft
  deriving DecidableEq, Repr

/-- Error counters of one structure and die (R458). -/
structure ErrCount where
  ce : Nat
  ue : Nat
  scrubCe : Nat
  deriving DecidableEq, Repr

/-- A lane of a column's vertical bus that failed, with the spare that takes its place; it is in use from the column's next claim on (R461). -/
structure LaneRepair where
  column : Nat
  lane : Nat
  spare : Nat
  inUse : Bool
  deriving DecidableEq, Repr

/-- The farrier engines (R459 to R462): columns whose bus is claimed, claims that wait with what their tests will find, failed lanes by column
with the repair map, retired columns, weak rows, those of them that no spare can take, and how many were refreshed. Columns are numbered
die * 128 + column. -/
structure Farrier where
  claimed : List Nat
  waiting : List (Nat × FarrierFinding)
  failedLanes : List (Nat × Nat)
  repairs : List LaneRepair
  retired : List Nat
  weak : List (BitVec 2 × Nat)
  stuck : List Nat
  refreshed : Nat
  deriving DecidableEq, Repr

/-- The device configuration in the loft reserved region (R408, R464): the tier policies, the power cap, the ports that are enabled and the
operators. -/
structure DeviceConfig where
  tierCtl : RegFile 2 Word64
  tierThr : RegFile 2 Word64
  capw : BitVec 13
  portEn : BitVec 18
  operators : List (BitVec 384)
  deriving DecidableEq, Repr

/-- The bands of a loft bank by its spares left (R463). -/
inductive WearBand where
  | normal | warn | critical | exhausted
  deriving DecidableEq, Repr

/-- What the sensors read (R465): voltage and power of each island, junction temperature of each die, and the cold plates' inlet and outlet
temperatures and flow. -/
structure Sensors where
  volts : List Word64
  watts : List Word64
  junction : List Word64
  inlet : Word64
  outlet : Word64
  flow : Word64
  deriving DecidableEq, Repr

/-- The last telemetry sample (R465): power, clocks and cap; sensors; ports; errors; the farrier engines; loft spares used, rows retired and
bands by bank (a bank not listed has used no spare) with the rows at or above 90,000 programs, as at the last LPE command (R463); yards; the security log; the power state with its last change. -/
structure Telemetry where
  sampled : Word64
  pkgw : BitVec 13
  capw : BitVec 13
  throt : Bool
  clocks : List Nat
  sensors : Sensors
  ports : List Port
  gbe : List GbePort
  d2d : List Boundary
  errors : List ErrCount
  ueEvents : List (ErrStruct × Nat × Word64)
  failedLanes : List (Nat × Nat)
  retired : List Nat
  refreshed : Nat
  loftSpares : List (Nat × Nat)
  loftRetired : List (Nat × Nat)
  loftBands : List (Nat × WearBand)
  loftWorn : List (Nat × Nat)
  ystat : List Word64
  doneByCode : List Nat
  secLog : List SecLog
  power : PowerState
  changed : Word64
  deriving DecidableEq, Repr

/-- How a Redfish request was answered (R464, R465): done, refused to a client that is no operator, refused for its value, or with the content
of the resource that it reads, as words. -/
inductive RedfishAnswer where
  | done | forbidden | refused
  | content (resource : Resource) (words : List Nat)
  deriving DecidableEq, Repr

/-- A remote aperture (R393). -/
structure Aperture where
  num : Nat
  device : BitVec 22
  rbase : BitVec 12
  deriving DecidableEq, Repr

/-- An RPUB (or RREL when `rel`) that its ring's home holds until its turn (R104): where the descriptor lies, k and n, and
the task and sequencer that sleep on it. -/
structure HeldRing where
  id : Nat
  home : Nat × Nat
  k : BitVec 32
  n : Nat
  rel : Bool
  lid : BitVec 14
  task : Word64
  q : SeqId
  deriving DecidableEq, Repr

/-- A translation shootdown under way (R401): a world, one address space or all, and a range of VA. -/
structure Shootdown where
  world : BitVec 6
  space : Option (BitVec 12)
  lo : Nat
  hi : Nat
  deriving DecidableEq, Repr

/-- What another core does to this core's own scratchpad (R50, R98): an arrival with a count at a barrier of it, or a store of 2^logSize
bytes. -/
inductive PeerOp where
  | arrive (c : BitVec 16)
  | store (logSize : BitVec 2) (v : Word64)
  deriving DecidableEq, Repr

/-- An access of another core to a page of a task of this one, still to perform (R50, R71): the launch and the task whose page it is, the
address there, and what it does. Other cores put it there, as other outside parties put events into `inputs` (DESIGN CHOICE, log 1). -/
structure PeerAccess where
  lid : BitVec 14
  task : Word64
  addr : BitVec 21
  op : PeerOp
  deriving DecidableEq, Repr

/-- Everything of the package outside the core (R13, R36 and the rules of its parts); `served` is the queue that the yards served
last, as die * 1024 + queue (R386), `arrivals` accesses of other cores to pages of this one, oldest first (R50), `linkNum` the next
request number towards each device and `linkSeen` the requests of others that have performed (R451), `gangGone` the gang peers that have ended, with the position each held (R50), `hubReply` what the last hub access was answered, `latent` the lines of memory with an error that
correction will mend (R458). -/
structure Package where
  time : Word64
  power : Power
  yards : RegFile 2 Yard
  served : Nat
  launches : List Launch
  images : List Image
  heldRings : List HeldRing
  peers : List Peer
  failedCores : List Nat
  gangGone : List (BitVec 14 × Nat × BitVec 11)
  l2 : List L2Line
  allocs : Nat
  apertures : List Aperture
  tiers : RegFile 2 TierEngine
  security : Security
  loft : Loft
  ports : Vector Port 18
  gbe : RegFile 3 GbePort
  d2d : RegFile 3 Boundary
  errors : RegFile 4 ErrCount
  ueEvents : List (ErrStruct × Nat × Word64)
  scrubPos : Nat
  farrier : Farrier
  config : DeviceConfig
  telemetry : Telemetry
  doneByCode : List Nat
  hubReply : Option Word64
  replies : List RedfishAnswer
  latent : List Nat
  bootTimer : Word64
  shootdowns : List Shootdown
  arrivals : List PeerAccess
  linkNum : List (BitVec 22 × Nat)
  linkSeen : List (BitVec 22 × Nat)
  deriving DecidableEq, Repr

/-- Whose turn it is (DESIGN CHOICE, log 2): a sequencer's issue opportunity, the engines, the tick. -/
inductive Turn where
  | seq (q : SeqId)
  | engines
  | tick
  deriving DecidableEq, Repr

/-- The whole machine. Memory is a list of cells in rising key order that lists no byte equal to zero (DESIGN CHOICE, log 5): keys 0 to
2^52 - 1 are physical addresses, from 2^60 the core's scratchpad frames by way and bank, from 2^61 the loft, from 2^80 the memory of other
devices. `bad` holds the units
whose stored bits fail correction with their cause (R226, R458). The last five fields are the model's own: events from
outside (oldest first), the turn, the sequencer under step, the identifier counter and the free-value counter (DESIGN CHOICE, log 2, 3). -/
structure State where
  core : Core
  pkg : Package
  mem : List Host.Cell
  bad : List (Nat × BitVec 8)
  inputs : List Instr
  turn : Turn
  cur : SeqId
  nextId : Nat
  freeCtr : Nat
  deriving DecidableEq, Repr

/-! ## Reset -/

/-- No loop. -/
def LoopState.none : LoopState := { start := 0, stop := 0, active := false, nest := 0 }

/-- No delay slot owed. -/
def DelayState.none : DelayState := { owed := 0, taken := false, next := 0, link := false }

/-- An idle table entry (R317). -/
def Req.idle : Req := { state := .idle, delivered := false, obj := 0, eslot := 0, status := 0, record := none }

/-- A cleared sequencer (R46), absent and halted: no task runs. -/
def SeqState.clear : SeqState where
  present := false
  exited := false
  pc := 0
  x := RegFile.fill 4 0
  xPoison := RegFile.fill 4 none
  f := 0
  bt := RegFile.fill 2 0
  lc := RegFile.fill 2 0
  loops := RegFile.fill 2 LoopState.none
  delay := DelayState.none
  issueCnt := 0
  lvs := 0
  popped := false
  swapWait := false
  halted := true
  wait := none
  stall := none
  pend := []
  arm := false
  e := []
  reqs := RegFile.fill 3 Req.idle
  objErr := none
  asyncErr := none
  writeErr := []
  succTag := 0
  fences := []
  newFence := 0
  seen := RegFile.fill 3 0

/-- The record that TCLR writes: KIND 0xFF (R182, R281). -/
def tplCleared : BitVec 256 := 0xFF#256

/-- An invalid stream slot (R244). -/
def StreamSlot.clear : StreamSlot := { desc := 0, valid := false, pend := 0 }

/-- A cleared plane (R46): empty instruction memories, cleared templates, empty mask slots, invalid streams. -/
def Plane.clear : Plane where
  im := RegFile.fill 2 []
  fill := 0
  heap := RegFile.fill 2 []
  tpl := RegFile.fill 6 tplCleared
  masks := RegFile.fill 2 []
  streams := RegFile.fill 4 StreamSlot.clear

/-- A plane after reset: every field of a template record has its Reset value, which is zero (R182). -/
def Plane.reset : Plane := { Plane.clear with tpl := RegFile.fill 6 0 }

/-- No task's identity. -/
def TaskId.clear : TaskId where
  lid := 0
  group := 0
  taskId := 0
  world := 0
  die := 0
  queue := 0
  lvc := RegFile.fill 3 0
  lve := RegFile.fill 3 1
  levels := RegFile.fill 3 0
  slot := 0
  scrBase := 0
  succRec := 0
  succTag := 0
  stackTops := RegFile.fill 2 0

/-- A cleared task state (R46): every register zero, every queue empty; SPLIT 2, as for a launch that gives none (R32, R51);
SEED 1, as for a seed of zero (R118). -/
def Task.clear : Task where
  ident := TaskId.clear
  seqs := RegFile.fill 2 SeqState.clear
  fifos := RegFile.fill 4 []
  q := RegFile.fill 3 []
  o := RegFile.fill 2 []
  v := RegFile.fill 4 0
  vPoison := []
  t := RegFile.fill 4 0
  tPoison := []
  m := RegFile.fill 3 0
  km := RegFile.fill 2 0
  acc := RegFile.fill 2 0
  scout := 0
  fflags := 0
  seed := 1
  split := 2
  tofs := 0
  acct := RegFile.fill 4 0
  faults := FaultRec.none
  active := 0
  copies := []
  mats := []
  hold := none
  jobs := []
  deferred := []
  mkevs := []
  atts := []
  gpins := []
  pins := []
  broken := []

/-- The core after reset: no task, cleared (R46, log 6). -/
def Core.reset : Core where
  coreId := 0
  run := .idle
  task := Task.clear
  planes := RegFile.fill 1 Plane.reset
  ready := false
  loading := false
  staged := none
  refused := false
  lastWorld := 0
  resident := []
  l1 := []
  tlb := []
  firmware := false
  cycle := 0
  haltCause := none
  next := none
  fw := { im := [], pc := 0, x := RegFile.fill 4 0, srn := [] }
  l1Split := 2
  stampFrom := 0
  olds := []

/-- A yard after reset (R370 to R372). -/
def Yard.reset : Yard where
  state := 0
  mirroring := false
  cmdErr := 0
  qtBase := 0
  jBase := 0
  jMirror := 0
  jSize := 0
  regBase := 0
  schedBase := 0
  ageTick := 250000
  quantum := 2500000
  stageMax := 2500000
  logBase := 0
  logAddr := 0
  logN := 0
  queues := []
  logWait := []
  journal := []
  appended := 0
  phase := 0
  failed := false

/-- TIERCTL after reset (R408): HEATINT 250,000, MIGMAX 16, HOTWAYS 4, DECAY 1. -/
def tierCtlReset : Word64 := 0x0003D09000104100#64

/-- TIERTHR after reset (R408): WARMUP 64, COOL 4, PROMOTE 512, DEMOTE 128. -/
def tierThrReset : Word64 := 0x0040000402000080#64

/-- A tier engine after reset (R408). -/
def TierEngine.reset : TierEngine where
  ctl := tierCtlReset
  thr := tierThrReset
  doneCnt := 0
  aborts := 0
  reject := false
  pages := []
  evaluated := 0
  order := 0
  ways := 4

/-- A free world (R428, R429). -/
def World.free : World where
  state := .free
  n := 0
  arrived := 0
  expCnt := 0
  policy := 0
  check := none
  custodians := []
  shares := []
  key := none
  dataKey := none
  tagKey := none
  quarantined := []

/-- World 0 is always LIVE (R428), and key slot 0 is the security core's own, with its root K, its data key pair and its tag key as every slot
has them (R437; DESIGN CHOICE, log 10). -/
def World.zero : World :=
  { World.free with
    state := .live
    key := some Config.slotZero
    dataKey := some (Config.hkdf Config.slotZero 0x61746164)
    tagKey := some ((Config.hkdf Config.slotZero 0x676174).truncate 256) }

/-- The world records after reset. -/
def worldsReset : RegFile 6 World := (RegFile.fill 6 World.free).set 0 World.zero

/-- The 64 scrambler keys that a draw at a count of the free values takes (R435; log 3). -/
def drawScramblers (ctr : Nat) : List (BitVec 256) :=
  (upTo 64).map (fun w => Config.freeWord ctr (2 ^ 50 + 4 * w + 3) ++ Config.freeWord ctr (2 ^ 50 + 4 * w + 2) ++
    Config.freeWord ctr (2 ^ 50 + 4 * w + 1) ++ Config.freeWord ctr (2 ^ 50 + 4 * w))

/-- The security core after reset. -/
def Security.reset : Security where
  queue := []
  worlds := worldsReset
  draws := 1
  scramblers := drawScramblers 0
  sessions := []
  nextSession := 0
  answers := []
  log := []
  fwDigest := 0
  fwVersion := 0
  fwFromLoft := false
  measured := true
  checkpoints := []

/-- A loft lane with no command. -/
def LpeState.idle : LpeState := { rows := 0, remapped := 0, pulses := 0, rest := 0 }

/-- The loft after reset: no segment owned, nothing worn (DESIGN CHOICE, log 6). -/
def Loft.reset : Loft where
  owner := []
  roots := []
  wear := []
  remap := []
  spares := []
  retired := []
  unreadable := []
  held := []
  lanes := RegFile.fill 2 LpeState.idle
  refresh := RegFile.fill 2 none
  firmware := none

/-- Islands at their highest clock, 2.5 GHz (R454, log 6). -/
def Island.reset : Island := { set := 25, now := 25, thermal := false }

/-- Power after reset: active, running, the cap at 4,200 W (R455, log 6). -/
def Power.reset : Power where
  state := .active
  changed := 0
  wakeCnt := 0
  supply := true
  boot := .running
  capw := 4200
  pkgw := 0
  throt := false
  overMs := 0
  islands := Vector.replicate 24 Island.reset
  idleSince := 0
  lowering := []
  toLull := false

/-- A port after reset (R452, R453). -/
def Port.reset : Port where
  en := true
  up := false
  width := 0
  retrains := 0
  peer := 0
  flitsTx := 0
  flitsRx := 0
  crcErr := 0
  replays := 0
  replayFlits := 0
  degrade := 0
  rerouted := 0
  replaying := false
  failures := 0
  retraining := false
  nextRx := 0
  nextTx := 0
  sent := []

/-- The configuration after reset: the tier registers' own resets (R408, log 6). -/
def DeviceConfig.reset : DeviceConfig :=
  { tierCtl := RegFile.fill 2 tierCtlReset, tierThr := RegFile.fill 2 tierThrReset, capw := 4200, portEn := BitVec.allOnes 18, operators := [] }

/-- No sample yet. -/
def Telemetry.reset : Telemetry where
  sampled := 0
  pkgw := 0
  capw := 4200
  throt := false
  clocks := []
  sensors := { volts := [], watts := [], junction := [], inlet := 0, outlet := 0, flow := 0 }
  ports := []
  gbe := []
  d2d := []
  errors := []
  ueEvents := []
  failedLanes := []
  retired := []
  refreshed := 0
  loftSpares := []
  loftRetired := []
  loftBands := []
  loftWorn := []
  ystat := []
  doneByCode := []
  secLog := []
  power := .active
  changed := 0

/-- The package after reset. -/
def Package.reset : Package where
  time := 0
  power := Power.reset
  yards := RegFile.fill 2 Yard.reset
  served := 0
  launches := []
  images := []
  heldRings := []
  peers := []
  failedCores := []
  gangGone := []
  l2 := []
  allocs := 0
  apertures := []
  tiers := RegFile.fill 2 TierEngine.reset
  security := Security.reset
  loft := Loft.reset
  ports := Vector.replicate 18 Port.reset
  gbe := RegFile.fill 3 { fecCorr := 0, fecUncorr := 0, framesTx := 0, framesRx := 0, drops := 0, retx := 0 }
  d2d := RegFile.fill 3 { retry := 0, laneRepair := 0, up := true }
  errors := RegFile.fill 4 { ce := 0, ue := 0, scrubCe := 0 }
  ueEvents := []
  scrubPos := 0
  farrier := { claimed := [], waiting := [], failedLanes := [], repairs := [], retired := [], weak := [], stuck := [], refreshed := 0 }
  config := DeviceConfig.reset
  telemetry := Telemetry.reset
  doneByCode := List.replicate 8 0
  hubReply := none
  replies := []
  latent := []
  bootTimer := 0
  shootdowns := []
  arrivals := []
  linkNum := []
  linkSeen := []

/-- The machine right after reset (R36, R46, R370, R408, R428, R452, R455; DESIGN CHOICE, log 6): TIME 0, no task, nothing in memory. -/
def State.reset : State where
  core := Core.reset
  pkg := Package.reset
  mem := []
  bad := []
  inputs := []
  turn := .seq .S
  cur := .S
  nextId := 0
  freeCtr := 0

end Sys2Proof.Machine
end

