-- ==== Sys2Proof/Machine/Memory.lean ====
section
/-! DEFINITION. Memory as data: lists of cells in rising key order without default entries, byte reads and writes, wide
little-endian accesses (R7), and moves of whole ranges. -/

namespace Sys2Proof.Machine

open Sys2Proof

/-! ## Cells -/

/-- The value at key `k`; `d` where the list has no entry. -/
def cellGet {α : Type} (d : α) (l : List (Nat × α)) (k : Nat) : α :=
  match l with
  | [] => d
  | (j, v) :: t => if j = k then v else if k < j then d else cellGet d t k

/-- The list after writing `v` at `k`; an entry equal to the default `d` is not kept. -/
def cellPut {α : Type} [DecidableEq α] (d : α) (l : List (Nat × α)) (k : Nat) (v : α) : List (Nat × α) :=
  match l with
  | [] => if v = d then [] else [(k, v)]
  | (j, w) :: t =>
    if j = k then (if v = d then t else (k, v) :: t)
    else if k < j then (if v = d then (j, w) :: t else (k, v) :: (j, w) :: t)
    else (j, w) :: cellPut d t k v

/-- The canonical form: keys strictly rising, no entry equal to the default. -/
def cellsWf {α : Type} [DecidableEq α] (d : α) : List (Nat × α) → Bool
  | [] => true
  | [(_, v)] => !decide (v = d)
  | (j, v) :: (k, w) :: t => !decide (v = d) && decide (j < k) && cellsWf d ((k, w) :: t)

/-- Every entry whose key the test accepts is dropped. -/
def cellDrop {α : Type} (p : Nat → Bool) (l : List (Nat × α)) : List (Nat × α) := l.filter (fun c => !p c.1)

/-- The entries of `src` to `src + len - 1`, at `dst` onwards. -/
def cellShift {α : Type} (l : List (Nat × α)) (src dst len : Nat) : List (Nat × α) :=
  (l.filter (fun c => decide (src ≤ c.1) && decide (c.1 < src + len))).map (fun c => (c.1 - src + dst, c.2))

/-- All cells of `n` written into `l`. -/
def cellPutAll {α : Type} [DecidableEq α] (d : α) (l : List (Nat × α)) : List (Nat × α) → List (Nat × α)
  | [] => l
  | (k, v) :: t => cellPutAll d (cellPut d l k v) t

/-- A range of `len` keys cleared to the default. -/
def cellClear {α : Type} (l : List (Nat × α)) (base len : Nat) : List (Nat × α) :=
  cellDrop (fun k => decide (base ≤ k) && decide (k < base + len)) l

/-- The range at `src` copied over the range at `dst`. -/
def cellCopy {α : Type} [DecidableEq α] (d : α) (l : List (Nat × α)) (src dst len : Nat) : List (Nat × α) :=
  cellPutAll d (cellClear l dst len) (cellShift l src dst len)

/-! ## Keys -/

/-- The key of byte `a` of the core's own scratchpad window (R47, R53). -/
def ownKey (a : Nat) : Nat := 2 ^ 60 + a

/-- The key of loft byte `a` (R47). -/
def loftKey (a : Nat) : Nat := 2 ^ 61 + a

/-! ## Memory -/

/-- The key of byte `off` of the 1 TiB window at `rbase` of another device (R393). -/
def remoteKey (device : BitVec 22) (rbase : BitVec 12) (off : Nat) : Nat := 2 ^ 80 + device.toNat * 2 ^ 52 + rbase.toNat * 2 ^ 40 + off

/-- A key of the loft. -/
def isLoft (k : Nat) : Bool := decide (2 ^ 61 ≤ k) && decide (k < 2 ^ 80)

/-- What an unlisted byte reads as (DESIGN CHOICE, log 5). -/
def memDefault : Byte := 0

/-- One byte. -/
def memGet (m : List Host.Cell) (k : Nat) : Byte := cellGet memDefault m k

/-- Memory after one byte is written. -/
def memPut (m : List Host.Cell) (k : Nat) (b : Byte) : List Host.Cell := cellPut memDefault m k b

/-- The canonical form of memory. -/
def Memory.wf (m : List Host.Cell) : Bool := cellsWf memDefault m

/-- The value of `n` bytes from key `k`, little-endian (R7). -/
def memRead (m : List Host.Cell) (k : Nat) : Nat → Nat
  | 0 => 0
  | n + 1 => (memGet m k).toNat + 256 * memRead m (k + 1) n

/-- Memory after the low `n` bytes of `v` are written from key `k`, little-endian (R7). -/
def memWrite (m : List Host.Cell) (k : Nat) : Nat → Nat → List Host.Cell
  | 0, _ => m
  | n + 1, v => memWrite (memPut m k (BitVec.ofNat 8 v)) (k + 1) n (v / 256)

/-- A 64-bit word at key `k`. -/
def memWord (m : List Host.Cell) (k : Nat) : Word64 := BitVec.ofNat 64 (memRead m k 8)

/-- The words of `n` consecutive 8-byte words from key `k`. -/
def memWords (m : List Host.Cell) (k : Nat) : Nat → List Word64
  | 0 => []
  | n + 1 => memWord m k :: memWords m (k + 8) n

/-- Memory after the words are written from key `k`. -/
def memPutWords (m : List Host.Cell) (k : Nat) : List Word64 → List Host.Cell
  | [] => m
  | w :: t => memPutWords (memWrite m k 8 w.toNat) (k + 8) t

/-- The bytes of words from key `k` as cells, zero bytes left out. -/
def wordCells (k : Nat) : List Word64 → List Host.Cell
  | [] => []
  | w :: t => (((List.range 8).map (fun i => (k + i, BitVec.ofNat 8 (w.toNat / 2 ^ (8 * i))))).filter (fun c => !decide (c.2 = memDefault))) ++
      wordCells (k + 8) t

/-- Memory after a long run of words is written from key `k` at once. -/
def memPutRange (m : List Host.Cell) (k : Nat) (ws : List Word64) : List Host.Cell :=
  m.takeWhile (fun c => decide (c.1 < k)) ++ wordCells k ws ++ m.dropWhile (fun c => decide (c.1 < k + 8 * ws.length))

/-! ## Units that fail correction (R226, R458) -/

/-- The bytes of a unit that fails with a cause: the 128-byte line under a protected world's tag (INTEGRITY), else the aligned word
(R436, R458). -/
def unitSize (cause : BitVec 8) : Nat := if cause = 0x12 then 128 else 8

/-- The cause with which a read of the `n` bytes from key `k` fails, if it does. -/
def badAt (bad : List (Nat × BitVec 8)) (k n : Nat) : Option (BitVec 8) :=
  (bad.find? (fun u => decide (u.1 < k + n) && decide (k < u.1 + unitSize u.2))).map Prod.snd

/-- The failing units after a write of `n` bytes from `k`: a unit that the write covers whole reads clean again. -/
def badAfterWrite (bad : List (Nat × BitVec 8)) (k n : Nat) : List (Nat × BitVec 8) :=
  bad.filter (fun u => !(decide (k ≤ u.1) && decide (u.1 + unitSize u.2 ≤ k + n)))

/-- Memory and failing units after a write of `n` bytes of value `v` at key `k` by one access. -/
def State.store (s : State) (k n v : Nat) : State :=
  { s with mem := memWrite s.mem k n v, bad := badAfterWrite s.bad k n }

/-- The value of `n` bytes at key `k`. -/
def State.load (s : State) (k n : Nat) : Nat := memRead s.mem k n

end Sys2Proof.Machine
end

