-- ==== Sys2Proof/Machine/Bits.lean ====
section
/-! DEFINITION. Bit fields, sign extension, lanes of wide values and byte order (R7, R11). -/

namespace Sys2Proof.Machine

open Sys2Proof

/-- Bits [lo + n - 1 : lo] of a natural number. -/
def bitsOf (v lo n : Nat) : Nat := v / 2 ^ lo % 2 ^ n

/-- Bit `i` of a natural number as a truth value. -/
def bitAt (v i : Nat) : Bool := v.testBit i

/-- The integer that the low `w` bits of `v` give in two's complement. -/
def toSigned (w v : Nat) : Int :=
  let u := v % 2 ^ w
  if u < 2 ^ (w - 1) then (u : Int) else (u : Int) - (2 ^ w : Nat)

/-- The low `w` bits of an integer. -/
def ofSigned (w : Nat) (i : Int) : Nat := (i % ((2 ^ w : Nat) : Int)).toNat

/-- SignExtend of R11: the low `w` bits of `v`, extended to 64 bits. -/
def sext64 (w v : Nat) : Word64 := BitVec.ofNat 64 (ofSigned 64 (toSigned w v))

/-- Pieces of `w` bits put together, the first lowest. -/
def packBits (w : Nat) : List Nat → Nat
  | [] => 0
  | a :: t => a % 2 ^ w + 2 ^ w * packBits w t

/-- The first `n` pieces of `w` bits of `v`, lowest first. -/
def pieces (w : Nat) (v : Nat) : Nat → List Nat
  | 0 => []
  | n + 1 => v % 2 ^ w :: pieces w (v / 2 ^ w) n

/-- A value as `n` words of 64 bits. -/
def wordsOf (v n : Nat) : List Word64 := (pieces 64 v n).map (BitVec.ofNat 64)

/-- 32-bit lane `i` of an entry (R15). -/
def laneOf (e : Entry) (i : Nat) : BitVec 32 := BitVec.ofNat 32 (e.toNat / 2 ^ (32 * i))

/-- The entry with the given lanes, lane 0 first. -/
def entryOfLanes (l : List (BitVec 32)) : Entry := BitVec.ofNat 2048 (packBits 32 (l.map BitVec.toNat))

/-- Each bit of `m` widened to `w` equal bits, for the first `n` bits. -/
def widen (w : Nat) (m : Nat) : Nat → Nat
  | 0 => 0
  | n + 1 => (if m % 2 = 1 then 2 ^ w - 1 else 0) + 2 ^ w * widen w (m / 2) n

/-- The entry that takes the lanes of `new` where the mask has a 1 and those of `old` elsewhere (R260). -/
def mergeLanes (old new : Entry) (lanes : BitVec 64) : Entry :=
  let k := BitVec.ofNat 2048 (widen 32 lanes.toNat 64)
  (old &&& ~~~k) ||| (new &&& k)

/-- All lanes. -/
def allLanes : BitVec 64 := BitVec.allOnes 64

/-- The index of the first element that the test accepts, counted from `k`. -/
def findFrom {α : Type} (p : α → Bool) (k : Nat) : List α → Option Nat
  | [] => none
  | a :: t => if p a then some k else findFrom p (k + 1) t

/-- A list with its first element that the test accepts changed. -/
def updFirst {α : Type} (p : α → Bool) (f : α → α) : List α → List α
  | [] => []
  | a :: t => if p a then f a :: t else a :: updFirst p f t

/-- A stable insertion by a key. -/
def insertBy {α : Type} (key : α → Nat) (a : α) : List α → List α
  | [] => [a]
  | b :: t => if key a < key b then a :: b :: t else b :: insertBy key a t

/-- A stable sort by a key. -/
def sortBy {α : Type} (key : α → Nat) (l : List α) : List α := l.foldl (fun acc a => insertBy key a acc) []

/-- Number of elements that the test accepts. -/
def countOf {α : Type} (p : α → Bool) (l : List α) : Nat := (l.filter p).length

/-- The element of an association list. -/
def assoc {α β : Type} [DecidableEq α] (l : List (α × β)) (a : α) : Option β := (l.find? (fun p => decide (p.1 = a))).map Prod.snd

/-- An association list without a key. -/
def assocDrop {α β : Type} [DecidableEq α] (l : List (α × β)) (a : α) : List (α × β) := l.filter (fun p => !decide (p.1 = a))

/-- An association list with a key set. -/
def assocPut {α β : Type} [DecidableEq α] (l : List (α × β)) (a : α) (b : β) : List (α × β) := (a, b) :: assocDrop l a

end Sys2Proof.Machine
end

