-- ==== Sys2Proof/Machine/Operands.lean ====
section
/-! DEFINITION. What an instruction names: its token clause (R19), its words, and the destinations and sources that the
scoreboard of R205 watches. -/

namespace Sys2Proof.Machine

open Sys2Proof

/-- A place that R205 and R321 cover: the kinds x, f, bt, v, m, km, acc, the result queue as a whole, the scout score buffer,
the mask program slots and the template slots (R282). -/
inductive Loc where
  | x (r : BitVec 4)
  | flag (r : BitVec 3)
  | bt (r : BitVec 2)
  | v (r : BitVec 4)
  | t
  | m (r : BitVec 3)
  | km (r : BitVec 2)
  | acc (r : BitVec 2)
  | scout
  | mask (r : BitVec 2)
  | tpl (r : BitVec 6)
  deriving DecidableEq, Repr

/-- The place that a write goes to, where the scoreboard covers it. -/
def writeLoc : Write → Option Loc
  | .x r _ _ => some (.x r)
  | .flag r _ => some (.flag r)
  | .bt r _ => some (.bt r)
  | .lc _ _ => none
  | .v r _ _ => some (.v r)
  | .t _ => some .t
  | .o _ _ _ => none
  | .q _ _ => none
  | .fill _ _ _ => none
  | .m r _ _ => some (.m r)
  | .km r _ => some (.km r)
  | .acc r _ => some (.acc r)
  | .fflags _ => none
  | .scout _ => some .scout
  | .mask r _ => some (.mask r)
  | .tpl r _ _ => some (.tpl r)
  | .acct _ _ => none

/-- The register of a second operand (R169). -/
def srcLocs : Src → List Loc
  | .reg b => [.x b]
  | .lit32 _ => []
  | .lit64 _ => []

/-- The place an operand code names (R185). -/
def codeLocs (c : BitVec 8) : List Loc :=
  let n := c.toNat
  if n < 0x10 then [.v (BitVec.ofNat 4 n)]
  else if n < 0x20 then [.t]
  else if 0x34 ≤ n ∧ n < 0x38 then [.acc (BitVec.ofNat 2 n)]
  else if 0x40 ≤ n ∧ n < 0x48 then [.m (BitVec.ofNat 3 n)]
  else if 0x48 ≤ n ∧ n < 0x4C then [.km (BitVec.ofNat 2 n)]
  else []

/-- Consecutive v registers from an operand code (R299). -/
def rangeLocs (c : BitVec 8) (n : Nat) : List Loc :=
  if c.toNat < 0x10 then (upTo n).map (fun i => .v (BitVec.ofNat 4 (c.toNat + i))) else codeLocs c

/-- The entries of a band of eight rows at `t` (R298): w/8, and one for .e2m1. -/
def bandEntries (t : BitVec 4) : Nat :=
  match t.toNat with
  | 0 => 1 | 1 => 2 | 2 => 4 | 4 => 1 | 5 => 2 | 6 => 4 | 8 => 4 | 9 => 2 | 10 => 2 | 11 => 1 | 12 => 1 | 13 => 1 | _ => 8

/-- The destinations of a template (R185, R299). -/
def tplDstLocs (t : Template) : List Loc :=
  if t.kind = 0x85 then rangeLocs t.dst (bandEntries t.dtype)
  else if t.kind = 0xC0 then [.scout]
  else if t.kind = 0xC1 ∧ t.dst = 0xFF then [.scout]
  else codeLocs t.dst

/-- The places a template names: its operands, lane mask, keep-mask and stamp register (R182, R185, R294), the v registers of query
tags, keep-mask and mask slot of a SCOUT (R308), and the source registers of an MLD (R299). A push to t waits for no other (R205). -/
def tplLocs (t : Template) : List Loc :=
  (if t.kind = 0x86 then rangeLocs t.src1 (bandEntries t.stype1) else []) ++
    (if t.kind = 0xC0 then
      [.v (t.base.extractLsb 3 0), .v (t.base.extractLsb 3 0 + 1), .km (t.base.extractLsb 7 6), .mask (t.base.extractLsb 5 4)]
     else if t.kind = 0xC1 then [.scout] else []) ++
    (tplDstLocs t).filter (fun l => decide (l ≠ .t)) ++ codeLocs t.src1 ++ codeLocs t.src2 ++ codeLocs t.src3 ++
    (if t.stampmode = 1 then [.x t.stampreg] else []) ++
    (if t.lmsel.getLsbD 3 then [.m (t.lmsel.truncate 3)] else []) ++
    (if t.kmsel.getLsbD 3 then [.km (t.kmsel.truncate 2)] else [])

/-- The token clause of an instruction (R19); none for the instructions and events that carry none. -/
def instrTokens : Instr → Option (BitVec 2 × BitVec 2)
  | .nop k => some (k.tk, k.peer)
  | .trap k _ => some (k.tk, k.peer)
  | .brk k => some (k.tk, k.peer)
  | .exit k _ => some (k.tk, k.peer)
  | .swap k => some (k.tk, k.peer)
  | .yield k => some (k.tk, k.peer)
  | .waitt k _ _ => some (k.tk, k.peer)
  | .splitw k _ => some (k.tk, k.peer)
  | .cflush k _ => some (k.tk, k.peer)
  | .cinv k _ => some (k.tk, k.peer)
  | .cwb k _ => some (k.tk, k.peer)
  | .spin k _ _ => some (k.tk, k.peer)
  | .spun k _ _ => some (k.tk, k.peer)
  | .hint k _ _ => some (k.tk, k.peer)
  | .qx k _ _ _ => some (k.tk, k.peer)
  | .add k _ _ _ => some (k.tk, k.peer)
  | .sub k _ _ _ => some (k.tk, k.peer)
  | .and k _ _ _ => some (k.tk, k.peer)
  | .or k _ _ _ => some (k.tk, k.peer)
  | .xor k _ _ _ => some (k.tk, k.peer)
  | .andn k _ _ _ => some (k.tk, k.peer)
  | .sll k _ _ _ => some (k.tk, k.peer)
  | .srl k _ _ _ => some (k.tk, k.peer)
  | .sra k _ _ _ => some (k.tk, k.peer)
  | .rol k _ _ _ => some (k.tk, k.peer)
  | .mul k _ _ _ => some (k.tk, k.peer)
  | .mulh k _ _ _ => some (k.tk, k.peer)
  | .mulhu k _ _ _ => some (k.tk, k.peer)
  | .div k _ _ _ => some (k.tk, k.peer)
  | .divu k _ _ _ => some (k.tk, k.peer)
  | .rem k _ _ _ => some (k.tk, k.peer)
  | .remu k _ _ _ => some (k.tk, k.peer)
  | .min k _ _ _ => some (k.tk, k.peer)
  | .max k _ _ _ => some (k.tk, k.peer)
  | .minu k _ _ _ => some (k.tk, k.peer)
  | .maxu k _ _ _ => some (k.tk, k.peer)
  | .clz k _ _ => some (k.tk, k.peer)
  | .ctz k _ _ => some (k.tk, k.peer)
  | .popc k _ _ => some (k.tk, k.peer)
  | .sextb k _ _ => some (k.tk, k.peer)
  | .sexth k _ _ => some (k.tk, k.peer)
  | .sextw k _ _ => some (k.tk, k.peer)
  | .zextw k _ _ => some (k.tk, k.peer)
  | .addsh1 k _ _ _ => some (k.tk, k.peer)
  | .addsh2 k _ _ _ => some (k.tk, k.peer)
  | .addsh3 k _ _ _ => some (k.tk, k.peer)
  | .addsh4 k _ _ _ => some (k.tk, k.peer)
  | .bext k _ _ _ => some (k.tk, k.peer)
  | .bins k _ _ _ => some (k.tk, k.peer)
  | .addw k _ _ _ => some (k.tk, k.peer)
  | .addi k _ _ _ => some (k.tk, k.peer)
  | .andi k _ _ _ => some (k.tk, k.peer)
  | .ori k _ _ _ => some (k.tk, k.peer)
  | .xori k _ _ _ => some (k.tk, k.peer)
  | .slli k _ _ _ => some (k.tk, k.peer)
  | .srli k _ _ _ => some (k.tk, k.peer)
  | .srai k _ _ _ => some (k.tk, k.peer)
  | .muli k _ _ _ => some (k.tk, k.peer)
  | .cmp k _ _ _ _ => some (k.tk, k.peer)
  | .cmpi k _ _ _ _ => some (k.tk, k.peer)
  | .sel k _ _ _ _ => some (k.tk, k.peer)
  | .flagAnd k _ _ _ => some (k.tk, k.peer)
  | .flagOr k _ _ _ => some (k.tk, k.peer)
  | .flagXor k _ _ _ => some (k.tk, k.peer)
  | .flagNot k _ _ => some (k.tk, k.peer)
  | .flagMov k _ _ => some (k.tk, k.peer)
  | .flagSet k _ => some (k.tk, k.peer)
  | .flagClr k _ => some (k.tk, k.peer)
  | .flagRead k _ => some (k.tk, k.peer)
  | .vany k _ _ => some (k.tk, k.peer)
  | .vall k _ _ => some (k.tk, k.peer)
  | .vnone k _ _ => some (k.tk, k.peer)
  | .pbtDisp k _ _ => some (k.tk, k.peer)
  | .pbtReg k _ _ => some (k.tk, k.peer)
  | .brtAlways k _ _ _ => some (k.tk, k.peer)
  | .brtCond k _ _ _ _ _ => some (k.tk, k.peer)
  | .loop k _ _ _ => some (k.tk, k.peer)
  | .rdsr k _ _ => some (k.tk, k.peer)
  | .wrsr k _ _ => some (k.tk, k.peer)
  | .fence k _ _ _ => some (k.tk, k.peer)
  | .fencex k _ _ _ => some (k.tk, k.peer)
  | .ld k _ _ _ _ _ _ _ _ _ => some (k.tk, k.peer)
  | .st k _ _ _ _ _ _ _ _ => some (k.tk, k.peer)
  | .ldx k _ _ _ _ _ _ _ _ => some (k.tk, k.peer)
  | .stx k _ _ _ _ _ _ _ _ => some (k.tk, k.peer)
  | .amo k _ _ _ _ _ _ _ _ _ _ => some (k.tk, k.peer)
  | .waitm k _ _ _ _ _ _ _ _ => some (k.tk, k.peer)
  | .sdef k _ _ => some (k.tk, k.peer)
  | .sset k _ _ _ => some (k.tk, k.peer)
  | .sget k _ _ _ => some (k.tk, k.peer)
  | .sld k _ _ => some (k.tk, k.peer)
  | .sldn k _ _ _ => some (k.tk, k.peer)
  | .sst k _ _ => some (k.tk, k.peer)
  | .sstn k _ _ _ => some (k.tk, k.peer)
  | .sadv k _ _ => some (k.tk, k.peer)
  | .srst k _ => some (k.tk, k.peer)
  | .spos k _ _ => some (k.tk, k.peer)
  | .cpy k _ => some (k.tk, k.peer)
  | .cpys k _ => some (k.tk, k.peer)
  | .gath k _ => some (k.tk, k.peer)
  | .scat k _ => some (k.tk, k.peer)
  | .cpyq k _ _ => some (k.tk, k.peer)
  | .cpyf k _ => some (k.tk, k.peer)
  | .rinit k _ _ _ => some (k.tk, k.peer)
  | .rclaim k _ _ _ => some (k.tk, k.peer)
  | .rwfree k _ _ _ => some (k.tk, k.peer)
  | .rpub k _ _ _ => some (k.tk, k.peer)
  | .rwfill k _ _ _ => some (k.tk, k.peer)
  | .rtake k _ _ _ => some (k.tk, k.peer)
  | .rrel k _ _ _ => some (k.tk, k.peer)
  | .rstat k _ _ => some (k.tk, k.peer)
  | .binit k _ _ => some (k.tk, k.peer)
  | .barv k _ _ => some (k.tk, k.peer)
  | .bard k _ _ => some (k.tk, k.peer)
  | .bexp k _ _ => some (k.tk, k.peer)
  | .bwait k _ _ _ => some (k.tk, k.peer)
  | .btest k _ _ _ => some (k.tk, k.peer)
  | .binv k _ => some (k.tk, k.peer)
  | .tld k _ _ _ => some (k.tk, k.peer)
  | .tset k _ _ => some (k.tk, k.peer)
  | .tget k _ _ => some (k.tk, k.peer)
  | .tclr k _ => some (k.tk, k.peer)
  | .mkld k _ _ _ => some (k.tk, k.peer)
  | .mkev k _ _ => some (k.tk, k.peer)
  | .mkel k _ _ _ => some (k.tk, k.peer)
  | .mkct k _ _ _ _ => some (k.tk, k.peer)
  | .thr k _ _ _ => some (k.tk, k.peer)
  | .kmop k _ _ _ => some (k.tk, k.peer)
  | .kmioIn k _ _ _ _ => some (k.tk, k.peer)
  | .kmioOut k _ _ => some (k.tk, k.peer)
  | .attq k _ _ => some (k.tk, k.peer)
  | .attw k _ _ => some (k.tk, k.peer)
  | .acct k _ _ => some (k.tk, k.peer)
  | .acctz k _ => some (k.tk, k.peer)
  | .vmov i => some (i.patch.extractLsb 23 22, i.tpl.peer)
  | .vadd i => some (i.patch.extractLsb 23 22, i.tpl.peer)
  | .vsub i => some (i.patch.extractLsb 23 22, i.tpl.peer)
  | .vmul i => some (i.patch.extractLsb 23 22, i.tpl.peer)
  | .vfma i => some (i.patch.extractLsb 23 22, i.tpl.peer)
  | .vfms i => some (i.patch.extractLsb 23 22, i.tpl.peer)
  | .vfnma i => some (i.patch.extractLsb 23 22, i.tpl.peer)
  | .vmin i => some (i.patch.extractLsb 23 22, i.tpl.peer)
  | .vmax i => some (i.patch.extractLsb 23 22, i.tpl.peer)
  | .vabs i => some (i.patch.extractLsb 23 22, i.tpl.peer)
  | .vneg i => some (i.patch.extractLsb 23 22, i.tpl.peer)
  | .vcmp i => some (i.patch.extractLsb 23 22, i.tpl.peer)
  | .vsel i => some (i.patch.extractLsb 23 22, i.tpl.peer)
  | .vand i => some (i.patch.extractLsb 23 22, i.tpl.peer)
  | .vor i => some (i.patch.extractLsb 23 22, i.tpl.peer)
  | .vxor i => some (i.patch.extractLsb 23 22, i.tpl.peer)
  | .vnot i => some (i.patch.extractLsb 23 22, i.tpl.peer)
  | .vshl i => some (i.patch.extractLsb 23 22, i.tpl.peer)
  | .vshr i => some (i.patch.extractLsb 23 22, i.tpl.peer)
  | .vsra i => some (i.patch.extractLsb 23 22, i.tpl.peer)
  | .vcvt i => some (i.patch.extractLsb 23 22, i.tpl.peer)
  | .vqnt i => some (i.patch.extractLsb 23 22, i.tpl.peer)
  | .vdqnt i => some (i.patch.extractLsb 23 22, i.tpl.peer)
  | .vexp2 i => some (i.patch.extractLsb 23 22, i.tpl.peer)
  | .vlog2 i => some (i.patch.extractLsb 23 22, i.tpl.peer)
  | .vrcp i => some (i.patch.extractLsb 23 22, i.tpl.peer)
  | .vrsq i => some (i.patch.extractLsb 23 22, i.tpl.peer)
  | .vsqrt i => some (i.patch.extractLsb 23 22, i.tpl.peer)
  | .vrope i => some (i.patch.extractLsb 23 22, i.tpl.peer)
  | .vred i => some (i.patch.extractLsb 23 22, i.tpl.peer)
  | .vscan i => some (i.patch.extractLsb 23 22, i.tpl.peer)
  | .vperm i => some (i.patch.extractLsb 23 22, i.tpl.peer)
  | .vbcast i => some (i.patch.extractLsb 23 22, i.tpl.peer)
  | .vsplat i => some (i.patch.extractLsb 23 22, i.tpl.peer)
  | .viota i => some (i.patch.extractLsb 23 22, i.tpl.peer)
  | .vpopc i => some (i.patch.extractLsb 23 22, i.tpl.peer)
  | .vmlog i => some (i.patch.extractLsb 23 22, i.tpl.peer)
  | .vsmx i => some (i.patch.extractLsb 23 22, i.tpl.peer)
  | .vmrg i => some (i.patch.extractLsb 23 22, i.tpl.peer)
  | .vmadd i => some (i.patch.extractLsb 23 22, i.tpl.peer)
  | .vmsub i => some (i.patch.extractLsb 23 22, i.tpl.peer)
  | .vmmul i => some (i.patch.extractLsb 23 22, i.tpl.peer)
  | .vntt i => some (i.patch.extractLsb 23 22, i.tpl.peer)
  | .vintt i => some (i.patch.extractLsb 23 22, i.tpl.peer)
  | .vmred i => some (i.patch.extractLsb 23 22, i.tpl.peer)
  | .vclamp i => some (i.patch.extractLsb 23 22, i.tpl.peer)
  | .vpack i => some (i.patch.extractLsb 23 22, i.tpl.peer)
  | .vunpk i => some (i.patch.extractLsb 23 22, i.tpl.peer)
  | .vdot4 i => some (i.patch.extractLsb 23 22, i.tpl.peer)
  | .mma i => some (i.patch.extractLsb 23 22, i.tpl.peer)
  | .mmax i => some (i.patch.extractLsb 23 22, i.tpl.peer)
  | .mmb i => some (i.patch.extractLsb 23 22, i.tpl.peer)
  | .mmod i => some (i.patch.extractLsb 23 22, i.tpl.peer)
  | .mzero i => some (i.patch.extractLsb 23 22, i.tpl.peer)
  | .mst i => some (i.patch.extractLsb 23 22, i.tpl.peer)
  | .mld i => some (i.patch.extractLsb 23 22, i.tpl.peer)
  | .madda i => some (i.patch.extractLsb 23 22, i.tpl.peer)
  | .mtrn i => some (i.patch.extractLsb 23 22, i.tpl.peer)
  | .scout i => some (i.patch.extractLsb 23 22, i.tpl.peer)
  | .mscr i => some (i.patch.extractLsb 23 22, i.tpl.peer)
  | _ => none

/-- The places that an instruction of sequencer `q` reads or writes. -/
def instrLocs (q : SeqId) : Instr → List Loc
  | .exit _ a => [.x a]
  | .waitt _ d a => [.x d, .x a]
  | .twait _ d a b => [.x d, .x a, .x b]
  | .tcnt _ d => [.x d]
  | .splitw _ a => [.x a]
  | .cflush _ a => [.x a]
  | .cinv _ a => [.x a]
  | .cwb _ a => [.x a]
  | .spin _ _ a => [.x a]
  | .spun _ _ a => [.x a]
  | .hint _ _ a => [.x a]
  | .qx _ d _ _ => [.x d]
  | .add _ d a b => [.x d, .x a] ++ srcLocs b
  | .sub _ d a b => [.x d, .x a] ++ srcLocs b
  | .and _ d a b => [.x d, .x a] ++ srcLocs b
  | .or _ d a b => [.x d, .x a] ++ srcLocs b
  | .xor _ d a b => [.x d, .x a] ++ srcLocs b
  | .andn _ d a b => [.x d, .x a] ++ srcLocs b
  | .sll _ d a b => [.x d, .x a] ++ srcLocs b
  | .srl _ d a b => [.x d, .x a] ++ srcLocs b
  | .sra _ d a b => [.x d, .x a] ++ srcLocs b
  | .rol _ d a b => [.x d, .x a] ++ srcLocs b
  | .mul _ d a b => [.x d, .x a] ++ srcLocs b
  | .mulh _ d a b => [.x d, .x a] ++ srcLocs b
  | .mulhu _ d a b => [.x d, .x a] ++ srcLocs b
  | .div _ d a b => [.x d, .x a] ++ srcLocs b
  | .divu _ d a b => [.x d, .x a] ++ srcLocs b
  | .rem _ d a b => [.x d, .x a] ++ srcLocs b
  | .remu _ d a b => [.x d, .x a] ++ srcLocs b
  | .min _ d a b => [.x d, .x a] ++ srcLocs b
  | .max _ d a b => [.x d, .x a] ++ srcLocs b
  | .minu _ d a b => [.x d, .x a] ++ srcLocs b
  | .maxu _ d a b => [.x d, .x a] ++ srcLocs b
  | .clz _ d a => [.x d, .x a]
  | .ctz _ d a => [.x d, .x a]
  | .popc _ d a => [.x d, .x a]
  | .sextb _ d a => [.x d, .x a]
  | .sexth _ d a => [.x d, .x a]
  | .sextw _ d a => [.x d, .x a]
  | .zextw _ d a => [.x d, .x a]
  | .addsh1 _ d a b => [.x d, .x a] ++ srcLocs b
  | .addsh2 _ d a b => [.x d, .x a] ++ srcLocs b
  | .addsh3 _ d a b => [.x d, .x a] ++ srcLocs b
  | .addsh4 _ d a b => [.x d, .x a] ++ srcLocs b
  | .bext _ d a b => [.x d, .x a] ++ srcLocs b
  | .bins _ d a b => [.x d, .x a] ++ srcLocs b
  | .addw _ d a b => [.x d, .x a] ++ srcLocs b
  | .addi _ d a _ => [.x d, .x a]
  | .andi _ d a _ => [.x d, .x a]
  | .ori _ d a _ => [.x d, .x a]
  | .xori _ d a _ => [.x d, .x a]
  | .slli _ d a _ => [.x d, .x a]
  | .srli _ d a _ => [.x d, .x a]
  | .srai _ d a _ => [.x d, .x a]
  | .muli _ d a _ => [.x d, .x a]
  | .cmp _ f a b _ => [.flag f, .x a] ++ srcLocs b
  | .cmpi _ f _ a _ => [.flag f, .x a]
  | .sel _ d a b f => [.x d, .x a, .x b, .flag f]
  | .flagAnd _ d a b => [.flag d, .flag a, .flag b]
  | .flagOr _ d a b => [.flag d, .flag a, .flag b]
  | .flagXor _ d a b => [.flag d, .flag a, .flag b]
  | .flagNot _ d a => [.flag d, .flag a]
  | .flagMov _ d a => [.flag d, .flag a]
  | .flagSet _ d => [.flag d]
  | .flagClr _ d => [.flag d]
  | .flagRead _ d => [.x d, .flag 0, .flag 1, .flag 2, .flag 3, .flag 4, .flag 5, .flag 6, .flag 7]
  | .vany _ d a => [.flag d] ++ (if q = .C then [.m (a.truncate 3)] else [.x a])
  | .vall _ d a => [.flag d] ++ (if q = .C then [.m (a.truncate 3)] else [.x a])
  | .vnone _ d a => [.flag d] ++ (if q = .C then [.m (a.truncate 3)] else [.x a])
  | .pbtDisp _ b _ => [.bt b]
  | .pbtReg _ b a => [.bt b, .x a]
  | .brtAlways _ b _ kk => [.bt b] ++ (if kk = 1 then [.x 15] else [])
  | .brtCond _ b f _ _ kk => [.bt b, .flag f] ++ (if kk = 1 then [.x 15] else [])
  | .loop _ _ a _ => [.x a]
  | .rdsr _ d _ => [.x d]
  | .wrsr _ a _ => [.x a]
  | .ld _ d a _ _ _ _ _ _ _ => [.x d, .x a]
  | .st _ d a _ _ _ _ _ _ => [.x d, .x a]
  | .ldx _ d a b _ _ _ _ _ => [.x d, .x a, .x b]
  | .stx _ d a b _ _ _ _ _ => [.x d, .x a, .x b]
  | .amo _ d a b _ _ _ _ _ c _ => [.x d, .x a, .x b, .x c]
  | .waitm _ d a b _ _ _ _ _ => [.x d, .x a, .x b]
  | .sdef _ _ a => [.x a]
  | .sset _ _ _ b => [] ++ srcLocs b
  | .sget _ d _ _ => [.x d]
  | .sldn _ _ _ b => [] ++ srcLocs b
  | .sstn _ d _ _ => [.x d]
  | .sadv _ _ b => [] ++ srcLocs b
  | .spos _ d _ => [.x d]
  | .cpy _ a => [.x a]
  | .cpys _ a => [.x a]
  | .gath _ a => [.x a]
  | .scat _ a => [.x a]
  | .cpyq _ a _ => [.x a]
  | .cpyf _ a => [.x a]
  | .rinit _ d a b => [.x d, .x a] ++ srcLocs b
  | .rclaim _ d a b => [.x d, .x a] ++ srcLocs b
  | .rwfree _ d a b => [.x d, .x a] ++ srcLocs b
  | .rpub _ d a b => [.x d, .x a] ++ srcLocs b
  | .rwfill _ d a b => [.x d, .x a] ++ srcLocs b
  | .rtake _ d a b => [.x d, .x a] ++ srcLocs b
  | .rrel _ d a b => [.x d, .x a] ++ srcLocs b
  | .rstat _ d a => [.x d, .x a]
  | .binit _ a b => [.x a] ++ srcLocs b
  | .barv _ a b => [.x a] ++ srcLocs b
  | .bard _ a b => [.x a] ++ srcLocs b
  | .bexp _ a b => [.x a] ++ srcLocs b
  | .bwait _ d a b => [.x d, .x a] ++ srcLocs b
  | .btest _ d a b => [.x d, .x a] ++ srcLocs b
  | .binv _ a => [.x a]
  | .tld _ a _ _ => [.x a]
  | .tset _ a b => [.x a] ++ srcLocs b
  | .tget _ d a => [.x d, .x a]
  | .tclr _ a => [.x a]
  | .mkld _ n a b => [.mask n, .x a] ++ srcLocs b
  | .mkev _ _ a => [.x a]
  | .mkel _ d kk b => [.m d, .v kk] ++ srcLocs b
  | .mkct _ d _ a b => [.x d, .km a] ++ srcLocs b
  | .thr _ d a b => [.km d, .km a, .scout] ++ srcLocs b
  | .kmop _ d a b => [.km d, .km a] ++ srcLocs b
  | .kmioIn _ _ kk _ _ => [.km kk]
  | .kmioOut _ _ kk => [.km kk]
  | .attq _ d a => [.x d, .x a]
  | .attw _ d a => [.x d, .x a]
  | .acct _ a b => [.x a] ++ srcLocs b
  | .acctz _ b => [] ++ srcLocs b
  | .vmov i => .tpl (i.patch.extractLsb 29 24) :: tplLocs i.tpl
  | .vadd i => .tpl (i.patch.extractLsb 29 24) :: tplLocs i.tpl
  | .vsub i => .tpl (i.patch.extractLsb 29 24) :: tplLocs i.tpl
  | .vmul i => .tpl (i.patch.extractLsb 29 24) :: tplLocs i.tpl
  | .vfma i => .tpl (i.patch.extractLsb 29 24) :: tplLocs i.tpl
  | .vfms i => .tpl (i.patch.extractLsb 29 24) :: tplLocs i.tpl
  | .vfnma i => .tpl (i.patch.extractLsb 29 24) :: tplLocs i.tpl
  | .vmin i => .tpl (i.patch.extractLsb 29 24) :: tplLocs i.tpl
  | .vmax i => .tpl (i.patch.extractLsb 29 24) :: tplLocs i.tpl
  | .vabs i => .tpl (i.patch.extractLsb 29 24) :: tplLocs i.tpl
  | .vneg i => .tpl (i.patch.extractLsb 29 24) :: tplLocs i.tpl
  | .vcmp i => .tpl (i.patch.extractLsb 29 24) :: tplLocs i.tpl
  | .vsel i => .tpl (i.patch.extractLsb 29 24) :: tplLocs i.tpl
  | .vand i => .tpl (i.patch.extractLsb 29 24) :: tplLocs i.tpl
  | .vor i => .tpl (i.patch.extractLsb 29 24) :: tplLocs i.tpl
  | .vxor i => .tpl (i.patch.extractLsb 29 24) :: tplLocs i.tpl
  | .vnot i => .tpl (i.patch.extractLsb 29 24) :: tplLocs i.tpl
  | .vshl i => .tpl (i.patch.extractLsb 29 24) :: tplLocs i.tpl
  | .vshr i => .tpl (i.patch.extractLsb 29 24) :: tplLocs i.tpl
  | .vsra i => .tpl (i.patch.extractLsb 29 24) :: tplLocs i.tpl
  | .vcvt i => .tpl (i.patch.extractLsb 29 24) :: tplLocs i.tpl
  | .vqnt i => .tpl (i.patch.extractLsb 29 24) :: tplLocs i.tpl
  | .vdqnt i => .tpl (i.patch.extractLsb 29 24) :: tplLocs i.tpl
  | .vexp2 i => .tpl (i.patch.extractLsb 29 24) :: tplLocs i.tpl
  | .vlog2 i => .tpl (i.patch.extractLsb 29 24) :: tplLocs i.tpl
  | .vrcp i => .tpl (i.patch.extractLsb 29 24) :: tplLocs i.tpl
  | .vrsq i => .tpl (i.patch.extractLsb 29 24) :: tplLocs i.tpl
  | .vsqrt i => .tpl (i.patch.extractLsb 29 24) :: tplLocs i.tpl
  | .vrope i => .tpl (i.patch.extractLsb 29 24) :: tplLocs i.tpl
  | .vred i => .tpl (i.patch.extractLsb 29 24) :: tplLocs i.tpl
  | .vscan i => .tpl (i.patch.extractLsb 29 24) :: tplLocs i.tpl
  | .vperm i => .tpl (i.patch.extractLsb 29 24) :: tplLocs i.tpl
  | .vbcast i => .tpl (i.patch.extractLsb 29 24) :: tplLocs i.tpl
  | .vsplat i => .tpl (i.patch.extractLsb 29 24) :: tplLocs i.tpl
  | .viota i => .tpl (i.patch.extractLsb 29 24) :: tplLocs i.tpl
  | .vpopc i => .tpl (i.patch.extractLsb 29 24) :: tplLocs i.tpl
  | .vmlog i => .tpl (i.patch.extractLsb 29 24) :: tplLocs i.tpl
  | .vsmx i => .tpl (i.patch.extractLsb 29 24) :: tplLocs i.tpl
  | .vmrg i => .tpl (i.patch.extractLsb 29 24) :: tplLocs i.tpl
  | .vmadd i => .tpl (i.patch.extractLsb 29 24) :: tplLocs i.tpl
  | .vmsub i => .tpl (i.patch.extractLsb 29 24) :: tplLocs i.tpl
  | .vmmul i => .tpl (i.patch.extractLsb 29 24) :: tplLocs i.tpl
  | .vntt i => .tpl (i.patch.extractLsb 29 24) :: tplLocs i.tpl
  | .vintt i => .tpl (i.patch.extractLsb 29 24) :: tplLocs i.tpl
  | .vmred i => .tpl (i.patch.extractLsb 29 24) :: tplLocs i.tpl
  | .vclamp i => .tpl (i.patch.extractLsb 29 24) :: tplLocs i.tpl
  | .vpack i => .tpl (i.patch.extractLsb 29 24) :: tplLocs i.tpl
  | .vunpk i => .tpl (i.patch.extractLsb 29 24) :: tplLocs i.tpl
  | .vdot4 i => .tpl (i.patch.extractLsb 29 24) :: tplLocs i.tpl
  | .mma i => .tpl (i.patch.extractLsb 29 24) :: tplLocs i.tpl
  | .mmax i => .tpl (i.patch.extractLsb 29 24) :: tplLocs i.tpl
  | .mmb i => .tpl (i.patch.extractLsb 29 24) :: tplLocs i.tpl
  | .mmod i => .tpl (i.patch.extractLsb 29 24) :: tplLocs i.tpl
  | .mzero i => .tpl (i.patch.extractLsb 29 24) :: tplLocs i.tpl
  | .mst i => .tpl (i.patch.extractLsb 29 24) :: tplLocs i.tpl
  | .mld i => .tpl (i.patch.extractLsb 29 24) :: tplLocs i.tpl
  | .madda i => .tpl (i.patch.extractLsb 29 24) :: tplLocs i.tpl
  | .mtrn i => .tpl (i.patch.extractLsb 29 24) :: tplLocs i.tpl
  | .scout i => .tpl (i.patch.extractLsb 29 24) :: tplLocs i.tpl
  | .mscr i => .tpl (i.patch.extractLsb 29 24) :: tplLocs i.tpl
  | _ => []

/-- How many words the instruction holds (R166). -/
def instrWords (i : Instr) : Nat := (encode i).length

/-- Instructions that a delay slot must not hold (R208). -/
def noSlot : Instr → Bool
  | .brtAlways _ _ _ _ => true
  | .brtCond _ _ _ _ _ _ => true
  | .loop _ _ _ _ => true
  | .exit _ _ => true
  | .swap _ => true
  | .yield _ => true
  | .trap _ _ => true
  | .brk _ => true
  | .eret => true
  | _ => false

/-- Instructions that must not end the body of an active loop (R210). -/
def noEnd : Instr → Bool
  | .brtAlways _ _ _ _ => true
  | .brtCond _ _ _ _ _ _ => true
  | .loop _ _ _ _ => true
  | .exit _ _ => true
  | .swap _ => true
  | _ => false

/-- The record that a template kind's term carries. -/
def instrTemplate : Instr → Option TplIssue
  | .vmov i => some i
  | .vadd i => some i
  | .vsub i => some i
  | .vmul i => some i
  | .vfma i => some i
  | .vfms i => some i
  | .vfnma i => some i
  | .vmin i => some i
  | .vmax i => some i
  | .vabs i => some i
  | .vneg i => some i
  | .vcmp i => some i
  | .vsel i => some i
  | .vand i => some i
  | .vor i => some i
  | .vxor i => some i
  | .vnot i => some i
  | .vshl i => some i
  | .vshr i => some i
  | .vsra i => some i
  | .vcvt i => some i
  | .vqnt i => some i
  | .vdqnt i => some i
  | .vexp2 i => some i
  | .vlog2 i => some i
  | .vrcp i => some i
  | .vrsq i => some i
  | .vsqrt i => some i
  | .vrope i => some i
  | .vred i => some i
  | .vscan i => some i
  | .vperm i => some i
  | .vbcast i => some i
  | .vsplat i => some i
  | .viota i => some i
  | .vpopc i => some i
  | .vmlog i => some i
  | .vsmx i => some i
  | .vmrg i => some i
  | .vmadd i => some i
  | .vmsub i => some i
  | .vmmul i => some i
  | .vntt i => some i
  | .vintt i => some i
  | .vmred i => some i
  | .vclamp i => some i
  | .vpack i => some i
  | .vunpk i => some i
  | .vdot4 i => some i
  | .mma i => some i
  | .mmax i => some i
  | .mmb i => some i
  | .mmod i => some i
  | .mzero i => some i
  | .mst i => some i
  | .mld i => some i
  | .madda i => some i
  | .mtrn i => some i
  | .scout i => some i
  | .mscr i => some i
  | _ => none

/-- The places that a template reads as sources (R182, R185, R294, R308); the kinds that accumulate read their destination. -/
def tplReadLocs (t : Template) : List Loc :=
  codeLocs t.src1 ++ codeLocs t.src2 ++ codeLocs t.src3 ++
    (if t.kind = 0xC0 then [.km (t.base.extractLsb 7 6), .mask (t.base.extractLsb 5 4)] else if t.kind = 0xC1 then [.scout] else []) ++
    (if t.lmsel.getLsbD 3 then [.m (t.lmsel.truncate 3)] else []) ++
    (if t.kmsel.getLsbD 3 then [.km (t.kmsel.truncate 2)] else []) ++
    (if 0x80 ≤ t.kind.toNat ∧ t.kind.toNat ≤ 0x83 then codeLocs t.dst else [])

/-- The places other than x registers that an instruction of sequencer `q` reads as sources. -/
def readLocs (q : SeqId) (i : Instr) : List Loc :=
  match instrTemplate i with
  | some t => .tpl (t.patch.extractLsb 29 24) :: tplReadLocs t.tpl
  | none =>
    match i with
    | .sel _ _ _ _ f => [.flag f]
    | .flagAnd _ _ a b => [.flag a, .flag b]
    | .flagOr _ _ a b => [.flag a, .flag b]
    | .flagXor _ _ a b => [.flag a, .flag b]
    | .flagNot _ _ a => [.flag a]
    | .flagMov _ _ a => [.flag a]
    | .flagRead _ _ => [.flag 0, .flag 1, .flag 2, .flag 3, .flag 4, .flag 5, .flag 6, .flag 7]
    | .vany _ _ a => if q = .C then [.m (a.truncate 3)] else []
    | .vall _ _ a => if q = .C then [.m (a.truncate 3)] else []
    | .vnone _ _ a => if q = .C then [.m (a.truncate 3)] else []
    | .brtAlways _ b _ _ => [.bt b]
    | .brtCond _ b f _ _ _ => [.bt b, .flag f]
    | .mkct _ _ _ a _ => [.km a]
    | .thr _ _ a _ => [.km a, .scout]
    | .kmop _ _ a _ => [.km a]
    | .kmioOut _ _ kk => [.km kk]
    | _ => []

/-- The storage of a place, where it is none of the grains that hold poison of their own (R226, R458). -/
def storageOf (q : SeqId) : Loc → Option SoftWhere
  | .x _ => none
  | .v _ => none
  | .t => none
  | .flag r => some (.flag q r)
  | .bt r => some (.btReg q r)
  | .m r => some (.laneMask r)
  | .km r => some (.keepMask r)
  | .acc r => some (.accReg r)
  | .scout => some .scoutBuf
  | .mask r => some (.maskProg r)
  | .tpl r => some (.tplRec r)

/-- The storage that a write stores anew whole, with fresh check bits (R458). -/
def storageWritten (q : SeqId) : Write → Option SoftWhere
  | .flag r _ => some (.flag q r)
  | .bt r _ => some (.btReg q r)
  | .lc r _ => some (.lcReg q r)
  | .m r _ lanes => if lanes = BitVec.allOnes 64 then some (.laneMask r) else none
  | .km r _ => some (.keepMask r)
  | .acc r _ => some (.accReg r)
  | .mask r _ => some (.maskProg r)
  | .tpl r bits _ => if bits = BitVec.allOnes 256 then some (.tplRec r) else none
  | _ => none

end Sys2Proof.Machine
end

