-- ==== Sys2Proof/Machine/Ops.lean ====
section
/-! DEFINITION. The named operations every meaning shares: parts of the state, token FIFOs (R18 to R20), reads inside and
outside latency windows (R22, R23, R204), the scoreboard (R205), results and retirement, taking a fault (R222 to R229),
advancing a sequencer (R166, R207 to R210, R212) and the issue of an instruction (R20, R167, R222). -/

namespace Sys2Proof.Machine

open Sys2Proof

/-- The outcome type of a step. -/
abbrev Out := Host.Outcome State Fault Refusal

/-! ## Parts of the state -/

/-- The running task's state. -/
def State.task (s : State) : Task := s.core.task

/-- A step that took free values: the next ones are new (log 3). -/
def State.drawn (s : State) : State := { s with freeCtr := s.freeCtr + 1 }

/-- The state with the task's state replaced. -/
def State.withTask (s : State) (t : Task) : State := { s with core := { s.core with task := t } }

/-- A sequencer's state. -/
def State.seq (s : State) (q : SeqId) : SeqState := s.core.task.seqs.get q.num

/-- A task with a sequencer's state replaced. -/
def Task.withSeq (t : Task) (q : SeqId) (x : SeqState) : Task := { t with seqs := t.seqs.set q.num x }

/-- The state with a sequencer's state replaced. -/
def State.withSeq (s : State) (q : SeqId) (x : SeqState) : State := s.withTask (s.task.withSeq q x)

/-- The four sequencers in the order of R223. -/
def allSeqs : List SeqId := [.S, .L, .C, .W]

/-- The state with every sequencer's state changed. -/
def State.mapSeqs (s : State) (f : SeqState → SeqState) : State :=
  s.withTask { s.task with seqs := s.task.seqs.map f }

/-- The active plane (R34). -/
def State.plane (s : State) : Plane := s.core.planes.get s.core.task.active

/-- The state with the active plane replaced. -/
def State.withPlane (s : State) (p : Plane) : State :=
  { s with core := { s.core with planes := s.core.planes.set s.core.task.active p } }

/-- The package changed. -/
def State.withPkg (s : State) (p : Package) : State := { s with pkg := p }

/-- TIME (R36). -/
def State.time (s : State) : Word64 := s.pkg.time

/-- A fresh identifier. -/
def State.fresh (s : State) : State := { s with nextId := s.nextId + 1 }

/-! ## Causes (R228) -/

def causeIllegalInstr : BitVec 8 := 0x01
def causeIllegalTemplate : BitVec 8 := 0x02
def causeSeqIllegal : BitVec 8 := 0x03
def causeMisaligned : BitVec 8 := 0x04
def causeNotPresent : BitVec 8 := 0x05
def causePermission : BitVec 8 := 0x06
def causeWorld : BitVec 8 := 0x07
def causeScheduleMiss : BitVec 8 := 0x08
def causeHandleStale : BitVec 8 := 0x09
def causeCopyError : BitVec 8 := 0x0A
def causeMaskIllegal : BitVec 8 := 0x0B
def causeMaskLimit : BitVec 8 := 0x0C
def causeBarrierOverrun : BitVec 8 := 0x0D
def causeBarrierTimeout : BitVec 8 := 0x0E
def causeRingProtocol : BitVec 8 := 0x0F
def causeDataUncorrectable : BitVec 8 := 0x10
def causeLoftRead : BitVec 8 := 0x11
def causeIntegrity : BitVec 8 := 0x12
def causeTokenProtocol : BitVec 8 := 0x13
def causeStreamRange : BitVec 8 := 0x14
def causeEmulate : BitVec 8 := 0x15
def causeSoftwareTrap : BitVec 8 := 0x16
def causeBreakpoint : BitVec 8 := 0x17
def causeScratchRange : BitVec 8 := 0x18
def causeAttnError : BitVec 8 := 0x19
def causeQueueProtocol : BitVec 8 := 0x1A

/-- The causes with RECOV = 1 (R227). -/
def causeRecov (c : BitVec 8) : Bool :=
  c == causeNotPresent || c == causeEmulate || c == causeSoftwareTrap || c == causeBreakpoint

/-! ## Token FIFOs -/

/-- The number of the FIFO from one sequencer to another (R18). -/
def fifoNum (src dst : SeqId) : BitVec 4 := src.num ++ dst.num

/-- The sequencer that PEER names, or none for E (R19). -/
def peerOf (q : SeqId) (peer : BitVec 2) : Option SeqId :=
  match q, peer.toNat with
  | .S, 0 => some .L
  | .S, 1 => some .C
  | .S, 2 => some .W
  | .L, 0 => some .S
  | .L, 1 => some .C
  | .L, 2 => some .W
  | .C, 0 => some .S
  | .C, 1 => some .L
  | .C, 2 => some .W
  | .W, 0 => some .S
  | .W, 1 => some .L
  | .W, 2 => some .C
  | _, _ => none

/-- The depth of every FIFO (R18). -/
def fifoDepth : Nat := 32

/-- The FIFO that a pop of sequencer `q` with `peer` takes from. -/
def popFifo (t : Task) (q : SeqId) (peer : BitVec 2) : List Slot :=
  match peerOf q peer with
  | some p => t.fifos.get (fifoNum p q)
  | none => (t.seqs.get q.num).e

/-- A request whose token was in the slot `id` is idle once that token has been popped (R317). -/
def reqPopped (reqs : RegFile 3 Req) (id : Nat) : RegFile 3 Req :=
  reqs.map (fun r => if (r.state = .completed ∨ r.state = .failed) ∧ r.eslot = id then Req.idle else r)

/-- The value that a pop finds in the oldest slot: the 0 token of a request whose record an ATTW has delivered pops as 1
(R319). -/
def popValue (t : Task) (q : SeqId) (peer : BitVec 2) (hd : Slot) : Bool :=
  hd.val || ((peerOf q peer).isNone &&
    (t.seqs.get q.num).reqs.toList.any (fun r => decide (r.state = .failed) && r.delivered && r.eslot == hd.id))

/-- The task after the oldest slot of that FIFO is taken. -/
def dropToken (t : Task) (q : SeqId) (peer : BitVec 2) : Task :=
  match peerOf q peer with
  | some p => { t with fifos := t.fifos.set (fifoNum p q) (t.fifos.get (fifoNum p q)).tail }
  | none =>
    let sq := t.seqs.get q.num
    match sq.e with
    | [] => t
    | hd :: tl => t.withSeq q { sq with e := tl, reqs := reqPopped sq.reqs hd.id }

/-- A reserved slot (R20). -/
def Slot.reserved (id : Nat) : Slot := { id := id, filled := false, val := true, record := none }

/-- The FIFO with the slot `id` filled. -/
def fillSlot (l : List Slot) (id : Nat) (val : Bool) (r : Option FaultRec) : List Slot :=
  updFirst (fun x => x.id == id) (fun x => { x with filled := true, val := val, record := r }) l

/-- A push retires into its reserved slot with value 1 (R20). -/
def Task.fillPush (t : Task) : Option (BitVec 4 × Nat) → Task
  | some (n, id) => { t with fifos := t.fifos.set n (fillSlot (t.fifos.get n) id true none) }
  | none => t

/-- A push reservation given back (the instruction is to be issued again). -/
def Task.dropPush (t : Task) : Option (BitVec 4 × Nat) → Task
  | some (n, id) => { t with fifos := t.fifos.set n ((t.fifos.get n).filter (fun x => x.id != id)) }
  | none => t

/-- An engine's completion token enters its reserved E slot (R20, R93). -/
def Task.fillE (t : Task) (q : SeqId) (id : Nat) (val : Bool) (r : Option FaultRec) : Task :=
  let sq := t.seqs.get q.num
  t.withSeq q { sq with e := fillSlot sq.e id val r }

/-! ## Reads (R22, R23, R204) -/

/-- One of the values a read may return, by the free choice of R23 where there are several. -/
def State.choose {α : Type} (s : State) (tag : Nat) (d : α) : List α → α
  | [] => d
  | [a] => a
  | a :: b :: l => (a :: b :: l).getD (Config.pick s.freeCtr tag (l.length + 2) % (l.length + 2)) a

/-- The values a unit may read as: the value after every write whose bound has come, then those of writes still inside
their bounds. `get` gives the value of one write to the unit. -/
def candidates {α : Type} (pend : List Pending) (cycle : Nat) (base : α) (get : Write → Option α) : List α :=
  let settled := (pend.filter (fun p => decide (p.due ≤ cycle))).foldl
    (fun acc p => p.writes.foldl (fun acc w => (get w).getD acc) acc) base
  settled :: (pend.filter (fun p => decide (cycle < p.due))).flatMap (fun p => p.writes.filterMap get)

/-- An x register with its poison (R15, R226); x0 reads zero. -/
def State.readX (s : State) (q : SeqId) (r : BitVec 4) (tag : Nat) : Word64 × Option Poison :=
  if r = 0 then (0, none)
  else
    let sq := s.seq q
    s.choose tag (0, none) (candidates sq.pend s.core.cycle (sq.x.get r, sq.xPoison.get r)
      (fun w => match w with | .x r' v p => if r' = r then some (v, p) else none | _ => none))

/-- A flag. -/
def State.readF (s : State) (q : SeqId) (r : BitVec 3) (tag : Nat) : BitVec 1 :=
  let sq := s.seq q
  s.choose tag 0 (candidates sq.pend s.core.cycle (bitOf (sq.f.getLsbD r.toNat))
    (fun w => match w with | .flag r' v => if r' = r then some v else none | _ => none))

/-- A branch-target register. -/
def State.readBt (s : State) (q : SeqId) (r : BitVec 2) (tag : Nat) : Word64 :=
  let sq := s.seq q
  s.choose tag 0 (candidates sq.pend s.core.cycle (sq.bt.get r)
    (fun w => match w with | .bt r' v => if r' = r then some v else none | _ => none))

/-- A lane mask after one more write of it, of the lanes `k`. -/
def maskAfter (acc : BitVec 64) (w : BitVec 64 × BitVec 64) : BitVec 64 := (acc &&& ~~~w.2) ||| (w.1 &&& w.2)

/-- The values that a unit takes as writes of parts of it are made one after the other, the value before them first. -/
def takes {α β : Type} (f : α → β → α) (a : α) : List β → List α
  | [] => [a]
  | w :: t => a :: takes f (f a w) t

/-- A lane mask of C, as a whole: as it stands, or after any of the writes still inside their bounds, each made to what the ones that
retire before it leave. -/
def State.readM (s : State) (r : BitVec 3) (tag : Nat) : BitVec 64 :=
  let get := fun (p : Pending) => p.writes.filterMap (fun w => match w with | .m r' d k => if r' = r then some (d, k) else none | _ => none)
  let pend := sortBy Pending.due (s.seq .C).pend
  let settled := ((pend.filter (fun p => decide (p.due ≤ s.core.cycle))).flatMap get).foldl maskAfter (s.task.m.get r)
  s.choose tag 0 (takes maskAfter settled ((pend.filter (fun p => decide (s.core.cycle < p.due))).flatMap get))

/-- A keep-mask, all 512 bits old or all new. -/
def State.readKm (s : State) (r : BitVec 2) (tag : Nat) : BitVec 512 :=
  s.choose tag 0 (candidates (s.seq .C).pend s.core.cycle (s.task.km.get r)
    (fun w => match w with | .km r' v => if r' = r then some v else none | _ => none))

/-- An accumulator. -/
def State.readAcc (s : State) (r : BitVec 2) (tag : Nat) : BitVec 65536 :=
  s.choose tag 0 (candidates (s.seq .C).pend s.core.cycle (s.task.acc.get r)
    (fun w => match w with | .acc r' v => if r' = r then some v else none | _ => none))

/-- A choice made for each 32-bit lane (R23). -/
def State.chooseLanes (s : State) (tag : Nat) : List Entry → Entry
  | [] => 0
  | [a] => a
  | l => entryOfLanes ((upTo 64).map (fun i => s.choose (tag * 64 + i) 0 (l.map (fun e => laneOf e i))))

/-- A vector register, each 32-bit lane old or new. -/
def State.readV (s : State) (r : BitVec 4) (tag : Nat) : Entry :=
  let pend := (s.seq .C).pend
  let step := fun (acc : Entry) (w : Write) =>
    match w with | .v r' d lanes => if r' = r then mergeLanes acc d lanes else acc | _ => acc
  let settled := (pend.filter (fun p => decide (p.due ≤ s.core.cycle))).foldl (fun acc p => p.writes.foldl step acc)
    (s.task.v.get r)
  let late := (pend.filter (fun p => decide (s.core.cycle < p.due))).flatMap (fun p => p.writes.filterMap
    (fun w => match w with | .v r' d lanes => if r' = r then some (mergeLanes settled d lanes) else none | _ => none))
  s.chooseLanes tag (settled :: late)

/-- The result queue with one more entry at the front (R15). -/
def pushT (t : RegFile 4 Entry) (e : Entry) : RegFile 4 Entry :=
  Vector.ofFn (fun i => if i.val = 0 then e else t.get (BitVec.ofNat 4 (i.val - 1)))

/-- The pushes into the result queue that the test accepts, in the order of their retire cycles. -/
def tPushes (pend : List Pending) (p : Pending → Bool) : List Entry :=
  (sortBy Pending.due (pend.filter p)).flatMap (fun e => e.writes.filterMap (fun w => match w with | .t d => some d | _ => none))

/-- A result-queue entry by age among the pushes retired before this cycle (R260). -/
def State.readT (s : State) (r : BitVec 4) : Entry :=
  ((tPushes (s.seq .C).pend (fun p => decide (p.due < s.core.cycle))).foldl pushT s.task.t).get r

/-- A mask program slot of the active plane: S and L write them (R176, R321). -/
def State.readMask (s : State) (r : BitVec 2) (tag : Nat) : MaskSlot :=
  s.choose tag [] (candidates ((s.seq .S).pend ++ (s.seq .L).pend) s.core.cycle (s.plane.masks.get r)
    (fun w => match w with | .mask r' d => if r' = r then some d else none | _ => none))

/-- Entry `e` of the scout score buffer as 512 words of 32 bits. -/
def scoutEntry (b : BitVec 16384) (e : Nat) : BitVec 32 := BitVec.ofNat 32 (b.toNat / 2 ^ (32 * e))

/-- The scout score buffer with an entry replaced. -/
def scoutPut (b : BitVec 16384) (e : BitVec 9) (v : BitVec 32) : BitVec 16384 :=
  let sh := 32 * e.toNat
  (b &&& ~~~((BitVec.ofNat 16384 (2 ^ 32 - 1)) <<< sh)) ||| (v.zeroExtend 16384 <<< sh)

/-- The values that writes in flight give to an entry of the scout score buffer. -/
def scoutLate (e : BitVec 9) (w : Write) : Option (BitVec 32) :=
  match w with
  | .scout es => (es.find? (fun p => p.1 == e)).map Prod.snd
  | _ => none

/-- An entry of the scout score buffer, a 32-bit lane of its own (R152, R321). -/
def State.readScout (s : State) (e : BitVec 9) (tag : Nat) : BitVec 32 :=
  s.choose tag 0 (candidates (s.seq .C).pend s.core.cycle (scoutEntry s.task.scout e.toNat) (scoutLate e))

/-- LATCLASS of a record (R184): from KIND and, for MMA and MMAX, from its source types and scale mode (R286). -/
def latClass (t : Template) : BitVec 4 :=
  let k := t.kind.toNat
  let wide := fun (x : BitVec 4) => x == 9 || x == 10
  let four := fun (x : BitVec 4) => x == 13 || (t.scale == 2 && (x == 0 || x == 4))
  if k = 0x80 ∨ k = 0x81 then
    (if wide t.stype1 || wide t.stype2 then 9 else if four t.stype1 && four t.stype2 then 8 else 7)
  else if [0x03, 0x04, 0x05, 0x06, 0x30].contains k then 1
  else if [0x14, 0x15, 0x16].contains k then 2
  else if (0x17 ≤ k ∧ k ≤ 0x1C) ∨ k = 0x25 ∨ k = 0x26 then 3
  else if k = 0x1D ∨ k = 0x1E then 4
  else if [0x27, 0x28, 0x29, 0x2C].contains k then 5
  else if k = 0x2A ∨ k = 0x2B then 6
  else if k = 0xC0 then 8
  else if k = 0x82 then 10
  else if k = 0x83 then 11
  else if k = 0x85 ∨ k = 0x86 then 12
  else if k = 0x87 ∨ k = 0x88 then 13
  else 0

/-- A record with LATCLASS computed (R184). -/
def withLatClass (b : BitVec 256) : BitVec 256 :=
  let t := Template.ofBits b
  { t with latclass := latClass t }.toBits

/-- The bound of a latency class (R184). -/
def classBound (t : Template) : Nat :=
  let g := t.k.toNat / 32
  match (latClass t).toNat with
  | 0 => 2 | 1 => 4 | 2 => 6 | 3 => 12 | 4 => 8 | 5 => 8 | 6 => 10
  | 7 => 16 + g * 32 | 8 => 16 + g * 16 | 9 => 16 + g * 64 | 10 => 16 + t.k.toNat / 64 * 8 | 11 => 16 + g * 1024
  | 12 => 16 | 13 => 8 | _ => 2

/-- The record with the bits of one write (R281). -/
def mergeTpl (b bits d : BitVec 256) : BitVec 256 := withLatClass ((b &&& ~~~bits) ||| (d &&& bits))

/-- A template record of the active plane, read whole: old, or with any of the writes still inside their bounds (R282). -/
def State.readTpl (s : State) (r : BitVec 6) (tag : Nat) : BitVec 256 :=
  let pend := (s.seq .C).pend
  let get := fun (w : Write) => match w with | .tpl r' k d => if r' = r then some (k, d) else none | _ => none
  let settled := (pend.filter (fun p => decide (p.due ≤ s.core.cycle))).foldl
    (fun acc p => (p.writes.filterMap get).foldl (fun acc w => mergeTpl acc w.1 w.2) acc) (s.plane.tpl.get r)
  let late := (pend.filter (fun p => decide (s.core.cycle < p.due))).flatMap (fun p => p.writes.filterMap get)
  s.choose tag settled (late.foldl (fun l w => l ++ l.map (fun b => mergeTpl b w.1 w.2)) [settled])

/-- The flags that instructions in flight raise, where the test accepts them. -/
def lateFlags (pend : List Pending) (p : Pending → Bool) : List (BitVec 7) :=
  (pend.filter p).flatMap (fun e => e.writes.filterMap (fun w => match w with | .fflags b => some b | _ => none))

/-- FFLAGS, with every flag raised by results whose bound has come, and with or without those of each operation still pending (R132,
R133). R133 would allow a read by S, L or W to miss flags of an operation that no token chain puts before it: the model gives it those of every
operation whose bound has come (DESIGN CHOICE, log 4). -/
def State.readFflags (s : State) (tag : Nat) : BitVec 7 :=
  let pend := (s.seq .C).pend
  let settled := (lateFlags pend (fun p => decide (p.due ≤ s.core.cycle))).foldl (· ||| ·) s.task.fflags
  s.choose tag 0 ((lateFlags pend (fun p => decide (s.core.cycle < p.due))).foldl (fun l b => l ++ l.map (· ||| b)) [settled])

/-! ## Retirement -/

/-- The poison of some lanes of one register dropped. -/
def dropLanes (l : List ((BitVec 4 × BitVec 6) × Poison)) (r : BitVec 4) (lanes : BitVec 64) :
    List ((BitVec 4 × BitVec 6) × Poison) :=
  l.filter (fun p => !(p.1.1 == r && lanes.getLsbD p.1.2.toNat))

/-- One destination written (R22, R226: a clean write clears poison of what it writes). -/
def Task.apply (t : Task) (q : SeqId) (w : Write) : Task :=
  let sq := t.seqs.get q.num
  match w with
  | .x r v p => if r = 0 then t else t.withSeq q { sq with x := sq.x.set r v, xPoison := sq.xPoison.set r p }
  | .flag r v =>
    t.withSeq q { sq with f := (sq.f &&& ~~~(1#8 <<< r.toNat)) ||| ((v.zeroExtend 8) <<< r.toNat) }
  | .bt r v => t.withSeq q { sq with bt := sq.bt.set r v }
  | .lc r v => t.withSeq q { sq with lc := sq.lc.set r v }
  | .v r d lanes => { t with v := t.v.set r (mergeLanes (t.v.get r) d lanes), vPoison := dropLanes t.vPoison r lanes }
  | .t d =>
    { t with
      t := pushT t.t d
      tPoison := (t.tPoison.filter (fun p => decide (p.1.1.toNat < 15))).map (fun p => ((p.1.1 + 1, p.1.2), p.2)) }
  | .o n id d =>
    { t with o := t.o.set n (updFirst (fun x => x.id == id) (fun x => { x with filled := true, data := d, poison := none }) (t.o.get n)) }
  | .q n l =>
    { t with q := t.q.set n (t.q.get n ++ l.map (fun e => { id := e.1, filled := true, data := e.2, poison := none, locks := [] })) }
  | .fill n id d =>
    { t with q := t.q.set n (updFirst (fun x => x.id == id) (fun x => { x with filled := true, data := d, poison := none }) (t.q.get n)) }
  | .m r d k => { t with m := t.m.set r (maskAfter (t.m.get r) (d, k)) }
  | .km r d => { t with km := t.km.set r d }
  | .acc r d => { t with acc := t.acc.set r d }
  | .fflags b => { t with fflags := t.fflags ||| b }
  | .scout es => { t with scout := es.foldl (fun b e => scoutPut b e.1 e.2) t.scout }
  | .mask _ _ => t
  | .tpl _ _ _ => t
  | .acct n k => { t with acct := t.acct.set n (t.acct.get n + BitVec.ofNat 64 k) }

/-- Storage written anew no longer fails (R226, R458). -/
def Task.mend (t : Task) (q : SeqId) (ws : List Write) : Task :=
  if t.broken = [] then t else { t with broken := t.broken.filter (fun b => !(ws.filterMap (storageWritten q)).contains b) }

/-- One instruction retires: destinations, then its push (R20, R22). -/
def Task.retire (t : Task) (q : SeqId) (p : Pending) : Task :=
  ((p.writes.foldl (fun t w => t.apply q w) t).mend q p.writes).fillPush p.push

/-- Whether an instruction in flight retires by a cycle: its bound has come and its engine has given its destinations. -/
def Pending.ready (p : Pending) (cycle : Nat) : Bool := p.op.isNone && decide (p.due ≤ cycle)

/-- Every instruction of `q` that the test accepts retires, in the order of R204. -/
def Task.retireWhere (t : Task) (q : SeqId) (accept : Pending → Bool) : Task :=
  let sq := t.seqs.get q.num
  let due := sortBy Pending.due (sq.pend.filter accept)
  let t1 := t.withSeq q { sq with pend := sq.pend.filter (fun p => !accept p) }
  due.foldl (fun t p => t.retire q p) t1

/-- A plane after a destination that lies in it is written (R281, R303). -/
def Plane.apply (p : Plane) (w : Write) : Plane :=
  match w with
  | .mask r d => { p with masks := p.masks.set r d }
  | .tpl r k d => { p with tpl := p.tpl.set r (mergeTpl (p.tpl.get r) k d) }
  | _ => p

/-- A destination that lies in the plane. -/
def inPlane : Write → Bool
  | .mask _ _ => true
  | .tpl _ _ _ => true
  | _ => false

/-- The active plane after the accepted instructions of `q` are written (R281, R303). -/
def State.settlePlane (s : State) (q : SeqId) (accept : Pending → Bool) : State :=
  let ws := ((sortBy Pending.due ((s.seq q).pend.filter accept)).flatMap Pending.writes).filter inPlane
  if ws = [] then s else s.withPlane (ws.foldl Plane.apply s.plane)

/-- Every instruction of `q` due by `cycle` retires. -/
def State.retireDue (s : State) (q : SeqId) (cycle : Nat) : State :=
  let s1 := s.settlePlane q (fun p => p.ready cycle)
  s1.withTask (s1.task.retireWhere q (fun p => p.ready cycle))

/-- Everything in flight retires, as into a save image (R43), but for the operations that an engine has not finished (R297). -/
def Task.retireAll (t : Task) : Task :=
  allSeqs.foldl (fun t q =>
    let t1 := t.retireWhere q (fun p => p.op.isNone)
    t1.withSeq q { t1.seqs.get q.num with arm := false }) t

/-- The active plane after everything in flight is written. -/
def State.settleAll (s : State) : State := allSeqs.foldl (fun s q => s.settlePlane q (fun p => p.op.isNone)) s

/-! ## Fault records (R224 to R229) -/

/-- What a faulting instruction says beyond its own place: cause, FADDR, and for commands the body, origin and progress. -/
structure FaultInfo where
  cause : BitVec 8
  addr : Word64
  body : Option (BitVec 256)
  origin : Option Word64
  progress : Word64
  desc : List Word64 := []
  deriving DecidableEq, Repr

/-- A fault with an address and nothing more. -/
def faultAt (cause : BitVec 8) (addr : Word64) : FaultInfo := { cause := cause, addr := addr, body := none, origin := none, progress := 0 }

/-- FADDR: a space and an address (R229). -/
def faddr (sp : BitVec 2) (addr : Word64) : Word64 := (0#6 ++ sp ++ addr.truncate 56 : BitVec 64)

/-- FCAUSE (R227). -/
def fcauseOf (cause : BitVec 8) (q : SeqId) (async popped : Bool) (code : BitVec 8) : Word64 :=
  BitVec.ofNat 64 (cause.toNat + q.num.toNat * 2 ^ 12 + async.toNat * 2 ^ 16 + (causeRecov cause).toNat * 2 ^ 17 +
    popped.toNat * 2 ^ 18 + code.toNat * 2 ^ 24)

/-- FPC (R229). -/
def fpcOf (plane : BitVec 1) (pc : BitVec 16) : Word64 := BitVec.ofNat 64 (pc.toNat + plane.toNat * 2 ^ 16)

/-- FREC7 (R229) (DEDUCED, log 44). -/
def frec7Of (n : BitVec 32) (drain : Bool) (q : SeqId) (plane : BitVec 1) (pc : BitVec 16) : Word64 :=
  BitVec.ofNat 64 (pc.toNat + plane.toNat * 2 ^ 16 + q.num.toNat * 2 ^ 17 + drain.toNat * 2 ^ 19 + n.toNat * 2 ^ 32)

/-- FREC0 to FREC7 from a body, an origin, progress, the time of detection and FREC7. -/
def snapOf (body : BitVec 256) (origin progress time f7 : Word64) : RegFile 3 Word64 :=
  (((((((RegFile.fill 3 (0 : Word64)).set 0 (body.truncate 64)).set 1 ((body >>> 64).truncate 64)).set 2
    ((body >>> 128).truncate 64)).set 3 ((body >>> 192).truncate 64)).set 4 origin).set 5 progress).set 6 time |>.set 7 f7

/-- The words of an instruction as a record holds them (R229): its word and its literals above. The second word of AMO is no
literal (R168), so it is not there (DEDUCED, log 34). -/
def instrRecordWords (i : Instr) : BitVec 256 :=
  let ws := match i with
    | .amo .. => (encode i).take 1
    | _ => encode i
  BitVec.ofNat 256 (packBits 32 (ws.map BitVec.toNat))

/-- The 256-bit body of an instruction's record: for a template the amended record, else its words (R229). -/
def instrBody (i : Instr) : BitVec 256 :=
  match instrTemplate i with
  | some t => t.tpl.toBits
  | none => instrRecordWords i

/-- The ORIGIN of an instruction's record (R229): for a template its patch word with the amendment literal's low word above. -/
def instrOrigin (i : Instr) : Word64 :=
  match instrTemplate i with
  | some t =>
    if amendWords (t.patch.extractLsb 21 16) = 0 then t.patch.zeroExtend 64 else (t.lits.getD 0 0) ++ t.patch
  | none => 0

/-- The record of a precise fault of the instruction `i` that sequencer `q` is at (R227, R229). -/
def preciseRec (s : State) (q : SeqId) (i : Instr) (f : FaultInfo) (popped : Bool) (code : BitVec 8) : FaultRec :=
  let sq := s.seq q
  { cause := fcauseOf f.cause q false popped code
    pc := fpcOf s.task.active sq.pc
    seq := sq.issueCnt.zeroExtend 64
    addr := f.addr
    snap := snapOf (f.body.getD (instrBody i)) (f.origin.getD (instrOrigin i)) f.progress s.time
      (frec7Of sq.issueCnt false q s.task.active sq.pc)
    desc := f.desc }

/-- The record of a fault that belongs to an earlier command (R224); its FREC7 is written at delivery. -/
def asyncRec (s : State) (o : Origin) (f : FaultInfo) : FaultRec :=
  { cause := fcauseOf f.cause o.q true false 0
    pc := fpcOf o.plane o.pc
    seq := o.seqNum.zeroExtend 64
    addr := f.addr
    snap := snapOf (f.body.getD o.body) (f.origin.getD 0) f.progress s.time 0
    desc := f.desc }

/-- A record as delivered to sequencer `q` at its PC (R225): FREC7 and POPPED name the delivery. -/
def deliverRec (s : State) (q : SeqId) (r : FaultRec) (popped drain : Bool) : FaultRec :=
  let sq := s.seq q
  { r with
    cause := if popped then r.cause ||| (1#64 <<< 18) else r.cause
    snap := r.snap.set 7 (frec7Of sq.issueCnt drain q s.task.active sq.pc) }

/-- The origin of the instruction that `q` issues now. -/
def State.origin (s : State) (q : SeqId) (i : Instr) : Origin :=
  { lid := s.task.ident.lid
    task := s.task.ident.taskId
    q := q
    plane := s.task.active
    pc := (s.seq q).pc
    seqNum := (s.seq q).issueCnt
    body := instrRecordWords i }

/-! ## Logs -/

/-- The die of a core (R2). -/
def dieOf (core : BitVec 11) : BitVec 2 := core.extractLsb 10 9

/-- The cluster of a core, counted over the package (R2). -/
def clusterOf (core : BitVec 11) : BitVec 6 := core.extractLsb 10 5

/-- The column of a core, counted over the package (R2). -/
def columnOf (core : BitVec 11) : BitVec 9 := core.extractLsb 10 2

/-- Word 1 of a log record (R413). -/
def logIdent (i : TaskId) (core : BitVec 11) : Word64 :=
  BitVec.ofNat 64 (i.lid.toNat + i.queue.toNat * 2 ^ 16 + i.world.toNat * 2 ^ 32 + core.toNat * 2 ^ 48)

/-- A record handed to a die's yard for its log (R412). -/
def State.logTo (s : State) (die : BitVec 2) (r : LogRec) : State :=
  let y := s.pkg.yards.get die
  s.withPkg { s.pkg with yards := s.pkg.yards.set die { y with logWait := y.logWait ++ [r] } }

/-- A record of this core's task for its yard's log, of the given kind (R413). -/
def State.log (s : State) (kind : BitVec 4) (r : FaultRec) (tail : List Word64) : State :=
  s.logTo (dieOf s.core.coreId)
    { kind := kind, ident := logIdent s.task.ident s.core.coreId, task := s.task.ident.taskId, record := r, tail := tail }

/-! ## Stopping the task (R222) -/

/-- A held RPUB or RREL that a sequencer sleeps on. -/
def heldId (sq : SeqState) : Option Nat :=
  match sq.wait with
  | some w => (match w.kind with | .held _ id => some id | _ => none)
  | none => none

/-- What the task has issued and the halt leaves to be performed while it stands (R91): copies, but for stamped ones still in the buffer,
which wait for their time; attention requests; and held ring operations, which their sequencers resume past (R104). What a stream job has
left waits for the program itself (DEDUCED, log 58). -/
def owedAtHalt (t : Task) : List Nat :=
  (t.copies.filter (fun c => c.accepted || !c.stamped)).map CopyCmd.id ++ t.atts.map AttReq.id ++ t.seqs.toList.filterMap heldId

/-- The hold that a halt leaves on every sequencer: each later access and ordering point comes after those accesses (R91). -/
def resumeHold (ids : List Nat) : List FenceHold := 
  if ids = [] then [] else [{ at_ := ids.foldl Nat.max 0 + 1, waits := ids, paths := 0xFF, scope := 5 }]

/-- A sequencer at the halt (R43, R417): a sleeping wait is to be issued again at its PC, without a second pop since POPPED was
set when it began; the wait of a held ring operation ends (R104). The hold of R91 is left. -/
def haltSeq (ids : List Nat) (sq : SeqState) : SeqState :=
  { sq with
    halted := true
    stall := none
    fences := sq.fences ++ resumeHold ids
    wait := match sq.wait with
      | some w => if w.kind = .service then some w else none
      | none => none }

/-- The push reservations of sleeping instructions given back, but for a TRAP's (R214, R217, R237). -/
def Task.dropWaitPush (t : Task) (q : SeqId) : Task :=
  match (t.seqs.get q.num).wait with
  | some w => if w.kind = .service then t else t.dropPush w.push
  | none => t

/-- The task as it stands at a halt of every sequencer (R42, R43, R133): results in flight have retired, the flags of the groups
that matrix operations completed are raised, and a held stamped operation is to be reached again. -/
def Task.halted (t : Task) : Task :=
  let t1 := allSeqs.foldl Task.dropWaitPush t.retireAll
  { t1 with
    seqs := t1.seqs.map (haltSeq (owedAtHalt t1))
    hold := none
    fflags := t1.mats.foldl (fun f m => f ||| m.flags) t1.fflags
    mats := t1.mats.map (fun m => { m with flags := 0 }) }

/-- TAKING A FAULT (R222, R227, R229): the record goes into the fault registers, every sequencer halts at its instruction
boundary, results in flight retire, pins are kept as the pin set, and the task stops for its firmware context (R414). -/
def takeFault (s0 : State) (r : FaultRec) : State :=
  let s := s0.settleAll
  let t := { s.task.halted with faults := r }
  { s with core := { s.core with task := t, run := .stopped, haltCause := some r, firmware := true } }

/-- RETURN FROM A FAULT (R230): the sequencers that the fault halted run again; one that has exited is present still, and is halted
anew by a later request (R35). -/
def returnFromFault (s : State) : State :=
  let s1 := s.mapSeqs (fun sq => { sq with halted := !sq.present })
  { s1 with core := { s1.core with run := .running, haltCause := none, firmware := false, fw := { s1.core.fw with pc := 0 } } }

/-- A precise fault of sequencer `q` at instruction `i`; a pop it made is kept (R222). -/
def faultPrecise (s : State) (q : SeqId) (i : Instr) (f : FaultInfo) (popped : Bool) (code : BitVec 8) : State :=
  let r := preciseRec s q i f popped code
  takeFault (s.withSeq q { s.seq q with popped := popped }) r

/-- A held record delivered to sequencer `q` at its PC (R225). -/
def faultDeliver (s : State) (q : SeqId) (r : FaultRec) (popped : Bool) : State :=
  takeFault (s.withSeq q { s.seq q with popped := popped }) (deliverRec s q r popped false)

/-! ## The effect of an instruction at its issue -/

/-- How the sequencer goes on. -/
inductive Flow where
  | next
  | branch (taken : Bool) (target : BitVec 16) (delay : BitVec 2) (link : Bool)
  | skip (pc : BitVec 16)
  | sleep (kind : WaitKind)
  | exited
  | swapped
  | queued (op : Nat)
  deriving DecidableEq, Repr

/-- What an instruction does when it is reached: a precise fault, a stall (R39), its effect with its bound and destinations,
a trap that issues and stops the task (R214), the delivery of a held record (whose POPPED tells of a pop unless its rule fixes it at 0, R319), or a fault after a
change that its rule makes all the same (R104), or a hold at a stamp with the pop made (R38). -/
inductive Effect where
  | fault (f : FaultInfo)
  | stall (why : Stall)
  | done (s : State) (bound : Nat) (writes : List Write) (flow : Flow)
  | trapped (cause code : BitVec 8)
  | deliver (s : State) (r : FaultRec) (mark : Bool)
  | faultOn (s : State) (f : FaultInfo)
  | holdAt (s : State) (why : Stall)
  deriving DecidableEq, Repr

/-- An effect that only writes destinations. -/
def Effect.write (s : State) (bound : Nat) (writes : List Write) : Effect := .done s bound writes .next

/-- An effect on the state alone, retiring one cycle after issue (R187). -/
def Effect.act (s : State) : Effect := .done s 1 [] .next

/-- A fault with a cause and an address. -/
def Effect.fail (cause : BitVec 8) (addr : Word64) : Effect := .fault (faultAt cause addr)

/-- The effect that needs x register `r`: a poisoned register faults with the poison's cause (R226). -/
def withX (s : State) (q : SeqId) (r : BitVec 4) (tag : Nat) (k : Word64 → Effect) : Effect :=
  match s.readX q r tag with
  | (_, some p) => .fault { cause := p.cause, addr := p.addr, body := some (p.word.zeroExtend 256), origin := none, progress := 0 }
  | (v, none) => k v

/-- The effect that needs a second operand (R169). -/
def withSrcVal (s : State) (q : SeqId) (b : Src) (tag : Nat) (k : Word64 → Effect) : Effect :=
  match b with
  | .reg r => withX s q r tag k
  | .lit32 w => k (sext64 32 w.toNat)
  | .lit64 w => k w

/-! ## Advancing a sequencer (R166, R207 to R210) -/

/-- A word of the active plane's instruction memory, by byte address (R15). -/
def Plane.word (p : Plane) (q : SeqId) (pc : Nat) : Word32 := cellGet p.fill (p.im.get q.num) (pc / 4)

/-- How many words the instruction at `pc` holds; a patch word is sized by its record as it stands (R166, R181, R207). -/
def widthAt (p : Plane) (q : SeqId) (pc : Nat) : Nat :=
  let w := p.word q pc
  let m := (w.extractLsb 31 26).toNat
  if 0x30 ≤ m then
    let f := w.extractLsb 21 16
    let v := w.extractLsb 15 0
    let t := Template.ofBits (amend (p.tpl.get (w.extractLsb 29 24)) f v [p.word q (pc + 4), p.word q (pc + 8)])
    1 + amendWords f + splatWords t.src1 + splatWords t.src2 + splatWords t.src3
  else 1 + announced w

/-- The address after `n` instructions from `pc` (R207). -/
def slotsEnd (p : Plane) (q : SeqId) : Nat → Nat → Nat
  | pc, 0 => pc
  | pc, n + 1 => slotsEnd p q (pc + 4 * widthAt p q pc) n

/-- Whether one of `n` instructions from `pc` is a patch word (R207). -/
def slotsPatch (p : Plane) (q : SeqId) : Nat → Nat → Bool
  | _, 0 => false
  | pc, n + 1 => (p.word q pc).extractLsb 31 30 == 3#2 || slotsPatch p q (pc + 4 * widthAt p q pc) n

/-- Loops whose body does not hold the target of a taken branch end (R210). -/
def leaveLoops (sq : SeqState) (target : BitVec 16) : SeqState :=
  { sq with loops := sq.loops.map (fun l =>
      if l.active && !(decide (l.start.toNat ≤ target.toNat) && decide (target.toNat ≤ l.stop.toNat)) then { l with active := false } else l) }

/-- A taken branch: the next block starts at the target with the scoreboard armed (R205). -/
def jump (sq : SeqState) (target : BitVec 16) : SeqState :=
  { leaveLoops sq target with pc := target, arm := true }

/-- The active loops whose end lies in the words at `pc`, the latest started first (R209). -/
def endingLoops (sq : SeqState) (pc next : Nat) : List (BitVec 2) :=
  let l := [0#2, 1#2, 2#2, 3#2].filter (fun n =>
    let x := sq.loops.get n
    x.active && decide (pc ≤ x.stop.toNat) && decide (x.stop.toNat < next))
  sortBy (fun n => 8 - (sq.loops.get n).nest.toNat) l

/-- The loop test at the end of a body, for each loop in turn (R209). -/
def loopBack (sq : SeqState) : List (BitVec 2) → SeqState
  | [] => sq
  | n :: t =>
    let x := sq.loops.get n
    if 1 < (sq.lc.get n).toNat then { sq with lc := sq.lc.set n (sq.lc.get n - 1), pc := x.start }
    else loopBack { sq with lc := sq.lc.set n 0, loops := sq.loops.set n { x with active := false } } t

/-- The sequencer after an instruction of `n` words has issued: delay slots, branches and loop ends. The second part is the
link value to be written from this issue, if any (R207). -/
def advance (p : Plane) (q : SeqId) (sq : SeqState) (n : Nat) (isPatch : Bool) (flow : Flow) : SeqState × Option Word64 :=
  let pc := sq.pc.toNat
  let next := pc + 4 * n
  let npc := BitVec.ofNat 16 next
  let d := sq.delay
  if d.owed ≠ 0 then
    let owed := d.owed - 1
    let last := !slotsPatch p q next owed.toNat
    let link := if d.link && isPatch && last then some (BitVec.ofNat 64 (slotsEnd p q next owed.toNat)) else none
    let d' := if owed = 0 then DelayState.none else { d with owed := owed, link := d.link && !(isPatch && last) }
    let sq1 := { sq with delay := d' }
    (if owed = 0 ∧ d.taken then jump sq1 d.next else { sq1 with pc := npc }, link)
  else
    match flow with
    | .branch taken target delay lk =>
      let patch := slotsPatch p q next delay.toNat
      let link := if lk && !patch then some (BitVec.ofNat 64 (slotsEnd p q next delay.toNat)) else none
      if delay = 0 then (if taken then jump sq target else { sq with pc := npc }, link)
      else ({ sq with pc := npc, delay := { owed := delay, taken := taken, next := target, link := lk && patch } }, link)
    | .skip target => ({ sq with pc := target, arm := true }, none)
    | .next => (loopBack { sq with pc := npc } (endingLoops sq pc next), none)
    | .sleep _ => (loopBack { sq with pc := npc } (endingLoops sq pc next), none)
    | .queued _ => (loopBack { sq with pc := npc } (endingLoops sq pc next), none)
    | .exited => ({ sq with pc := npc, exited := true, delay := DelayState.none }, none)
    | .swapped => ({ sq with pc := npc, swapWait := true }, none)

/-- The scoreboard armed at the first issue of a new block: every instruction in flight is covered (R205). -/
def armIf (sq : SeqState) : SeqState :=
  if sq.arm then { sq with arm := false, pend := sq.pend.map (fun p => { p with covered := true }) } else sq

/-- The destinations that the scoreboard covers for an instruction in flight (R205, R321): those of its results, or of the matrix
operation that has still to give them. -/
def pendLocs (t : Task) (p : Pending) : List Loc :=
  p.writes.filterMap writeLoc ++
    (match p.op with
     | some id => match t.mats.find? (fun m => m.id == id) with | some m => tplDstLocs m.issue.tpl | none => []
     | none => [])

/-- Whether a covered destination is named by the instruction (R205, R282). -/
def coveredHit (t : Task) (q : SeqId) (locs : List Loc) : Bool :=
  (t.seqs.get q.num).pend.any (fun p => p.covered && (pendLocs t p).any (fun l => locs.any (fun m => decide (m = l))))

/-- An instruction of `q` whose bound has come has not its result yet: the sequencer stalls (R22). -/
def boundMissed (s : State) (q : SeqId) : Bool := (s.seq q).pend.any (fun p => p.op.isSome && decide (p.due ≤ s.core.cycle))

/-! ## Fences (R79, R81) -/

/-- A copy names a barrier (R248). -/
def namesBarrier (c : CopyCmd) : Bool := c.desc.getLsbD 198

/-- The engine commands, deferred arrivals, barrier arrivals of copies and held ring operations of the task that have not performed,
with the path of each (R80, R84). -/
def outstanding (s : State) (q : SeqId) : List (Nat × Nat) :=
  let t := s.task
  (t.copies.filter (fun c => c.origin.q == q)).map (fun c => (c.id, if c.fn == 2 || c.fn == 3 then 2 else 1)) ++
    (t.copies.filter (fun c => c.origin.q == q && namesBarrier c)).map (fun c => (c.id, 6)) ++
    (s.pkg.heldRings.filter (fun h => h.lid == t.ident.lid && h.task == t.ident.taskId && h.q == q)).map (fun h => (h.id, 6)) ++
    (t.mats.filter (fun m => m.origin.q == q && (m.issue.tpl.src1 == 0x39 || m.issue.tpl.src2 == 0x39))).map (fun m => (m.id, 3)) ++
    (t.atts.filter (fun a => a.origin.q == q)).map (fun a => (a.id, 4)) ++
    (t.jobs.filter (fun j => j.origin.q == q)).map (fun j => (j.id, 5)) ++
    (t.mkevs.filter (fun j => j.origin.q == q)).map (fun j => (j.id, 5)) ++
    (t.deferred.filter (fun d => d.origin.q == q)).map (fun d => (d.id, 6))

/-- The fences of `q` that still wait for a command; the hold of a halt waits for commands of every sequencer (R91). -/
def openFences (s : State) (q : SeqId) : List FenceHold :=
  let ids := allSeqs.flatMap (fun r => (outstanding s r).map Prod.fst)
  (s.seq q).fences.filter (fun f => f.waits.any (fun i => ids.contains i))

/-- A fence that has not completed holds accesses and commands of `q` on the path (R81). -/
def fenced (s : State) (q : SeqId) (path : Nat) : Bool := (openFences s q).any (fun f => f.paths.getLsbD path)

/-- A fence that has not completed holds the ordering points and release accesses after it (R74). -/
def fencedPoint (s : State) (q : SeqId) : Bool := !(openFences s q).isEmpty

/-- A fence issued before the command `id` of `q` has not completed: a release access that the command makes waits for it (R74, R84). -/
def fencedBefore (s : State) (q : SeqId) (id : Nat) : Bool := (openFences s q).any (fun f => decide (f.at_ ≤ id))

/-- A pop: path-0 accesses after it come after it, and after a fence before it that has not completed (R74). -/
def popFences (s : State) (q : SeqId) : State :=
  s.withSeq q { s.seq q with
    fences := (openFences s q).map (fun f => { f with paths := f.paths ||| 1 })
    newFence := (s.seq q).newFence ||| 1 }

/-! ## Cluster slots (R50) -/

/-- The owner of a task's pages. -/
def TaskId.owner (i : TaskId) : PageOwner := { lid := i.lid, task := i.taskId, world := i.world, die := i.die, queue := i.queue, scrBase := i.scrBase }

/-- The owner of a peer's pages. -/
def Peer.owner (p : Peer) : PageOwner := { lid := p.lid, task := p.task, world := p.world, die := p.die, queue := p.queue, scrBase := p.scrBase }

/-- Whether the issuing task belongs to a gang group at cluster domain or above (R30, R50). -/
def gangAtCluster (id : TaskId) : Bool :=
  (upTo 8).any (fun i =>
    let e := id.levels.get (BitVec.ofNat 3 i)
    e.extractLsb 23 0 != 0 && e.getLsbD 30 && decide (2 ≤ bitsOf e.toNat 24 3))

/-- The target of a cluster slot (R50): the gang peer that held the position in the cluster of the first dispatch, else the
core at that position now, with the task that is placed there. The first answer is this core itself; there is none where no task runs,
nor where the peer that held the position has ended. -/
def clusterTarget (s : State) (slot : Nat) : Option (Sum Unit Peer) :=
  let id := s.task.ident
  let home := id.slot.toNat / 32 * 32 + slot
  let here := s.core.coreId.toNat / 32 * 32 + slot
  if gangAtCluster id ∧ id.slot.toNat = home then some (.inl ())
  else
    match (if gangAtCluster id then
        s.pkg.peers.find? (fun p => p.lid == id.lid && p.group == id.group && p.slot.toNat == home) else none) with
    | some p => some (.inr p)
    | none =>
      if gangAtCluster id ∧ s.pkg.gangGone.any (fun g => decide (g = (id.lid, id.group, BitVec.ofNat 11 home))) then none
      else if s.core.coreId.toNat = here then some (.inl ())
      else (s.pkg.peers.find? (fun p => p.placed && p.core.toNat == here)).map Sum.inr

/-- The task whose page an access of cluster space goes to, as found at its issue; R50 checks it no more after that. -/
def homeOwner (s : State) (sp : BitVec 2) (addr : Nat) : Option PageOwner :=
  if sp ≠ 1 then none
  else match clusterTarget s (addr / 2 ^ 16) with
    | some (.inl ()) => some s.task.ident.owner
    | some (.inr p) => some p.owner
    | none => none

/-- The same for the object of an address of the form of R231. -/
def objHome (s : State) (a : Word64) : Option PageOwner := homeOwner s (a.extractLsb 57 56) (a.extractLsb 55 0).toNat

/-- The same for what a sleeping instruction waits for. -/
def waitHome (s : State) : WaitKind → Option PageOwner
  | .waitm _ sp a _ _ _ _ _ => homeOwner s sp a.toNat
  | .bwait _ obj _ _ _ => objHome s obj
  | .ring _ obj _ _ _ _ => objHome s obj
  | _ => none

/-! ## Issue -/

/-- Whether sequencer `q` can reach its next instruction (R33, R39, R42, R216); one whose MKEV faulted in its run first issues that again
(R305). -/
def canIssue (s : State) (q : SeqId) : Bool :=
  let sq := s.seq q
  (match s.core.run with | .running => true | .halting _ => true | _ => false) &&
    sq.present && !sq.exited && !sq.halted && sq.wait.isNone && !sq.swapWait &&
    !s.task.mkevs.any (fun j => j.stopped && j.origin.q == q)

/-- Whether `q` may issue `i` (R17, R175, R176); template kinds issue on C. -/
def seqMayIssue (i : Instr) (q : SeqId) : Bool :=
  match instrTemplate i with
  | some _ => q == .C
  | none => match encode i with
    | w :: _ => if w.extractLsb 31 30 = 3#2 then q == .C else seqAllowed w q
    | [] => false

/-- The checks of R167 step 6 that depend on the sequencer: EXIT with a tag only on S (R215), A[3] of the mask tests on C (R203),
and the writable registers, which on S, L and W is LVS alone (R172, R211). -/
def seqFieldsOk (i : Instr) (q : SeqId) : Bool :=
  match i with
  | .exit _ a => a == 0 || q == .S
  | .vany _ _ a => q != .C || !a.getLsbD 3
  | .vall _ _ a => q != .C || !a.getLsbD 3
  | .vnone _ _ a => q != .C || !a.getLsbD 3
  | .wrsr _ _ n => n == 0x022 || q == .C
  | _ => true

/-- A push towards E raises ILLEGAL_INSTR (R19). -/
def pushLegal (i : Instr) : Bool :=
  match instrTokens i with
  | some (tk, peer) => !(tk.getLsbD 1 && peer == 3)
  | none => true

/-- The state with the stall of `q` noted (R39). -/
def stalled (s : State) (q : SeqId) (why : Stall) : State := s.withSeq q { s.seq q with stall := some why }

/-- A push slot reserved at issue (R20). -/
def reservePush (s : State) (q : SeqId) (i : Instr) : State × Option (BitVec 4 × Nat) :=
  match instrTokens i with
  | some (tk, peer) =>
    if tk.getLsbD 1 then
      match peerOf q peer with
      | some p =>
        let n := fifoNum q p
        let t := s.task
        let s1 := s.withTask { t with fifos := t.fifos.set n (t.fifos.get n ++ [Slot.reserved s.nextId]) }
        (s1.fresh, some (n, s.nextId))
      | none => (s, none)
    else (s, none)
  | none => (s, none)

/-- The instructions besides a pop after which the model puts every later load of the sequencer: fences, atomics, WAITM, and the operations on
objects that acquire (R74, R77, R79, R84; DESIGN CHOICE, log 2). -/
def ordersLoads : Instr → Bool
  | .fence _ _ _ _ => true
  | .fencex _ _ _ _ => true
  | .amo _ _ _ _ _ _ _ _ _ _ _ => true
  | .waitm _ _ _ _ _ _ _ _ _ => true
  | .bwait _ _ _ _ => true
  | .btest _ _ _ _ => true
  | .rwfill _ _ _ _ => true
  | .rwfree _ _ _ _ => true
  | .rtake _ _ _ _ => true
  | .rclaim _ _ _ _ => true
  | _ => false

/-- An instruction that has issued with its destinations: counted, in flight until its bound, the sequencer advanced (R22,
R212). -/
def complete (s : State) (q : SeqId) (i : Instr) (bound : Nat) (writes : List Write) (flow : Flow)
    (push : Option (BitVec 4 × Nat)) : State :=
  let (sq, link) := advance s.plane q (s.seq q) (instrWords i) (instrTemplate i).isSome flow
  let entry : Pending := { due := s.core.cycle + bound, writes := writes, push := push, covered := false
                           op := match flow with | .queued id => some id | _ => none }
  let lk : List Pending := match link with
    | some v => [{ due := s.core.cycle + 1, writes := [.x 15 v none], push := none, covered := false, op := none }]
    | none => []
  s.withSeq q { sq with
    issueCnt := sq.issueCnt + 1
    popped := false
    stall := none
    newFence := if ordersLoads i then sq.newFence ||| 1 else sq.newFence
    pend := sq.pend ++ [entry] ++ lk }

/-- An instruction after its pop and its checks: its effect carried out. `popped` says whether it holds a pop. -/
def perform (s : State) (q : SeqId) (i : Instr) (popped : Bool) : Effect → State
  | .fault f => faultPrecise s q i f popped 0
  | .stall why => stalled s q why
  | .deliver s1 r mark => takeFault (s1.withSeq q { s1.seq q with popped := popped }) (deliverRec s1 q r (popped && mark) false)
  | .faultOn s1 f => faultPrecise s1 q i f popped 0
  | .holdAt s1 why => stalled (s1.withSeq q { s1.seq q with popped := popped }) q why
  | .trapped cause code =>
    let (s1, push) := reservePush s q i
    faultPrecise (s1.withSeq q { s1.seq q with wait := some { kind := .service, instr := i, push := push } }) q i
      (faultAt cause 0) popped code
  | .done s1 bound writes flow =>
    let (s2, push) := reservePush s1 q i
    match flow with
    | .sleep (.held o id) =>
      let s3 := complete s2 q i bound writes .next push
      s3.withSeq q { s3.seq q with wait := some { kind := .held o id, instr := i, push := none } }
    | .sleep kind =>
      s2.withSeq q { s2.seq q with wait := some { kind := kind, instr := i, push := push, home := waitHome s1 kind }, popped := popped, stall := none }
    | .next => complete s2 q i bound writes .next push
    | .branch a b c d => complete s2 q i bound writes (.branch a b c d) push
    | .skip a => complete s2 q i bound writes (.skip a) push
    | .exited => complete s2 q i bound writes .exited push
    | .queued id => complete s2 q i bound writes (.queued id) push
    | .swapped =>
      let s3 := complete s2 q i bound writes .swapped none
      s3.withSeq q { s3.seq q with wait := push.map (fun p => { kind := .service, instr := i, push := some p }) }

/-- The instruction reads storage whose own bits fail correction: a place that it names as a source, or the counter of a loop that it ends
(R226, R458). -/
def readsBroken (t : Task) (q : SeqId) (i : Instr) : Bool :=
  t.broken.any (fun b =>
    ((readLocs q i).filterMap (storageOf q)).contains b ||
      (endingLoops (t.seqs.get q.num) (t.seqs.get q.num).pc.toNat ((t.seqs.get q.num).pc.toNat + 4 * instrWords i)).any (fun n => decide (b = .lcReg q n)))

/-- The checks of a new instruction that come after its pop (R208, R210), the storage that it reads (R226), and then its effect. -/
def issueBody (s : State) (q : SeqId) (i : Instr) (eff : State → SeqId → Effect) : Effect :=
  let sq := s.seq q
  let pc := sq.pc.toNat
  if sq.delay.owed ≠ 0 ∧ noSlot i then .fail causeIllegalInstr 0
  else if (noEnd i ∨ sq.delay.owed ≠ 0) ∧ endingLoops sq pc (pc + 4 * instrWords i) ≠ [] then .fail causeIllegalInstr 0
  else if readsBroken s.task q i then .fault { faultAt causeDataUncorrectable 0 with body := some 0, origin := some 0 }
  else eff s q

/-- Issue once the push slot is known to be free: the pop, then the effect. A stall leaves the pop unmade (DEDUCED, log 21). -/
def issuePop (s : State) (q : SeqId) (i : Instr) (eff : State → SeqId → Effect) : State :=
  match instrTokens i with
  | some (tk, peer) =>
    if tk.getLsbD 0 && !(s.seq q).popped then
      match popFifo s.task q peer with
      | [] => stalled s q (.token (match peerOf q peer with | some p => fifoNum p q | none => 0))
      | hd :: _ =>
        if !hd.filled then stalled s q (.token (match peerOf q peer with | some p => fifoNum p q | none => 0))
        else
          let s1 := popFences (s.withTask (dropToken s.task q peer)) q
          if !popValue s.task q peer hd then faultDeliver s1 q (hd.record.getD FaultRec.none) true
          else
            match issueBody s1 q i eff with
            | .stall why => stalled s q why
            | e => perform s1 q i true e
    else perform s q i (s.seq q).popped (issueBody s q i eff)
  | none => perform s q i (s.seq q).popped (issueBody s q i eff)

/-- The instruction pushes a token. -/
def pushTokens (i : Instr) : Bool :=
  match instrTokens i with
  | some (tk, _) => tk.getLsbD 1
  | none => false

/-- Whether the FIFO of the instruction's push has a free slot (R20). -/
def pushRoom (s : State) (q : SeqId) (i : Instr) : Bool :=
  match instrTokens i with
  | some (tk, peer) =>
    if tk.getLsbD 1 then
      match peerOf q peer with
      | some p => decide ((s.task.fifos.get (fifoNum q p)).length < fifoDepth)
      | none => true
    else true
  | none => true

/-- The FIFO of the instruction's push. -/
def pushFifoNum (q : SeqId) (i : Instr) : BitVec 4 :=
  match instrTokens i with
  | some (_, peer) => match peerOf q peer with | some p => fifoNum q p | none => 0
  | none => 0

/-- The release accesses of a sequencer that no operand decides (R77, R84, R104). -/
def releases : Instr → Bool
  | .st _ _ _ _ _ _ _ r _ => r == 1
  | .stx _ _ _ _ _ _ _ _ r => r == 1
  | .amo _ _ _ _ _ _ _ _ ord _ _ => ord.getLsbD 1
  | .barv _ _ _ => true
  | .bard _ _ _ => true
  | .bexp _ _ _ => true
  | .rinit _ _ _ _ => true
  | .rpub _ _ _ _ => true
  | .rrel _ _ _ _ => true
  | _ => false

/-- A FENCE with the store's class in CMASK whose KIND has stores before it, or a FENCEX with the write's path in PATHA (R79, R81). -/
def fencesWrite (w : LostWrite) : Instr → Bool
  | .fence _ c _ k => w.path == 0 && c.getLsbD w.oclass.toNat && (k == 0 || k == 2 || k == 3)
  | .fencex _ a _ _ => a.getLsbD w.path
  | _ => false

/-- Token actions order an earlier write that could not perform (R74, R89): the push one on path 0, the pop that of the command whose token it
takes. -/
def tokensOrder (t : Task) (q : SeqId) (tk peer : BitVec 2) (w : LostWrite) : Bool :=
  (tk.getLsbD 1 && w.path == 0) ||
    (tk.getLsbD 0 && (peerOf q peer).isNone && w.slot.isSome && (popFifo t q peer).head?.map Slot.id == w.slot)

/-- The instruction would order an earlier write that could not perform, and so reports it (R74, R89): a fence that takes it in, a release
access for a write on path 0, or its token actions. -/
def ordersWrite (t : Task) (q : SeqId) (i : Instr) (w : LostWrite) : Bool :=
  fencesWrite w i || (w.path == 0 && releases i) ||
    (match instrTokens i with
     | some (tk, peer) => tokensOrder t q tk peer w
     | none => false)

/-- A held fault that sequencer `q` takes instead of instruction `i`: one of the stream unit at any instruction (R247), one of a
lost write where `order` says that the instruction orders it (R89). The state comes back without it. -/
def heldFault (s : State) (q : SeqId) (order : LostWrite → Bool) : Option (State × FaultRec) :=
  let sq := s.seq q
  match sq.asyncErr with
  | some r => some (s.withSeq q { sq with asyncErr := none }, r)
  | none =>
    match sq.writeErr.find? order with
    | some w => some (s.withSeq q { sq with writeErr := sq.writeErr.erase w }, w.record)
    | none => none

/-- Sequencer `q` reaches instruction `i` with effect `eff`: the decode checks of R167 first, then the scoreboard, the tokens
and the effect. `legal` is step 7 of R167. -/
def issueOn (q : SeqId) (i : Instr) (legal : Bool) (eff : State → SeqId → Effect) (s : State) : State :=
  if !canIssue s q then s
  else if boundMissed s q then stalled s q .bound
  else
    match heldFault s q (ordersWrite s.task q i) with
    | some (s1, r) => faultDeliver s1 q r (s.seq q).popped
    | none =>
      if !seqMayIssue i q then faultPrecise s q i (faultAt causeSeqIllegal 0) (s.seq q).popped 0
      else if !i.wellFormed || !pushLegal i || !seqFieldsOk i q then faultPrecise s q i (faultAt causeIllegalInstr 0) (s.seq q).popped 0
      else if !legal then faultPrecise s q i (faultAt causeIllegalTemplate 0) (s.seq q).popped 0
      else
        let s1 := { s.withSeq q (armIf (s.seq q)) with freeCtr := s.freeCtr + 1 }
        if coveredHit s1.task q (instrLocs q i) then stalled s1 q .pending
        else if (pushTokens i) && fencedPoint s1 q then stalled s1 q .engine
        else if !pushRoom s1 q i then stalled s1 q (.tokenPush (pushFifoNum q i))
        else issuePop s1 q i eff

/-- Sequencer `q` is at an instruction that traps at decode (R167 step 3): the trap comes before every other check of it. -/
def trapAtDecode (q : SeqId) (i : Instr) (cause : BitVec 8) (s : State) : State :=
  if !canIssue s q then s
  else if boundMissed s q then stalled s q .bound
  else
    match heldFault s q (fun _ => false) with
    | some (s1, r) => faultDeliver s1 q r (s.seq q).popped
    | none => faultPrecise { s.withSeq q (armIf (s.seq q)) with freeCtr := s.freeCtr + 1 } q i (faultAt cause 0) (s.seq q).popped 0

/-- The current sequencer reaches instruction `i`. -/
def issue (i : Instr) (eff : State → SeqId → Effect) (s : State) : Out := .next (issueOn s.cur i true eff s)

end Sys2Proof.Machine
end

