-- ==== Sys2Proof/Machine/Access.lean ====
section
/-! DEFINITION. Addresses and accesses: physical addresses and page tables (R393 to R396), the translation cache (R397,
R399), the four spaces and their checks (R47 to R50, R231), scratchpad residency (R53 to R55), and what an access leaves in
L2, L1 and the tier directory (R58, R63, R64, R407). -/

namespace Sys2Proof.Machine

open Sys2Proof

/-! ## Physical addresses and page tables -/

/-- A PA in the LPDDR-6 of a die (R393). -/
def isLpddr (pa : Nat) : Bool := decide (pa < 2 ^ 42) && decide (pa % 2 ^ 40 < 384 * 2 ^ 30)

/-- A PA in a remote aperture (R393). -/
def isAperture (pa : Nat) : Bool := decide (2 ^ 51 ≤ pa) && decide (pa < 2 ^ 51 + 2047 * 2 ^ 40)

/-- The first PA of the yard windows (R393). -/
def yardBase : Nat := 0xFFF0000000000

/-- A PA in the yard window of a die (R393). -/
def isYard (pa : Nat) : Bool := decide (yardBase ≤ pa) && decide (pa < yardBase + 4 * 0x8000000)

/-- A PA in a NOTIFYn page (R370): die and queue. -/
def notifyOf (pa : Nat) : Option (BitVec 2 × BitVec 10) :=
  if isYard pa && decide (0x4000000 ≤ (pa - yardBase) % 0x8000000) then
    some (BitVec.ofNat 2 ((pa - yardBase) / 0x8000000), BitVec.ofNat 10 ((pa - yardBase) % 0x4000000 / 0x10000))
  else none

/-- A NOTIFY register is written by one access of 8 bytes at the start of its page (R370). -/
def notifyAt (pa size : Nat) : Option (BitVec 2 × BitVec 10) := if size = 8 ∧ pa % 2 ^ 16 = 0 then notifyOf pa else none

/-- The key at which the bytes of a PA lie: through a valid aperture at the remote device's address, which two apertures may share; any
other PA is its own key (R393). -/
def keyOf (s : State) (pa : Nat) : Nat :=
  if isAperture pa then
    match s.pkg.apertures.find? (fun a => a.num == (pa - 2 ^ 51) / 2 ^ 40) with
    | some a => remoteKey a.device a.rbase (pa % 2 ^ 40)
    | none => pa
  else pa

/-- No route leads to the bytes at a key: an aperture without a valid entry, or a device that no plane and no scale-out port reaches
(R89, R393, R451). -/
def noRoute (s : State) (k : Nat) : Bool :=
  isAperture k || (decide (2 ^ 80 ≤ k) && !(s.pkg.ports.any Port.up || Config.scaleOut (BitVec.ofNat 22 ((k - 2 ^ 80) / 2 ^ 52))))

/-- Whether an entry at a level is malformed (R395). -/
def pteMalformed (e : Word64) (level : Nat) : Bool :=
  let n := e.toNat
  let leaf := bitAt n 1
  let frame := bitsOf n 14 38 * 2 ^ 14
  bitsOf n 52 4 != 0 || (leaf && level == 0) || (!leaf && level == 3) || (!leaf && bitsOf n 2 12 != 0) ||
    (!leaf && level == 0 && bitsOf n 14 2 != 0) ||
    (leaf && level == 1 && frame % 2 ^ 30 != 0) || (leaf && level == 2 && frame % 2 ^ 21 != 0) ||
    (leaf && level == 3 && frame % 2 ^ 16 != 0) ||
    !(isLpddr frame || isAperture frame || isYard frame) ||
    (bitAt n 2 && bitAt n 3) || (bitsOf n 6 2 != 0 && level != 3)

/-- Where a walk ends. -/
inductive Walk where
  | leaf (e : Word64) (level : Nat) (pte : Nat)
  | fail (cause : BitVec 8)
  deriving DecidableEq, Repr

/-- The low bit of the index of each level and its width, outermost first (R394). -/
def walkLevels : List (Nat × Nat × Nat) := [(0, 43, 13), (1, 30, 13), (2, 21, 9), (3, 16, 5)]

/-- The logarithm of the page size of a leaf at a level (R394). -/
def levelLog (level : Nat) : Nat := match level with | 1 => 30 | 2 => 21 | _ => 16

/-- The walk of R396 from a table at `base`, each entry read whole (R400): not present first, then malformed. -/
def walkFrom (s : State) (va : Nat) : Nat → List (Nat × Nat × Nat) → Walk
  | _, [] => .fail causePermission
  | base, (level, lo, w) :: rest =>
    let pte := base + 8 * bitsOf va lo w
    let e := memWord s.mem (keyOf s pte)
    if !e.getLsbD 0 then .fail causeNotPresent
    else if pteMalformed e level then .fail causePermission
    else if e.getLsbD 1 then .leaf e level pte
    else walkFrom s va (bitsOf e.toNat 14 38 * 2 ^ 14) rest

/-- The queue entry of a queue as its yard holds it. -/
def queueOf (s : State) (die : BitVec 2) (queue : BitVec 10) : Option Queue :=
  (s.pkg.yards.get die).queues.find? (fun x => x.num == queue)

/-- PTROOT of a queue (R373). -/
def ptRoot (s : State) (die : BitVec 2) (queue : BitVec 10) : Nat :=
  match queueOf s die queue with
  | some x => bitsOf x.entry.toNat 64 52
  | none => 0

/-- The PA of the frame that an entry names (R395). -/
def leafFrame (e : Word64) : Nat := bitsOf e.toNat 14 38 * 2 ^ 14

/-- The last two checks of R396 on a leaf for a page of 2^logSize bytes: a refused write (or a yard-window frame other than a NOTIFYn page, which
is one of 64 KiB), then the world. -/
def leafCheck (e : Word64) (logSize : Nat) (world : BitVec 6) (write : Bool) : Option (BitVec 8) :=
  if write && !e.getLsbD 2 then some causePermission
  else if isYard (leafFrame e) && ((notifyOf (leafFrame e)).isNone || logSize != 16) then some causePermission
  else if e.extractLsb 13 8 ≠ world then some causeWorld
  else none

/-- The result of a translation: the PA and its leaf entry, or the cause of the fault. -/
inductive Xlate where
  | ok (pa : Nat) (leaf : Word64)
  | fail (cause : BitVec 8)
  deriving DecidableEq, Repr

/-- The PA of a VA under a leaf. -/
def leafPa (e : Word64) (logSize : Nat) (va : Nat) : Nat := bitsOf e.toNat 14 38 * 2 ^ 14 / 2 ^ logSize * 2 ^ logSize + va % 2 ^ logSize

/-- The address space of a queue (R397). -/
def spaceOf (die : BitVec 2) (queue : BitVec 10) : BitVec 12 := die ++ queue

/-- A cached translation for the VA (R397). -/
def tlbFind (s : State) (world : BitVec 6) (space : BitVec 12) (va : Nat) : Option TlbEntry :=
  s.core.tlb.find? (fun t => t.world == world && (t.space == none || t.space == some space) &&
    t.va == va / 2 ^ t.logSize * 2 ^ t.logSize)

/-- Entries that the translation cache holds (R397). -/
def tlbSize : Nat := 256

/-- A translation by the page tables alone, for parties without this core's cache (R369, R398). -/
def translateWalk (s : State) (die : BitVec 2) (queue : BitVec 10) (world : BitVec 6) (va : Nat) (write : Bool) : Xlate :=
  match walkFrom s va (ptRoot s die queue) walkLevels with
  | .fail c => .fail c
  | .leaf e level _ =>
    match leafCheck e (levelLog level) world write with
    | some c => .fail c
    | none => .ok (leafPa e (levelLog level) va) e

/-- A translation of this core's task through its translation cache; a leaf that passes every check is cached, the oldest
entry leaving a full cache (R397, R399; DESIGN CHOICE, log 12). -/
def translate (s : State) (va : Nat) (write : Bool) : State × Xlate :=
  let id := s.task.ident
  let space := spaceOf id.die id.queue
  match tlbFind s id.world space va with
  | some t =>
    match leafCheck t.leaf t.logSize id.world write with
    | some c => (s, .fail c)
    | none => (s, .ok (leafPa t.leaf t.logSize va) t.leaf)
  | none =>
    match walkFrom s va (ptRoot s id.die id.queue) walkLevels with
    | .fail c => (s, .fail c)
    | .leaf e level _ =>
      let k := levelLog level
      match leafCheck e k id.world write with
      | some c => (s, .fail c)
      | none =>
        let t : TlbEntry := { world := id.world, space := if e.getLsbD 4 then none else some space
                              va := va / 2 ^ k * 2 ^ k, leaf := e, logSize := k }
        ({ s with core := { s.core with tlb := (t :: s.core.tlb).take tlbSize } }, .ok (leafPa e k va) e)

/-! ## What an access leaves in the caches and the tier directory -/

/-- The home slice of a line (R63). -/
def homeSlice (pa : Nat) (hinted : Bool) : Nat :=
  if hinted then bitsOf pa 16 6 ^^^ bitsOf pa 22 6
  else bitsOf pa 7 6 ^^^ bitsOf pa 13 6 ^^^ bitsOf pa 19 6 ^^^ bitsOf pa 25 6

/-- The home slice of a tier-managed page (R63). -/
def pageSlice (frame : Nat) : Nat := homeSlice (frame * 2 ^ 16) true

/-- HOT pages of a slice, those on their way in or out among them. -/
def hotIn (e : TierEngine) (slice : Nat) : List TierPage :=
  e.pages.filter (fun p => pageSlice p.frame == slice &&
    (decide (p.state = .hot) || (decide (p.state = .moving) && (decide (p.source = .hot) || decide (p.target = .hot)))))

/-- HOTWAYS of a policy (R408). -/
def tierHotWays (c : Word64) : Nat := bitsOf c.toNat 12 4

/-- The reserved ways of a die's slices (R65): HOTWAYS, and the ways in effect before it was lowered until the pages in those that it releases
have been demoted, so that no slice holds more HOT pages than the ways that are left take and no line of one stands above them (R408; DEDUCED,
log 59). -/
def waysHeld (s : State) (die : BitVec 2) : Nat :=
  let e := s.pkg.tiers.get die
  let c := tierHotWays e.ctl
  if e.ways ≤ c then c
  else if (upTo 64).all (fun slice => decide ((hotIn e slice).length ≤ 2 * c)) &&
      s.pkg.l2.all (fun l => !(l.hot && l.line / 2 ^ 33 == die.toNat && decide (c ≤ l.way))) then c
  else e.ways

/-- The region class of a PA: the lowest-numbered region that holds it (R387). -/
def regionClass (s : State) (die : BitVec 2) (pa : Nat) : Option Nat :=
  let base := (s.pkg.yards.get die).regBase.toNat
  if base = 0 then none
  else findFrom (fun i => decide ((memWord s.mem (base + 16 * i)).toNat ≤ pa) &&
    decide (pa < (memWord s.mem (base + 16 * i + 8)).toNat)) 0 (upTo 16)

/-- The rank of a PA in the die's current phase; 0 outside every region (R64, R387). -/
def rankOf (s : State) (die : BitVec 2) (pa : Nat) : Nat :=
  let y := s.pkg.yards.get die
  match regionClass s die pa with
  | some c => if y.schedBase.toNat = 0 then 0 else bitsOf (memWord s.mem (y.schedBase.toNat + 8 * y.phase.toNat)).toNat (4 * c) 4
  | none => 0

/-- The victim among the lines of a full set: lowest rank, then earliest allocated, then lower way (R64). R64 orders only the lines of
the current phase by age; the model takes one order of allocation over all phases (DESIGN CHOICE, log 15). -/
def l2Victim (s : State) (die : BitVec 2) : List L2Line → Option L2Line
  | [] => none
  | a :: t =>
    match l2Victim s die t with
    | none => some a
    | some b =>
      let ra := rankOf s die (a.line * 128)
      let rb := rankOf s die (b.line * 128)
      if ra < rb ∨ (ra = rb ∧ (a.order < b.order ∨ (a.order = b.order ∧ a.way ≤ b.way))) then some a else some b

/-- The lowest way from `k` that no line of the set uses. R55 and R64 do not say which free way a refill, a moved page or a fill takes, and the
model takes this one (DESIGN CHOICE, log 15). -/
def freeWay (ways : List Nat) (k : Nat) : Nat → Option Nat
  | 0 => none
  | n + 1 => if ways.contains k then freeWay ways (k + 1) n else some k

/-- A page that its tier directory has as HOT (R409). -/
def hotPage (s : State) (pa : Nat) : Bool :=
  [0#2, 1#2, 2#2, 3#2].any (fun d => (s.pkg.tiers.get d).pages.any (fun p => p.frame == pa / 2 ^ 16 && decide (p.state = .hot)))

/-- The key at which a tier-managed page lies: a COLD one behind its aperture (R393, R409). -/
def tierKey (s : State) (p : TierPage) : Nat := keyOf s (p.frame * 2 ^ 16)

/-- A tier-managed page holds the byte at a key. -/
def tierHolds (s : State) (k : Nat) (p : TierPage) : Bool := tierKey s p == k / 2 ^ 16 * 2 ^ 16

/-- A tier directory has the page that holds the byte at a key. -/
def tierManaged (s : State) (k : Nat) : Bool := s.pkg.tiers.toList.any (fun e => e.pages.any (tierHolds s k))

/-- An access or a fill of a line in L2 (R63 to R65): a line held keeps its rank and age; a line not held takes a free way or
that of the victim; a set whose ways all have rank 15 takes no line. The ways of the hot reserve take lines of HOT pages alone, a line left
there from before the reserve grew giving way to one (R65, R409). -/
def l2Touch (s : State) (pa : Nat) (world : BitVec 6) (hinted write : Bool) : State :=
  if !isLpddr pa then s
  else
    let line := pa / 128
    let die := BitVec.ofNat 2 (pa / 2 ^ 40)
    match s.pkg.l2.find? (fun l => l.line == line && l.world == world) with
    | some _ =>
      if write then
        s.withPkg { s.pkg with l2 := updFirst (fun l => l.line == line && l.world == world) (fun l => { l with dirty := true }) s.pkg.l2 }
      else s
    | none =>
      let slice := homeSlice pa hinted
      let set := Config.l2Set line % 1024
      let hotWays := waysHeld s die
      let here := fun (l : L2Line) => l.slice == slice && l.set == set && l.line / 2 ^ 33 == line / 2 ^ 33
      let mates := s.pkg.l2.filter (fun l => here l && decide (hotWays ≤ l.way))
      let hot := hotPage s pa
      let mk := fun (w : Nat) => ({ line := line, slice := slice, set := set, way := w, phase := 0, order := s.pkg.allocs,
                                    world := world, dirty := write, hot := hot } : L2Line)
      if hot then
        match freeWay ((s.pkg.l2.filter (fun l => here l && l.hot)).map L2Line.way) 0 hotWays with
        | some w => s.withPkg { s.pkg with l2 := mk w :: s.pkg.l2.filter (fun l => !(here l && l.way == w)), allocs := s.pkg.allocs + 1 }
        | none => s
      else
      match freeWay (mates.map L2Line.way) hotWays (24 - hotWays) with
      | some w => s.withPkg { s.pkg with l2 := mk w :: s.pkg.l2, allocs := s.pkg.allocs + 1 }
      | none =>
        match l2Victim s die mates with
        | none => s
        | some v =>
          if rankOf s die (v.line * 128) = 15 then s
          else s.withPkg { s.pkg with l2 := mk v.way :: s.pkg.l2.filter (fun l => !decide (l = v)), allocs := s.pkg.allocs + 1 }

/-- An access counted in the heat of its tier-managed page (R407), and a write met by a migration under way (R66). -/
def heatTouch (s : State) (k : Nat) (write : Bool) : State :=
  if tierManaged s k then
    let bump := fun (p : TierPage) =>
      { p with
        heat := if p.heat.toNat = 65535 then p.heat else p.heat + 1
        aborted := p.aborted || (write && decide (p.state = .moving)) }
    s.withPkg { s.pkg with tiers := s.pkg.tiers.map (fun e => { e with pages := updFirst (tierHolds s k) bump e.pages }) }
  else s

/-! ## Requests to other devices (R450, R451, R453) -/

/-- The flits of a replay buffer (R450). -/
def replayDepth : Nat := 256

/-- A request sent on a port: its flit is counted and kept in the replay buffer, the oldest leaving it (R450, R453). -/
def Port.send (p : Port) (r : OutReq) : Port :=
  let l := p.sent ++ [(p.nextTx, r)]
  { p with flitsTx := p.flitsTx + 1, nextTx := p.nextTx + 1, sent := l.drop (l.length - replayDepth) }

/-- A port changed. -/
def updPort (s : State) (n : Nat) (f : Port → Port) : State :=
  if h : n < 18 then s.withPkg { s.pkg with ports := s.pkg.ports.set n (f s.pkg.ports[n]) h } else s

/-- The port on which the requests to a device go: the first one whose plane is up, so that those of one sequencer keep their order (R451;
DESIGN CHOICE, log 49). -/
def portFor (s : State) : Option Nat := s.pkg.ports.toList.findIdx? Port.up

/-- The number of the next request to a device, or from one (R451). -/
def numFor (l : List (BitVec 22 × Nat)) (d : BitVec 22) : Nat := ((l.find? (fun p => p.1 == d)).map Prod.snd).getD 0

/-- That number set. -/
def numPut (l : List (BitVec 22 × Nat)) (d : BitVec 22) (n : Nat) : List (BitVec 22 × Nat) := (d, n) :: l.filter (fun p => p.1 != d)

/-- An access of bytes of another device leaves the package, as a numbered request in a flit, or as a frame of a scale-out port
(R451, R453, ch. 20). -/
def linkSend (s : State) (k size : Nat) (write : Bool) : State :=
  let d := BitVec.ofNat 22 ((k - 2 ^ 80) / 2 ^ 52)
  if Config.scaleOut d then
    s.withPkg { s.pkg with gbe := s.pkg.gbe.set (d.truncate 3) { s.pkg.gbe.get (d.truncate 3) with framesTx := (s.pkg.gbe.get (d.truncate 3)).framesTx + 1 } }
  else
    match portFor s with
    | some n =>
      let m := numFor s.pkg.linkNum d
      let r : OutReq := { target := d, num := m, key := k, size := size, write := write }
      updPort (s.withPkg { s.pkg with linkNum := numPut s.pkg.linkNum d (m + 1) }) n (fun p => p.send r)
    | none => s

/-- Bytes that lie in this package or in another device, and not in a scratchpad frame or the loft. -/
def isShared (k : Nat) : Bool := decide (k < 2 ^ 60) || decide (2 ^ 80 ≤ k)

/-- One access of a line of global memory by a party of `world`; a page under a tier hint is homed whole, whoever reaches it (R63). -/
def touch (s : State) (k : Nat) (world : BitVec 6) (leaf : Word64) (write : Bool) : State :=
  let s1 := if 2 ^ 80 ≤ k then linkSend s k 128 write else s
  heatTouch (l2Touch s1 k world (leaf.extractLsb 7 6 != 0 || tierManaged s k) write) k write

/-! ## Late writes (R82) -/

/-- How long a write may take to perform at the home of its bytes (R89). -/
def writeBound (k : Nat) : Nat := if 2 ^ 80 ≤ k then 250000 else if 2 ^ 60 ≤ k then 2500 else 25000

/-- The bound of a write has not passed. -/
def OldBytes.open_ (o : OldBytes) (time : Word64) : Bool := decide ((time - o.time).toNat < writeBound o.key)

/-- The bytes that a write at a key is about to replace, kept until its bound has passed: the write is in memory, and an engine's read that
no order puts after it may still find what was there before (R82, R89; DESIGN CHOICE, log 2). -/
def State.remember (s : State) (by_ : Option (SeqId × BitVec 4)) (k n : Nat) : State :=
  let o : OldBytes := { num := s.nextId, by_ := by_, time := s.time, key := k, size := n
                        cells := s.mem.filter (fun c => decide (k ≤ c.1) && decide (c.1 < k + n)) }
  { s with nextId := s.nextId + 1, core := { s.core with olds := s.core.olds.filter (fun x => x.open_ s.time || s.task.jobs.any StreamJob.held) ++ [o] } }

/-- The bytes of a range of keys go elsewhere, and with them what late writes replaced there. -/
def State.forget (s : State) (k n : Nat) : State :=
  { s with core := { s.core with olds := s.core.olds.filter (fun o => !(decide (o.key < k + n) && decide (k < o.key + o.size))) } }

/-- A command of `q` on a path is issued: every write made before a FENCEX that orders the path comes before its reads (R81). -/
def State.ordered (s : State) (q : SeqId) (path : BitVec 3) : State :=
  let sq := s.seq q
  if sq.newFence.getLsbD path.toNat then
    s.withSeq q { sq with newFence := sq.newFence &&& ~~~(1#8 <<< path.toNat), seen := sq.seen.set path (s.nextId + 1) }
  else s

/-- The late writes that nothing puts before the reads of `q` on a path, oldest first. -/
def State.late (s : State) (q : SeqId) (path : BitVec 3) : List OldBytes :=
  s.core.olds.filter (fun o => o.open_ s.time && decide ((s.seq q).seen.get path ≤ o.num))

/-- The byte at a key before the given writes were made. -/
def pastByte (late : List OldBytes) (m : List Host.Cell) (k : Nat) : BitVec 8 :=
  match late.find? (fun o => decide (o.key ≤ k) && decide (k < o.key + o.size)) with
  | some o => cellGet memDefault o.cells k
  | none => memGet m k

/-- The byte at a key as a read with granules of `g` bytes finds it: after all of those writes, or before some of the last of them, by the free
choice of R82. -/
def State.seenByte (s : State) (late : List OldBytes) (g k : Nat) : BitVec 8 :=
  pastByte (late.drop (late.length - Config.pick s.freeCtr (2 ^ 64 + k / g) (late.length + 1) % (late.length + 1))) s.mem k

/-- Those of them that touch one of `n` bytes at a key. -/
def State.lateOn (s : State) (q : SeqId) (path : BitVec 3) (k n : Nat) : List OldBytes :=
  (s.late q path).filter (fun o => decide (o.key < k + n) && decide (k < o.key + o.size))

/-- The value of `n` bytes at a key as a command of `q` reads them on a path, byte `i` in granules of `g i` bytes (R73, R82). -/
def State.readLate (s : State) (q : SeqId) (path : BitVec 3) (g : Nat → Nat) (k n : Nat) : Nat :=
  if isYard k then 0
  else if s.lateOn q path k n = [] then s.load k n
  else packBits 8 ((upTo n).map (fun i => (s.seenByte (s.lateOn q path k n) (g i) (k + i)).toNat))

/-- The order puts a late write before a load of `q` in class `oc` of `n` bytes at a key: an engine's write, in this model, one that a point
of order or an earlier load has put there, and a store of `q` itself in that class or to one of those bytes (R72, R74, R76). -/
def OldBytes.before (o : OldBytes) (s : State) (q : SeqId) (oc : BitVec 4) (k n : Nat) : Bool :=
  decide (o.num < (s.seq q).seen.get 0) || (s.seq q).newFence.getLsbD 0 ||
    match o.by_ with
    | some (p, c) => decide (p = q) && (decide (c = oc) || (decide (o.key < k + n) && decide (k < o.key + o.size)))
    | none => true

/-- The late writes to `n` bytes at a key that a load of `q` in class `oc` may pass, oldest first: those made after every write that comes
before the load. An invariant load may pass every one (R88). -/
def State.passable (s : State) (q : SeqId) (oc : BitVec 4) (inv : Bool) (k n : Nat) : List OldBytes :=
  ((s.core.olds.filter (fun o => o.open_ s.time)).foldl (fun l o => if !inv && o.before s q oc k n then [] else l ++ [o]) []).filter
    (fun o => decide (o.key < k + n) && decide (k < o.key + o.size))

/-- Those of them that a load passes, by the free choice of R5: the last so many. -/
def State.passed (s : State) (q : SeqId) (oc : BitVec 4) (inv : Bool) (k n : Nat) : List OldBytes :=
  let l := s.passable q oc inv k n
  l.drop (l.length - Config.pick s.freeCtr (2 ^ 64 + k) (l.length + 1) % (l.length + 1))

/-- The value that a load of `q` in class `oc` finds in `n` bytes at a key, at one moment (R73): as they are, or as they were before the
writes that it passes (R75, R76; DESIGN CHOICE, log 2). -/
def State.loadPlain (s : State) (q : SeqId) (oc : BitVec 4) (inv : Bool) (k n : Nat) : Nat :=
  if isYard k then 0
  else if s.passed q oc inv k n = [] then s.load k n
  else packBits 8 ((upTo n).map (fun i => (pastByte (s.passed q oc inv k n) s.mem (k + i)).toNat))

/-- A load is fixed at its moment: later loads of the sequencer come after it, whatever they read, so that one that needs its value does
(R74); an invariant load orders none (R88). -/
def State.fixLoad (s : State) (q : SeqId) (oc : BitVec 4) (inv : Bool) (k n : Nat) : State :=
  if inv then s
  else s.withSeq q { s.seq q with
    newFence := (s.seq q).newFence &&& 0xFE
    seen := (s.seq q).seen.set 0 (match (s.passed q oc inv k n).head? with | some o => o.num | none => s.nextId) }

/-- The value that `n` bytes at a key end with after a write of `v` by a command of `q` on a path: a byte that an unordered late write gave may
keep that write's value (R82). -/
def State.writeLate (s : State) (q : SeqId) (path : BitVec 3) (k n v : Nat) : Nat :=
  if s.lateOn q path k n = [] then v
  else packBits 8 ((upTo n).map (fun i =>
    if (s.lateOn q path k n).any (fun o => decide (o.key ≤ k + i) && decide (k + i < o.key + o.size)) && decide (Config.pick s.freeCtr (2 ^ 64 + k + i) 2 % 2 = 1) then
      (memGet s.mem (k + i)).toNat
    else bitsOf v (8 * i) 8))

/-- The value of `n` bytes at a key without any write since the task was resumed: what an access finds that it issued before the halt (R91). -/
def State.readPast (s : State) (k n : Nat) : Nat :=
  if isYard k then 0 else packBits 8 ((upTo n).map (fun i => (pastByte s.core.olds s.mem (k + i)).toNat))

/-- The value that `n` bytes end with after a write of `v` that was issued before the halt: what the task has written since it was resumed
stands (R91). -/
def State.writePast (s : State) (k n v : Nat) : Nat :=
  packBits 8 ((upTo n).map (fun i =>
    if s.core.olds.any (fun o => decide (o.key ≤ k + i) && decide (k + i < o.key + o.size)) then (memGet s.mem (k + i)).toNat else bitsOf v (8 * i) 8))

/-! ## Scratchpad residency -/

/-- The frame that holds a page of this core's task, if it is resident (R53). -/
def frameOf (s : State) (page : Nat) : Option Resident :=
  s.core.resident.find? (fun r => decide (r.owner = s.task.ident.owner) && r.page.toNat == page)

/-- A page of this core's task is resident (R53). -/
def resident (s : State) (page : Nat) : Bool := (frameOf s page).isSome

/-- The key of a frame's first byte: page p lies in bank p mod 16 (R53). -/
def frameKey (r : Resident) : Nat := ownKey ((r.way * 16 + r.page.toNat % 16) * 2 ^ 14)

/-- The pin limit per bank (R53, R56). -/
def pinLimit (ways : Nat) : Nat := if ways = 0 then 8 else if ways ≤ 7 then 7 - ways else 0

/-- The backing PA of a scratchpad page of a task (R54, R380), by its queue's tables. -/
def backingPa (s : State) (die : BitVec 2) (queue : BitVec 10) (world : BitVec 6) (base : BitVec 56) (task : Word64) (page : Nat) :
    Option Nat :=
  match translateWalk s die queue world ((base.toNat + task.toNat * 2 ^ 21 + page * 2 ^ 14) % 2 ^ 56) true with
  | .ok pa _ => some (keyOf s pa)
  | .fail _ => none

/-- The backing PA of a page of this core's task. -/
def ownBacking (s : State) (page : Nat) : Option Nat :=
  let id := s.task.ident
  backingPa s id.die id.queue id.world id.scrBase id.taskId page

/-- The failing units after `n` bytes have moved, as a whole, from one key to another: those that they replace read clean, those that they bring
fail there too, a line under a tag as its words, since the move gives it no tag of its own (R55, R436, R458). -/
def badMove (bad : List (Nat × BitVec 8)) (src dst n : Nat) : List (Nat × BitVec 8) :=
  (bad.filter (fun u => decide (src ≤ u.1) && decide (u.1 < src + n))).flatMap (fun u =>
    (upTo (unitSize u.2 / 8)).map (fun i => (u.1 - src + dst + 8 * i, causeDataUncorrectable))) ++
    (bad.filter (fun u => !(decide (src ≤ u.1) && decide (u.1 < src + n)) || decide (src < 2 ^ 60))).filter (fun u =>
      !(decide (dst ≤ u.1) && decide (u.1 < dst + n)))

/-- A page's bytes moved between a frame and another place, with the units that fail (R55, R458). -/
def State.movePage (s : State) (src dst : Nat) : State :=
  { (s.forget src (2 ^ 14)).forget dst (2 ^ 14) with mem := cellCopy memDefault s.mem src dst (2 ^ 14), bad := badMove s.bad src dst (2 ^ 14) }

/-- A frame emptied. -/
def State.clearFrame (s : State) (k : Nat) : State :=
  { s with mem := cellClear s.mem k (2 ^ 14), bad := s.bad.filter (fun u => !(decide (k ≤ u.1) && decide (u.1 < k + 2 ^ 14))) }

/-- A resident page leaves its frame: its bytes go to its owner's backing region (R55). A backing page that cannot be translated takes
none of them: R55 does not say what happens there, and the model drops them (DESIGN CHOICE, log 51). -/
def evictFrame (s : State) (r : Resident) : State :=
  let s1 := { s with core := { s.core with resident := s.core.resident.filter (fun x => !decide (x = r)) } }
  let o := r.owner
  let s2 := match backingPa s o.die o.queue o.world o.scrBase o.task r.page.toNat with
    | some pa => s1.movePage (frameKey r) pa
    | none => s1
  s2.clearFrame (frameKey r)

/-- A resident page of this core's task leaves its frame. -/
def evictPage (s : State) (page : Nat) : State :=
  match frameOf s page with
  | some r => evictFrame s r
  | none => s

/-- The ways of scratchpad frames that a bank has (R51, R53). -/
def frameWays (s : State) : Nat := 8 - s.task.split.toNat

/-- The pages resident in a page's bank, whoever owns them. -/
def bankMates (s : State) (page : Nat) : List Resident := s.core.resident.filter (fun r => r.page.toNat % 16 == page % 16)

/-- The victim of a refill in a full bank: the unpinned page refilled earliest, then the lower way (R55); the pins of a saved task are
released (R57). -/
def refillVictim (owner : PageOwner) (pins : List (BitVec 7)) : List Resident → Option Resident
  | [] => none
  | a :: t =>
    if a.owner = owner ∧ pins.contains a.page then refillVictim owner pins t
    else
      match refillVictim owner pins t with
      | none => some a
      | some b => if a.order < b.order ∨ (a.order = b.order ∧ a.way ≤ b.way) then some a else some b

/-- A page refilled into a free frame of its bank, the lowest way among several (DESIGN CHOICE, log 15), or into that of the victim (R55). Without a frame nothing happens; a backing page that
cannot be translated leaves the frame zero (DESIGN CHOICE, log 51). -/
def refillPage (s : State) (page : Nat) : State :=
  if resident s page then s
  else
    let mates := bankMates s page
    let place := fun (s : State) (w : Nat) =>
      let r : Resident := { owner := s.task.ident.owner, page := BitVec.ofNat 7 page, way := w, order := s.nextId }
      let s1 := { s with core := { s.core with resident := r :: s.core.resident }, nextId := s.nextId + 1 }
      match ownBacking s page with
      | some pa => s1.movePage pa (frameKey r)
      | none => s1.clearFrame (frameKey r)
    match freeWay (mates.map Resident.way) 0 (frameWays s) with
    | some w => place s w
    | none =>
      match refillVictim s.task.ident.owner s.task.pins mates with
      | some v => if frameWays s = 0 then s else place (evictFrame s v) v.way
      | none => s

/-! ## The four spaces -/

/-- Where an access goes: a memory key, a stall, or a fault. -/
inductive Place where
  | key (k : Nat) (leaf : Word64)
  | stall (why : Stall)
  | fault (cause : BitVec 8)
  deriving DecidableEq, Repr

/-- The SPLIT that gives every way to L1 leaves no scratchpad (R53). -/
def noScratch (s : State) : Bool := s.task.split == 8

/-- The state with the page of another task in place of this core's, for an access that goes to it. -/
def peerBacking (s : State) (o : PageOwner) (page : Nat) : Option Nat := backingPa s o.die o.queue o.world o.scrBase o.task page

/-- A byte of this core's own pages (R50, R54); for a saved task whose page has left its frame, in the backing region, where an engine
that goes on for it finds it (R44). -/
def ownPlace (s : State) (a : Nat) : Place :=
  if noScratch s then .fault causeScratchRange
  else
    match frameOf s (a / 2 ^ 14) with
    | some r => .key (frameKey r + a % 2 ^ 14) 0
    | none =>
      if s.core.run = .saved then
        match ownBacking s (a / 2 ^ 14) with
        | some k => .key (k + a % 2 ^ 14) 0
        | none => .fault causeScratchRange
      else .stall (.page (BitVec.ofNat 7 (a / 2 ^ 14)))

/-- The key of a byte of the pages of the state's task, wherever its page lives: in its frame, else in the backing region (R50). -/
def taskByte (s : State) (a : Nat) : Option Nat :=
  match frameOf s (a / 2 ^ 14) with
  | some r => some (frameKey r + a % 2 ^ 14)
  | none => (ownBacking s (a / 2 ^ 14)).map (fun k => k + a % 2 ^ 14)

/-- A cluster access to a peer's pages (R50): the checks of world, launch and residence, then the page's bytes in the peer's
backing region, which is where the model keeps them (DESIGN CHOICE, log 1). -/
def peerPlace (s : State) (p : Peer) (a : Nat) : Place :=
  let id := s.task.ident
  if p.world ≠ id.world then .fault causeWorld
  else if p.lid ≠ id.lid then .fault causeScratchRange
  else if !p.resident || p.split == 8 then .fault causeScratchRange
  else
    match backingPa s p.die p.queue p.world p.scrBase p.task (a / 2 ^ 14) with
    | some pa => .key (pa + a % 2 ^ 14) 0
    | none => .fault causeScratchRange

/-- A bank that the programming engine or the farrier engine holds: loft reads of it wait (R433, R462). -/
def bankHeld (s : State) (bank : Nat) : Bool := s.pkg.loft.held.contains bank || s.pkg.farrier.claimed.contains bank

/-- The place of the bytes at an address of a space, after alignment: address form (R47), then translation, then world. -/
def place (s : State) (sp : BitVec 2) (addr : Nat) (write : Bool) : State × Place :=
  match sp.toNat with
  | 0 => (s, if 2 ^ 21 ≤ addr then .fault causeScratchRange else ownPlace s addr)
  | 1 =>
    (s, if 2 ^ 21 ≤ addr then .fault causeScratchRange
        else match clusterTarget s (addr / 2 ^ 16) with
          | some (.inl ()) => ownPlace s (addr % 2 ^ 16)
          | some (.inr p) => peerPlace s p (addr % 2 ^ 16)
          | none => .fault causeScratchRange)
  | 2 =>
    if 2 ^ 56 ≤ addr then (s, .fault causePermission)
    else
      match translate s addr write with
      | (s1, .ok pa leaf) => (s1, .key (keyOf s pa) leaf)
      | (s1, .fail c) => (s1, .fault c)
  | _ =>
    (s, if 2 ^ 39 ≤ addr then .fault causePermission
        else
          let e := cellGet (0 : BitVec 8) s.pkg.loft.owner (addr / 2 ^ 24)
          let st := e.extractLsb 7 6
          if st = 3 then .fault causeLoftRead
          else if st = 1 ∧ e.extractLsb 5 0 = s.task.ident.world then
            (if bankHeld s (addr / 2 ^ 30) then .stall .engine else .key (loftKey addr) 0)
          else .fault causeWorld)

/-- The whole check of an access of `size` bytes: MISALIGNED first (R48), then the place. -/
def checkAccess (s : State) (sp : BitVec 2) (addr size : Nat) (write : Bool) : State × Place :=
  if addr % size ≠ 0 then (s, .fault causeMisaligned) else place s sp addr write

/-- The place of an access of cluster space whose target was found at its issue: nothing is checked any more, and the access is made at the
target's page, or at its backing region where it lies in no frame of this core, ended or not (R50). -/
def settledPlace (s : State) (o : PageOwner) (a : Nat) : Place :=
  match s.core.resident.find? (fun r => decide (r.owner = o) && r.page.toNat == a / 2 ^ 14) with
  | some r => .key (frameKey r + a % 2 ^ 14) 0
  | none =>
    if decide (o = s.task.ident.owner) && decide (s.core.run ≠ .saved) && !noScratch s then .stall (.page (BitVec.ofNat 7 (a / 2 ^ 14)))
    else match peerBacking s o (a / 2 ^ 14) with
      | some k => .key (k + a % 2 ^ 14) 0
      | none => .fault causeScratchRange

/-- The check of an access that is made after its issue: for cluster space its target stands as found then (R50), for any other space it is
checked now. -/
def checkLater (s : State) (home : Option PageOwner) (sp : BitVec 2) (addr size : Nat) (write : Bool) : State × Place :=
  match home with
  | some o => (s, settledPlace s o (addr % 2 ^ 16))
  | none => checkAccess s sp addr size write

/-- The cause with which `size` bytes read at a key fail (R68, R226, R432, R436): an unreadable row of the loft, a failing unit of memory, an aperture without a route. -/
def readFails (s : State) (k size : Nat) : Option (BitVec 8) :=
  if isLoft k then
    let a := k - 2 ^ 61
    let b := a + (size - 1)
    if s.pkg.loft.unreadable.any (fun r => decide (a / 2 ^ 13 ≤ r) && decide (r ≤ b / 2 ^ 13)) ∨
        s.bad.any (fun u => decide (2 ^ 61 ≤ u.1) && decide (a / 1024 ≤ (u.1 - 2 ^ 61) / 1024) && decide ((u.1 - 2 ^ 61) / 1024 ≤ b / 1024)) then
      some causeLoftRead
    else none
  else if noRoute s k then some causeDataUncorrectable
  else badAt s.bad k size

/-- A read that has performed: heat and caches (R407). -/
def readTouch (s : State) (k : Nat) (leaf : Word64) : State :=
  if isShared k then touch s k s.task.ident.world leaf false else s

/-- A write to the yard window by a device: an 8-byte store to a NOTIFY register is a notify, and any other is ignored (R370, R377). -/
def yardStore (s : State) (k size : Nat) : State :=
  match notifyAt k size with
  | some (d, n) => { s with inputs := s.inputs ++ [.notify d n] }
  | none => s

/-- A write of `size` bytes of value `v` at a key, performed; an unreachable aperture takes nothing. A store or an atomic on path 0 names its
sequencer and its class. -/
def writeKeyBy (s : State) (by_ : Option (SeqId × BitVec 4)) (k size v : Nat) (leaf : Word64) : State :=
  if isYard k then yardStore s k size
  else if noRoute s k then s
  else
    let s1 := if isShared k then touch s k s.task.ident.world leaf true else s
    (s1.remember by_ k size).store k size v

/-- A write on another path. -/
def writeKey (s : State) (k size v : Nat) (leaf : Word64) : State := writeKeyBy s none k size v leaf

/-- A write that cannot perform because no route leads to its device: it is kept until its sequencer comes to a point that orders it (R89).
One that no such point can tell from an earlier one is not kept beside it. -/
def lostWrite (s : State) (o : Origin) (path : Nat) (oclass : BitVec 4) (slot : Option Nat) (key : Nat) (addr : Word64) : State :=
  if noRoute s key then
    let sq := s.seq o.q
    if sq.writeErr.any (fun w => w.path == path && w.oclass == oclass && w.slot == slot) then s
    else
      let w : LostWrite := { path := path, oclass := oclass, slot := slot, record := asyncRec s o (faultAt causeDataUncorrectable addr) }
      s.withSeq o.q { sq with writeErr := sq.writeErr ++ [w] }
  else s

/-- The value of `size` bytes at a key; the yard window reads zero (R370). -/
def readKey (s : State) (k size : Nat) : Nat := if isYard k then 0 else s.load k size

/-- A read of `size` bytes by an instruction at issue: the effect that needs its value. The failing cause, if any, goes to
the continuation (R226). -/
def withRead (s : State) (sp : BitVec 2) (addr size : Nat) (write : Bool)
    (k : State → Nat → Word64 → Nat → Option (BitVec 8) → Effect) : Effect :=
  match checkAccess s sp addr size write with
  | (_, .fault c) => .fail c (faddr sp (BitVec.ofNat 64 addr))
  | (_, .stall w) => .stall w
  | (s1, .key key leaf) => k (readTouch s1 key leaf) key leaf (readKey s1 key size) (readFails s1 key size)

/-- The latency bound of a location's space (R187). -/
def spaceBound (sp : BitVec 2) : Nat := match sp.toNat with | 0 => 6 | 1 => 40 | 2 => 256 | _ => 64

/-- The space and address of an object address (R231), when it is legal: bits [63:58] zero and not loft. -/
def objAddr (a : Word64) : Option (BitVec 2 × Nat) :=
  if a.extractLsb 63 58 ≠ 0 ∨ a.extractLsb 57 56 = 3#2 then none else some (a.extractLsb 57 56, (a.extractLsb 55 0).toNat)

/-- A poison for data read at an address of a space by the instruction `i`. -/
def poisonOf (c : BitVec 8) (sp : BitVec 2) (addr : Nat) (i : Instr) : Poison :=
  { cause := c, addr := faddr sp (BitVec.ofNat 64 addr), word := (encode i).headD 0 }

end Sys2Proof.Machine
end

