-- ==== Sys2Proof/Machine/Flags.lean ====
section
/-! DEFINITION. Flag computations: the conditions of CMP and CMPI (R201), the mask tests (R203) and the sticky flags of FFLAGS
(R132). -/

namespace Sys2Proof.Machine

open Sys2Proof

/-- The condition with code `c` between two values (R201). -/
def condHolds (c : BitVec 3) (a b : Word64) : Bool :=
  match c.toNat with
  | 0 => decide (a = b)
  | 1 => decide (a ≠ b)
  | 2 => decide (a.toInt < b.toInt)
  | 3 => decide (b.toInt ≤ a.toInt)
  | 4 => decide (a.toNat < b.toNat)
  | 5 => decide (b.toNat ≤ a.toNat)
  | 6 => decide (a &&& b ≠ 0)
  | _ => decide (a &&& b = 0)

/-- The tests of VANY, VALL and VNONE (R203). -/
def anySet (m : BitVec 64) : Bool := decide (m ≠ 0)
def allSet (m : BitVec 64) : Bool := decide (m = BitVec.allOnes 64)
def noneSet (m : BitVec 64) : Bool := decide (m = 0)

/-- The bits of FFLAGS (R132). -/
def flagNV : BitVec 7 := 0x01
def flagDZ : BitVec 7 := 0x02
def flagOF : BitVec 7 := 0x04
def flagUF : BitVec 7 := 0x08
def flagNX : BitVec 7 := 0x10
def flagSAT : BitVec 7 := 0x20
def flagMR : BitVec 7 := 0x40

end Sys2Proof.Machine
end

