-- ==== Sys2Proof/Machine/Numbers.lean ====
section
/-! DEFINITION. Numbers: floating-point formats and their exact values, rounding with its flags, the stochastic generator,
exact sums, products and comparisons, correctly rounded functions, conversions and residues (R107 to R133, R272 to R275). -/

namespace Sys2Proof.Machine

open Sys2Proof

/-! ## Types (R107) -/

/-- The width of a type code. -/
def typeWidth (t : BitVec 4) : Nat :=
  match t.toNat with
  | 0 => 8 | 1 => 16 | 2 => 32 | 3 => 64 | 4 => 8 | 5 => 16 | 6 => 32 | 7 => 64 | 8 => 32 | 9 => 16 | 10 => 16
  | 11 => 8 | 12 => 8 | 13 => 4 | 14 => 1 | _ => 64

def isF (t : BitVec 4) : Bool := t == 8 || t == 9 || t == 10
def isF8 (t : BitVec 4) : Bool := t == 11 || t == 12
def isInt (t : BitVec 4) : Bool := decide (t.toNat < 8)
def isSignedT (t : BitVec 4) : Bool := decide (t.toNat < 4)
def isFloat (t : BitVec 4) : Bool := decide (8 ≤ t.toNat) && decide (t.toNat ≤ 13)

/-- A floating-point format (R109): widths of E and M, bias, whether it has infinities and NaNs, its largest finite value. -/
structure Fmt where
  w : Nat
  eb : Nat
  mb : Nat
  bias : Int
  hasInf : Bool
  hasNan : Bool
  maxM : Nat
  maxE : Int
  deriving DecidableEq, Repr

def fmtF32 : Fmt := { w := 32, eb := 8, mb := 23, bias := 127, hasInf := true, hasNan := true, maxM := 2 ^ 24 - 1, maxE := 104 }
def fmtF16 : Fmt := { w := 16, eb := 5, mb := 10, bias := 15, hasInf := true, hasNan := true, maxM := 2 ^ 11 - 1, maxE := 5 }
def fmtBf16 : Fmt := { w := 16, eb := 8, mb := 7, bias := 127, hasInf := true, hasNan := true, maxM := 2 ^ 8 - 1, maxE := 120 }
def fmtE4m3 : Fmt := { w := 8, eb := 4, mb := 3, bias := 7, hasInf := false, hasNan := true, maxM := 14, maxE := 5 }
def fmtE5m2 : Fmt := { w := 8, eb := 5, mb := 2, bias := 15, hasInf := true, hasNan := true, maxM := 7, maxE := 13 }
def fmtE2m1 : Fmt := { w := 4, eb := 2, mb := 1, bias := 1, hasInf := false, hasNan := false, maxM := 3, maxE := 1 }

/-- The format of a floating-point type code. -/
def fmtOf (t : BitVec 4) : Fmt :=
  match t.toNat with
  | 9 => fmtBf16 | 10 => fmtF16 | 11 => fmtE4m3 | 12 => fmtE5m2 | 13 => fmtE2m1 | _ => fmtF32

/-! ## Exact values -/

/-- A value before rounding: a NaN and whether it signals, an infinity, or (-1)^neg * m * 2^e. With `sticky` the magnitude lies
strictly between m and m + 1 units of 2^e. -/
inductive Num where
  | nan (sig : Bool)
  | inf (neg : Bool)
  | fin (neg : Bool) (m : Nat) (e : Int) (sticky : Bool)
  deriving DecidableEq, Repr

/-- An exact value. -/
def Num.exact (neg : Bool) (m : Nat) (e : Int) : Num := .fin neg m e false

/-- An integer as a value; zero is +0. -/
def Num.ofInt (i : Int) : Num := .exact (decide (i < 0)) i.natAbs 0

def Num.isNan : Num → Bool
  | .nan _ => true
  | _ => false

def Num.isSig : Num → Bool
  | .nan b => b
  | _ => false

def Num.isInf : Num → Bool
  | .inf _ => true
  | _ => false

def Num.isNeg : Num → Bool
  | .nan _ => false
  | .inf n => n
  | .fin n _ _ _ => n

def Num.isZero : Num → Bool
  | .fin _ m _ s => m == 0 && !s
  | _ => false

/-- The value that a format's code stands for (R109, R110). -/
def decodeNum (f : Fmt) (bits : Nat) : Num :=
  let neg := bitAt bits (f.w - 1)
  let e := bitsOf bits f.mb f.eb
  let m := bitsOf bits 0 f.mb
  if f.hasInf && e == 2 ^ f.eb - 1 then (if m = 0 then .inf neg else .nan (decide (m < 2 ^ (f.mb - 1))))
  else if f.hasNan && e == 2 ^ f.eb - 1 && m == 2 ^ f.mb - 1 then .nan false
  else if e = 0 then .exact neg m (1 - f.bias - f.mb)
  else .exact neg (2 ^ f.mb + m) ((e : Int) - f.bias - f.mb)

/-- The canonical NaN of a format (R110). -/
def canonNan (f : Fmt) : Nat :=
  if f.hasInf then (2 ^ f.eb - 1) * 2 ^ f.mb + 2 ^ (f.mb - 1) else if f.hasNan then 0x7F else 0

/-- An infinity's code. -/
def infCode (f : Fmt) (neg : Bool) : Nat := (2 ^ f.eb - 1) * 2 ^ f.mb + neg.toNat * 2 ^ (f.w - 1)

/-- The code of the largest finite value. -/
def maxCode (f : Fmt) (neg : Bool) : Nat :=
  (if f.hasInf then (2 ^ f.eb - 1) * 2 ^ f.mb - 1 else if f.hasNan then 0x7E else 7) + neg.toNat * 2 ^ (f.w - 1)

/-! ## Rounding (R114 to R116) -/

/-- A value and the flags it raised. -/
abbrev Res := Nat × BitVec 7

/-- The magnitude m * 2^e as a multiple of 2^q under a mode, and whether it is inexact (R114, R116). -/
def roundAt (neg : Bool) (m : Nat) (e : Int) (sticky : Bool) (q : Int) (mode draw : Nat) : Nat × Bool :=
  if q ≤ e then (m * 2 ^ (e - q).toNat, sticky)
  else
    let sh := (q - e).toNat
    let n := m / 2 ^ sh
    let rem := m % 2 ^ sh
    let half := 2 ^ (sh - 1)
    let inexact := rem != 0 || sticky
    let up := match mode with
      | 0 => decide (half < rem) || (rem == half && (sticky || n % 2 == 1))
      | 1 => false
      | 2 => neg && inexact
      | 3 => !neg && inexact
      | 4 => decide (half ≤ rem)
      | _ => decide (2 ^ 16 ≤ rem * 2 ^ 16 / 2 ^ sh + draw)
    (n + up.toNat, inexact)

/-- The exponent of the leading bit. -/
def leadExp (m : Nat) (e : Int) : Int := (Nat.log2 m : Int) + e

/-- m * 2^e is greater than the largest finite value. -/
def overMax (f : Fmt) (m : Nat) (e : Int) : Bool :=
  if e ≤ f.maxE then decide (f.maxM * 2 ^ (f.maxE - e).toNat < m) else decide (f.maxM < m * 2 ^ (e - f.maxE).toNat)

/-- The result of an overflow (R115). -/
def overflowTo (f : Fmt) (mode : Nat) (sat neg : Bool) : Res :=
  if sat || !f.hasNan then (maxCode f neg, flagSAT ||| flagNX)
  else
    let toMax := mode = 1 ∨ (mode = 2 ∧ !neg) ∨ (mode = 3 ∧ neg)
    (if toMax then maxCode f neg else if f.hasInf then infCode f neg else canonNan f, flagOF ||| flagNX)

/-- The code of n * 2^q, which the format holds. -/
def codeOf (f : Fmt) (neg : Bool) (n : Nat) (q : Int) : Nat :=
  neg.toNat * 2 ^ (f.w - 1) +
    (if n < 2 ^ f.mb then n
     else
      let top := Nat.log2 n
      ((top : Int) + q + f.bias).toNat * 2 ^ f.mb + (n / 2 ^ (top - f.mb) - 2 ^ f.mb))

/-- RoundToFormat of R115. A NaN gives the canonical NaN; an infinity stays one where the format has it. -/
def roundTo (f : Fmt) (mode : Nat) (sat : Bool) (draw : Nat) : Num → Res
  | .nan _ => (canonNan f, 0)
  | .inf neg => if f.hasInf then (infCode f neg, 0) else overflowTo f mode sat neg
  | .fin neg m e sticky =>
    if m = 0 ∧ !sticky then (neg.toNat * 2 ^ (f.w - 1), 0)
    else
      let lead := leadExp m e
      let emin := 1 - f.bias
      let q0 := lead - f.mb
      let q := max q0 (emin - f.mb)
      let (n, inexact) := roundAt neg m e sticky q mode draw
      let (n0, _) := roundAt neg m e sticky q0 mode draw
      if overMax f n q then overflowTo f mode sat neg
      else
        let tiny := n0 = 0 ∨ leadExp n0 q0 < emin
        (codeOf f neg n q, (if inexact then flagNX else 0) ||| (if inexact ∧ tiny then flagUF else 0))

/-! ## The stochastic generator (R117) -/

/-- Step. -/
def srStep (s : Word64) : Word64 :=
  let a := s ^^^ (s <<< 13)
  let b := a ^^^ (a >>> 7)
  b ^^^ (b <<< 17)

/-- Mix64. -/
def mix64 (z : Word64) : Word64 :=
  let a := (z ^^^ (z >>> 30)) * 0xBF58476D1CE4E5B9#64
  let b := (a ^^^ (a >>> 27)) * 0x94D049BB133111EB#64
  b ^^^ (b >>> 31)

/-- Draw. -/
def srDraw (s : Word64) (i : Nat) : Nat := bitsOf (mix64 (s + BitVec.ofNat 64 (i + 1) * 0x9E3779B97F4A7C15#64)).toNat 48 16

/-! ## Sums and products (R111, R125, R263) -/

/-- The opposite value. -/
def Num.negate : Num → Num
  | .nan b => .nan b
  | .inf n => .inf (!n)
  | .fin n m e s => .fin (!n) m e s

/-- NV for a signalling NaN among the sources (R110). -/
def sigFlag (l : List Num) : BitVec 7 := if l.any Num.isSig then flagNV else 0

/-- The exact product. -/
def mulNum (a b : Num) : Num × BitVec 7 :=
  match a, b with
  | .nan _, _ => (.nan false, sigFlag [a, b])
  | _, .nan _ => (.nan false, sigFlag [a, b])
  | .inf n, x => if x.isZero then (.nan false, flagNV) else (.inf (n != x.isNeg), 0)
  | x, .inf n => if x.isZero then (.nan false, flagNV) else (.inf (n != x.isNeg), 0)
  | .fin n1 m1 e1 _, .fin n2 m2 e2 _ => (.exact (n1 != n2) (m1 * m2) (e1 + e2), 0)

/-- The signed integer of a finite value in units of 2^e0, for e0 at most its exponent. -/
def scaled (neg : Bool) (m : Nat) (e e0 : Int) : Int :=
  let v : Int := (m * 2 ^ (e - e0).toNat : Nat)
  if neg then -v else v

/-- The exact sum; a zero sum of opposite signs is +0, or -0 under RDN (R111). -/
def addNum (mode : Nat) (a b : Num) : Num × BitVec 7 :=
  match a, b with
  | .nan _, _ => (.nan false, sigFlag [a, b])
  | _, .nan _ => (.nan false, sigFlag [a, b])
  | .inf n, .inf k => if n = k then (.inf n, 0) else (.nan false, flagNV)
  | .inf n, _ => (.inf n, 0)
  | _, .inf n => (.inf n, 0)
  | .fin n1 m1 e1 _, .fin n2 m2 e2 _ =>
    let e := min e1 e2
    let v := scaled n1 m1 e1 e + scaled n2 m2 e2 e
    if v = 0 then (.exact (if n1 = n2 then n1 else mode == 2) 0 e, 0)
    else (.exact (decide (v < 0)) v.natAbs e, 0)

/-- The order of two values that are not NaN, with -0 equal to +0: -1, 0 or 1. -/
def cmpNum (a b : Num) : Int :=
  match a, b with
  | .nan _, _ => 0
  | _, .nan _ => 0
  | .inf n, .inf k => if n = k then 0 else if n then -1 else 1
  | .inf n, _ => if n then -1 else 1
  | _, .inf n => if n then 1 else -1
  | .fin n1 m1 e1 _, .fin n2 m2 e2 _ =>
    let e := min e1 e2
    let d := scaled n1 m1 e1 e - scaled n2 m2 e2 e
    if d < 0 then -1 else if d = 0 then 0 else 1

/-- a is below b, where -0 is below +0 (R264). -/
def lessNum (a b : Num) : Bool :=
  let c := cmpNum a b
  decide (c < 0) || (c == 0 && a.isZero && b.isZero && a.isNeg && !b.isNeg)

/-- The smaller, or larger, value; a NaN gives a NaN with NV where one signals (R264). -/
def minMax (wantMax : Bool) (a b : Num) : Num × BitVec 7 :=
  if a.isNan || b.isNan then (.nan false, sigFlag [a, b])
  else if wantMax then (if lessNum a b then b else a, 0) else (if lessNum b a then b else a, 0)

/-! ## Roots, reciprocals and transcendental functions (R272 to R275; DEDUCED, log 9) -/

/-- The integer square root below 2^k. -/
def isqrtBits (n : Nat) : Nat → Nat → Nat
  | 0, acc => acc
  | k + 1, acc => if (acc + 2 ^ k) * (acc + 2 ^ k) ≤ n then isqrtBits n k (acc + 2 ^ k) else isqrtBits n k acc

/-- The integer square root. -/
def isqrt (n : Nat) : Nat := isqrtBits n (Nat.log2 n / 2 + 1) 0

/-- The square root of m * 2^e, m not zero. -/
def sqrtFin (m : Nat) (e : Int) : Num :=
  let m1 := if e % 2 = 0 then m else 2 * m
  let e1 := if e % 2 = 0 then e else e - 1
  let r := isqrt (m1 * 2 ^ 200)
  .fin false r (e1 / 2 - 100) (r * r != m1 * 2 ^ 200)

/-- The reciprocal of m * 2^e. -/
def rcpFin (neg : Bool) (m : Nat) (e : Int) : Num :=
  let k := 2 * Nat.log2 m + 200
  .fin neg (2 ^ k / m) (-e - k) (2 ^ k % m != 0)

/-- The reciprocal square root of m * 2^e. -/
def rsqFin (m : Nat) (e : Int) : Num :=
  let m1 := if e % 2 = 0 then m else 2 * m
  let e1 := if e % 2 = 0 then e else e - 1
  let k := Nat.log2 m1 + 100
  let r := isqrt (2 ^ (2 * k) / m1)
  .fin false r (-(e1 / 2) - k) (r * r * m1 != 2 ^ (2 * k))

/-- Bits of the fixed-point values below. -/
def fixBits : Nat := 384

/-- floor(2^384 ln 2). -/
def ln2Fix : Nat := 0xb17217f7d1cf79abc9e3b39803f2f6af40f343267298b62d8a0d175b8baafa2be7b876206debac98559552fb4afa1b10

/-- floor(2^384 pi). -/
def piFix : Nat := 0x3243f6a8885a308d313198a2e03707344a4093822299f31d0082efa98ec4e6c89452821e638d01377be5466cf34e90c6c

/-- The product of two fixed-point values. -/
def fixMul (a b : Nat) : Nat := a * b / 2 ^ fixBits

/-- The sum of the terms of the exponential series of y, from the term `t` with number `k`. -/
def expSeries (y : Nat) : Nat → Nat → Nat → Nat
  | 0, _, _ => 0
  | n + 1, k, t => t + expSeries y n (k + 1) (fixMul t y / (k + 1))

/-- The sum z + z^3/3 + z^5/5 + …, from the term number `k`. -/
def atanhSeries (z2 : Nat) : Nat → Nat → Nat → Nat
  | 0, _, _ => 0
  | n + 1, k, t => t / (2 * k + 1) + atanhSeries z2 n (k + 1) (fixMul t z2)

/-- The alternating sum y - y^3/6 + …, as the two sums of its positive and negative terms. -/
def sinSeries (y2 : Nat) : Nat → Nat → Nat → Int
  | 0, _, _ => 0
  | n + 1, k, t => (t : Int) - sinSeries y2 n (k + 1) (fixMul t y2 / ((2 * k + 2) * (2 * k + 3)))

/-- 2^x for an exact x. Far outside every format's range the result is a huge or a tiny value. -/
def exp2Fin (neg : Bool) (m : Nat) (e : Int) : Num :=
  if m = 0 then .exact false 1 0
  else if 12 ≤ leadExp m e then (if neg then .fin false (2 ^ 64) (-8192) true else .fin false (2 ^ 64) 8192 true)
  else if e < -(fixBits : Int) then .fin false (if neg then 2 ^ fixBits - 1 else 2 ^ fixBits) (-(fixBits : Int)) true
  else
    let v : Int := if 0 ≤ e then (m * 2 ^ (e.toNat + fixBits) : Nat) else (m * 2 ^ (fixBits - (-e).toNat) : Nat)
    let x := if neg then -v else v
    let n := x / (2 ^ fixBits : Nat)
    let f := (x % (2 ^ fixBits : Nat)).toNat
    if f = 0 then .exact false 1 n
    else .fin false (expSeries (fixMul f ln2Fix) 90 0 (2 ^ fixBits) / 2 ^ 64) (n - fixBits + 64) true

/-- log2 of m * 2^e, m not zero. -/
def log2Fin (m : Nat) (e : Int) : Num :=
  let top := Nat.log2 m
  let k : Int := (top : Int) + e
  if m = 2 ^ top then .ofInt k
  else
    let y := if top ≤ fixBits then m * 2 ^ (fixBits - top) else m / 2 ^ (top - fixBits)
    let one := 2 ^ fixBits
    let z := (y - one) * one / (y + one)
    let l := 2 * atanhSeries (fixMul z z) 130 0 z * one / ln2Fix
    let v : Int := k * (one : Nat) + l
    .fin (decide (v < 0)) ((if v < 0 then v.natAbs - 1 else v.natAbs) / 2 ^ 32) (32 - (fixBits : Int)) true

/-- sin(pi/2 * s / 2^d) for 0 ≤ s ≤ 2^d. -/
def sinQuarter (s d : Nat) : Num :=
  if s = 0 then .exact false 0 0
  else if s = 2 ^ d then .exact false 1 0
  else
    let y := if d ≤ fixBits then piFix * s / 2 ^ (d + 1) else piFix * (s / 2 ^ (d - fixBits)) / 2 ^ (fixBits + 1)
    .fin false ((sinSeries (fixMul y y) 60 0 y).toNat / 2 ^ 32) (32 - (fixBits : Int)) true

/-- sin(2 pi t / 2^d) for a fraction t of a turn, t below 2^d. -/
def sinTurn (t d : Nat) : Num :=
  let q := 4 * t / 2 ^ d
  let r := 4 * t % 2 ^ d
  let v := sinQuarter (if q % 2 = 0 then r else 2 ^ d - r) d
  if 2 ≤ q then (if v.isZero then v else v.negate) else v

/-- cos(2 pi t / 2^d). -/
def cosTurn (t d : Nat) : Num := sinTurn ((t + 2 ^ d / 4) % 2 ^ d) d

/-- VEXP2 (R272). -/
def exp2Num : Num → Num
  | .nan _ => .nan false
  | .inf n => if n then .exact false 0 0 else .inf false
  | .fin n m e _ => exp2Fin n m e

/-- The special functions with their special inputs (R272): 0 VEXP2, 1 VLOG2, 2 VRCP, 3 VRSQ, 4 VSQRT. -/
def specialFn (k : Nat) (x : Num) : Num × BitVec 7 :=
  match x with
  | .nan sig => (.nan false, if sig then flagNV else 0)
  | .inf n =>
    match k with
    | 0 => (exp2Num x, 0)
    | 1 => if n then (.nan false, flagNV) else (.inf false, 0)
    | 2 => (.exact n 0 0, 0)
    | 3 => if n then (.nan false, flagNV) else (.exact false 0 0, 0)
    | _ => if n then (.nan false, flagNV) else (.inf false, 0)
  | .fin n m e _ =>
    match k with
    | 0 => (exp2Fin n m e, 0)
    | 1 => if m = 0 then (.inf true, flagDZ) else if n then (.nan false, flagNV) else (log2Fin m e, 0)
    | 2 => if m = 0 then (.inf n, flagDZ) else (rcpFin n m e, 0)
    | 3 => if m = 0 then (.inf n, flagDZ) else if n then (.nan false, flagNV) else (rsqFin m e, 0)
    | _ => if m = 0 then (.exact n 0 0, 0) else if n then (.nan false, flagNV) else (sqrtFin m e, 0)

/-! ## Integers (R113) -/

/-- An exact integer in a type of width `w`: reduced, or clamped with SAT (R113). -/
def intTo (w : Nat) (sgn sat : Bool) (v : Int) : Res :=
  let lo : Int := if sgn then -(2 ^ (w - 1) : Nat) else 0
  let hi : Int := if sgn then (2 ^ (w - 1) : Nat) - 1 else (2 ^ w : Nat) - 1
  if sat then
    let c := if v < lo then lo else if hi < v then hi else v
    (ofSigned w c, if c = v then 0 else flagSAT)
  else (ofSigned w v, 0)

/-- The integer that an element of an integer type stands for. -/
def intOf (t : BitVec 4) (v : Nat) : Int := if isSignedT t then toSigned (typeWidth t) v else (v % 2 ^ typeWidth t : Nat)

/-! ## Conversions (R119, R120) -/

/-- A floating-point value into an integer type: rounded, clamped; NaN gives 0 (R120). -/
def numToInt (w : Nat) (sgn : Bool) (mode draw : Nat) (x : Num) : Res :=
  let lo : Int := if sgn then -(2 ^ (w - 1) : Nat) else 0
  let hi : Int := if sgn then (2 ^ (w - 1) : Nat) - 1 else (2 ^ w : Nat) - 1
  match x with
  | .nan _ => (0, flagNV)
  | .inf n => (ofSigned w (if n then lo else hi), flagNV)
  | .fin n m e st =>
    let (k, inexact) := roundAt n m e st 0 mode draw
    let v : Int := if n then -(k : Int) else k
    if v < lo then (ofSigned w lo, flagNV)
    else if hi < v then (ofSigned w hi, flagNV)
    else (ofSigned w v, if inexact then flagNX else 0)

/-- A floating-point value into a floating-point type (R119). -/
def numToFmt (f : Fmt) (mode : Nat) (sat : Bool) (draw : Nat) (x : Num) : Res :=
  match x with
  | .nan sig => if f.hasNan then (canonNan f, if sig then flagNV else 0) else (0, flagNV)
  | .inf n =>
    if f.hasInf then (infCode f n, 0)
    else if !f.hasNan then (maxCode f n, flagSAT)
    else if sat then (maxCode f n, flagSAT) else (canonNan f, flagNV)
  | _ => roundTo f mode sat draw x

/-- One element converted from type `s` to type `d` with modulus `q` (R119, R120, R270). -/
def convert (d s : BitVec 4) (q mode : Nat) (sat : Bool) (draw v : Nat) : Res :=
  let wd := typeWidth d
  if d = s then (v, if d = 15 ∧ q ≤ v then flagMR else 0)
  else if isFloat s then
    let x := decodeNum (fmtOf s) v
    if isFloat d then numToFmt (fmtOf d) mode sat draw x
    else if d = 14 then (match x with | .nan _ => 1 | _ => (!bitAt v (typeWidth s - 1)).toNat, sigFlag [x])
    else numToInt wd (isSignedT d) mode draw x
  else
    let x : Int := if s = 14 then (if v % 2 = 1 then 1 else -1) else if s = 15 then (v : Int) else intOf s v
    if isFloat d then roundTo (fmtOf d) mode sat draw (.ofInt x)
    else if d = 14 then (if x < 0 then 0 else 1, 0)
    else if d = 15 then ((x % (q : Int)).toNat, 0)
    else
      intTo wd (isSignedT d) sat x

/-! ## Residues (R129 to R131) -/

/-- A legal modulus (R129). -/
def modulusOk (q : Nat) : Bool := q % 2 == 1 && decide (3 ≤ q) && decide (q < 2 ^ 62)

/-- The inverse of 2^64 modulo an odd q: (q + 1) / 2 is the inverse of 2. -/
def powMod (a q : Nat) : Nat → Nat
  | 0 => 1 % q
  | n + 1 => powMod a q n * a % q

/-- 2^-64 modulo q. -/
def invR (q : Nat) : Nat := powMod ((q + 1) / 2) q 64

/-- A residue input reduced, with MR when it was q or more (R129). -/
def residue (q v : Nat) : Nat × BitVec 7 := (v % q, if q ≤ v then flagMR else 0)

/-- The product of the convention: STD or MONT (R130). -/
def mulMod (mont : Bool) (q a b : Nat) : Nat := if mont then a * b % q * invR q % q else a * b % q

end Sys2Proof.Machine
end

