-- ==== Sys2Proof/Machine/Microscale.lean ====
section
/-! DEFINITION. Microscaling blocks (R121, R122, R271), sums of products (R123 to R125, R277), merges of attention triples (R160,
R275) and rotations (R273). -/

namespace Sys2Proof.Machine

open Sys2Proof

/-- A value times 2^k. -/
def Num.scale (x : Num) (k : Int) : Num :=
  match x with
  | .fin n m e s => .fin n m (e + k) s
  | .nan b => .nan b
  | .inf n => .inf n

/-- binary32 of a value under a mode. -/
def toF32 (mode : Nat) (x : Num) : Res := roundTo fmtF32 mode false 0 x

/-- The value of a binary32 code. -/
def ofF32 (v : Nat) : Num := decodeNum fmtF32 v

/-! ## Blocks -/

/-- EmaxElem of R122. -/
def emaxElem (t : BitVec 4) : Int := if t = 11 then 8 else if t = 13 then 2 else 0

/-- The largest leading exponent of the values that are not zero. -/
def maxLead : List Num → Option Int
  | [] => none
  | x :: l =>
    match x, maxLead l with
    | .fin _ m e _, none => if m = 0 then none else some (leadExp m e)
    | .fin _ m e _, some k => if m = 0 then some k else some (max k (leadExp m e))
    | _, k => k

/-- One element of a block (R122): the value already divided by the scale. -/
def mxElem (t : BitVec 4) (mode draw : Nat) (x : Num) : Res :=
  if t = 0 then
    match x.scale 6 with
    | .fin n m e st =>
      let (k, inexact) := roundAt n m e st 0 mode draw
      let v : Int := if n then -(k : Int) else k
      let r := intTo 8 true true v
      (r.1, r.2 ||| (if inexact then flagNX else 0))
    | _ => (0, 0)
  else roundTo (fmtOf t) mode true draw x

/-- A block of 32 values quantised to elements of type `t` (R122): the scale, the element codes and the flags. Draw `i` is for the
element with index `base + i`. -/
def mxBlock (t : BitVec 4) (mode : Nat) (draw : Nat → Nat) (vs : List Num) : Nat × List Nat × BitVec 7 :=
  if vs.any (fun x => x.isNan || x.isInf) then (0xFF, vs.map (fun _ => 0), flagNV)
  else
    match maxLead vs with
    | none => (0x7F, vs.map (fun _ => 0), 0)
    | some l =>
      let x0 := l - emaxElem t
      let x := if x0 < -127 then -127 else if 127 < x0 then 127 else x0
      let rs := (vs.zipIdx).map (fun p => mxElem t mode (draw p.2) (p.1.scale (-x)))
      ((x + 127).toNat, rs.map Prod.fst, rs.foldl (fun f r => f ||| r.2) 0)

/-- The value of an MX element of type `t` with code `v` under an E8M0 scale (R121). -/
def mxValue (t : BitVec 4) (scale v : Nat) : Num :=
  if scale = 0xFF then .nan false
  else if t = 0 then (Num.ofInt (toSigned 8 v)).scale ((scale : Int) - 127 - 6)
  else (decodeNum (fmtOf t) v).scale ((scale : Int) - 127)

/-! ## Sums of products -/

/-- Infinite values of both signs stand in a group (R125). -/
def bothInf (l : List (Num × BitVec 7)) : Bool := l.any (fun p => decide (p.1 = .inf false)) && l.any (fun p => decide (p.1 = .inf true))

/-- The exact sum of a group with its flags; infinities of both signs raise NV whatever else the group holds (R125). -/
def sumAll (mode : Nat) (l : List (Num × BitVec 7)) : Num × BitVec 7 :=
  match l with
  | [] => (.exact false 0 0, 0)
  | p :: t =>
    let r := t.foldl (fun acc p => let r := addNum mode acc.1 p.1; (r.1, acc.2 ||| p.2 ||| r.2)) p
    (r.1, if bothInf l then r.2 ||| flagNV else r.2)

/-- The exact sum of values, with R125's special values; the flags of the values join. -/
def sumNums (mode : Nat) (a : Num) (l : List (Num × BitVec 7)) : Num × BitVec 7 :=
  let g := sumAll mode l
  let r := addNum mode a g.1
  (r.1, g.2 ||| r.2)

/-- Each product of two lists of values. -/
def products (a b : List Num) : List (Num × BitVec 7) := List.zipWith mulNum a b

/-- The largest leading exponent of the products that are not zero. -/
def maxProduct (l : List (Num × BitVec 7)) : Option Int := maxLead (l.map Prod.fst)

/-- A value truncated toward zero to a multiple of 2^q (R124). -/
def truncAt (q : Int) (x : Num) : Num :=
  match x with
  | .fin n m e _ => if q ≤ e then x else .exact n (m / 2 ^ (q - e).toNat) q
  | y => y

/-- The group sum of BF16 and FP16 products (R124). -/
def truncSum (l : List (Num × BitVec 7)) : Num × BitVec 7 :=
  match maxProduct l with
  | some k => sumAll 0 (l.map (fun p => (truncAt (k - 64) p.1, p.2)))
  | none => sumAll 0 l

/-! ## Attention merges and rotations -/

/-- max of two values that are not NaN. -/
def maxNum (a b : Num) : Num := if lessNum a b then b else a

/-- The factor 2^(x - m) rounded to binary32 (R160). -/
def mergeFactor (x m : Num) : Num := ofF32 (toF32 0 (exp2Num (addNum 0 x m.negate).1)).1

/-- One component of a merge (R160, R275): the binary32 code and the flags of its final rounding. A −0 of a triple that meets the identity comes
out as the pseudocode's sum has it, +0, where R160's sentence would keep it (DESIGN CHOICE, log 60). -/
def mergeComp (am bm : Num) (x y : Nat) : Res :=
  if am.isNan || bm.isNan then (canonNan fmtF32, sigFlag [am, bm])
  else if am = .inf false ∨ bm = .inf false then (canonNan fmtF32, flagNV)
  else if am = .inf true ∧ bm = .inf true then (0, 0)
  else
    let m := maxNum am bm
    let p := mulNum (mergeFactor am m) (ofF32 x)
    let q := mulNum (mergeFactor bm m) (ofF32 y)
    let r := addNum 0 p.1 q.1
    let o := toF32 0 r.1
    (o.1, p.2 ||| q.2 ||| r.2 ||| o.2)

/-- The exponent step of an online softmax (R274). -/
def softmaxStep (mode draw : Nat) (x m : Num) : Res :=
  if x.isNan || m.isNan then (canonNan fmtF32, sigFlag [x, m])
  else if x = .inf true then (0, 0)
  else if m = .inf false then (if x = .inf false then (canonNan fmtF32, flagNV) else (0, 0))
  else if m = .inf true then (infCode fmtF32 false, 0)
  else roundTo fmtF32 mode false draw (exp2Num (addNum 0 x m.negate).1)

/-- Cosine and sine of pos * w turns, each rounded to binary32 (R273), for a finite w. -/
def ropeFactors (pos : Nat) (w : Num) : Num × Num :=
  match w with
  | .fin n m e _ =>
    let d := (-e).toNat + 2
    let v : Int := (pos * m * 2 ^ (e + d).toNat : Nat)
    let t := ((if n then -v else v) % ((2 ^ d : Nat) : Int)).toNat
    (ofF32 (toF32 0 (cosTurn t d)).1, ofF32 (toF32 0 (sinTurn t d)).1)
  | _ => (.nan false, .nan false)

/-- x0 * a + x1 * b rounded once. -/
def rotOut (f : Fmt) (mode draw : Nat) (x0 a x1 b : Num) : Res :=
  let p := mulNum x0 a
  let q := mulNum x1 b
  let r := addNum mode p.1 q.1
  let o := roundTo f mode false draw r.1
  (o.1, p.2 ||| q.2 ||| r.2 ||| o.2)

end Sys2Proof.Machine
end

