-- ==== Sys2Proof/Machine/Queues.lean ====
section
/-! DEFINITION. Operand and output queues (R15, R58, R59, R226, R246, R259), L1 lines with their locks (R58), and stream descriptors (R91,
R155, R243). -/

namespace Sys2Proof.Machine

open Sys2Proof

/-- Entries of a queue (R15). -/
def queueDepth : Nat := 16

/-- The locks that one entry holds are released (R58): each on the line as it was allocated, so that a line dropped and fetched again keeps
the locks of later entries. -/
def unlockLines (s : State) (lines : List Nat) : State :=
  if lines = [] then s
  else
    { s with core := { s.core with l1 := s.core.l1.map (fun l => { l with locks := l.locks - countOf (fun k => k == l.order) lines }) } }

/-- The head of an operand queue popped, with its locks (R58). -/
def popQ (s : State) (n : BitVec 3) : State :=
  match s.task.q.get n with
  | [] => s
  | hd :: tl => unlockLines (s.withTask { s.task with q := s.task.q.set n tl }) hd.locks

/-- The operand queues that a matrix operation pops (R283, R298, R308). -/
def matPops (t : Template) : List (BitVec 8) :=
  ([t.src1] ++ (if t.kind = 0x85 then [] else [t.src2]) ++ [t.src3]).filter (fun c => decide (0x20 ≤ c.toNat) && decide (c.toNat < 0x28))

/-- An earlier matrix operation has still to pop the queue (R283). -/
def matAhead (s : State) (n : BitVec 3) : Bool := s.task.mats.any (fun m => (matPops m.issue.tpl).any (fun c => c.truncate 3 == n))

/-- The effect that needs the head of an operand queue: C stalls while it is empty (R39) or an earlier matrix operation has
still to pop it (R283); a poisoned entry faults however it is read (R226). -/
def withQ (s : State) (n : BitVec 3) (pop : Bool) (k : State → Entry → Effect) : Effect :=
  if matAhead s n then .stall (.queueEmpty (n.zeroExtend 4) 1) else
  match s.task.q.get n with
  | [] => .stall (.queueEmpty (n.zeroExtend 4) 1)
  | hd :: _ =>
    if !hd.filled then .stall (.queueEmpty (n.zeroExtend 4) 1)
    else
      match hd.poison with
      | some p => .fault { cause := p.cause, addr := p.addr, body := some (p.word.zeroExtend 256), origin := none, progress := 0 }
      | none => k (if pop then popQ s n else s) hd.data

/-- The loopback entries that an instruction in flight pushes into an operand queue. -/
def loopOf (n : BitVec 3) (w : Write) : List (Nat × Entry) := match w with | .q n' l => if n' = n then l else [] | _ => []

/-- Places of an operand queue that MST holds for entries which enter at its retire (R299). -/
def loopHeld (s : State) (n : BitVec 3) : Nat :=
  (s.task.mats.filter (fun m => m.issue.tpl.kind == 0x85 && m.issue.tpl.dst == 0x4C && m.issue.tpl.src2.truncate 3 == n)).foldl
    (fun a m => a + bandEntries m.issue.tpl.dtype) 0 +
    ((s.seq .C).pend.flatMap (fun p => p.writes.flatMap (loopOf n))).length

/-- Free places of an operand queue. -/
def qRoom (s : State) (n : BitVec 3) : Nat := queueDepth - (s.task.q.get n).length - loopHeld s n

/-- Loopback entries whose retire cycle has come enter before a push of the same cycle (R299). -/
def settleLoop (s : State) : State :=
  let sq := s.seq .C
  let due := fun (p : Pending) => p.ready s.core.cycle
  let isLoop := fun (w : Write) => match w with | .q _ _ => true | _ => false
  let ws := (sq.pend.filter due).flatMap (fun p => p.writes.filter isLoop)
  if ws = [] then s
  else
    let s1 := s.withSeq .C { sq with pend := sq.pend.map (fun p => if due p then { p with writes := p.writes.filter (fun w => !isLoop w) } else p) }
    s1.withTask (ws.foldl (fun t w => t.apply .C w) s1.task)

/-- An earlier SLDN into the queue still has places to reserve, so a later pusher cannot (R246). -/
def sldnPending (s : State) (n : BitVec 3) : Bool := s.task.jobs.any (fun j => j.load && j.qn == n && decide (0 < j.toReserve))

/-- A reserved place (R246). -/
def QEntry.reserved (id : Nat) : QEntry := { id := id, filled := false, data := 0, poison := none, locks := [] }

/-- `k` places of an operand queue reserved, with their identifiers (R246). -/
def reserveQ (s0 : State) (n : BitVec 3) (k : Nat) : State × List Nat :=
  let s := settleLoop s0
  let ids := (upTo k).map (fun i => s.nextId + i)
  ({ s.withTask { s.task with q := s.task.q.set n (s.task.q.get n ++ ids.map QEntry.reserved) } with nextId := s.nextId + k }, ids)

/-- The place with an identifier filled (R59). -/
def fillQ (t : Task) (n : BitVec 3) (id : Nat) (d : Entry) (p : Option Poison) (locks : List Nat) : Task :=
  { t with q := t.q.set n (updFirst (fun e => e.id == id) (fun e => { e with filled := true, data := d, poison := p, locks := locks }) (t.q.get n)) }

/-- The place given back: its entry is skipped (R155, R246). -/
def skipQ (t : Task) (n : BitVec 3) (id : Nat) : Task :=
  { t with q := t.q.set n ((t.q.get n).filter (fun e => e.id != id)) }

/-- The head of an output queue, if it is filled. -/
def oHead (s : State) (n : BitVec 2) : Option QEntry :=
  match s.task.o.get n with
  | [] => none
  | hd :: _ => if hd.filled then some hd else none

/-- The head of an output queue popped. -/
def popO (s : State) (n : BitVec 2) : State := s.withTask { s.task with o := s.task.o.set n (s.task.o.get n).tail }

/-- Free places of an output queue. -/
def oRoom (s : State) (n : BitVec 2) : Nat := queueDepth - (s.task.o.get n).length

/-- A place of an output queue reserved (R259). -/
def reserveO (s : State) (n : BitVec 2) : State × Nat :=
  ({ s.withTask { s.task with o := s.task.o.set n (s.task.o.get n ++ [QEntry.reserved s.nextId]) } with nextId := s.nextId + 1 }, s.nextId)

/-! ## L1 (R58) -/

/-- Bank and set of a line: VA[10:7] and VA[17:11] (R58). -/
def l1Set (line : Nat) : Nat := line % 2 ^ 11

/-- The way of the line that leaves a full set: the one allocated earliest among those without a lock (DESIGN CHOICE, log 13). -/
def l1Victim : List L1Line → Option L1Line
  | [] => none
  | a :: t =>
    if a.locks ≠ 0 then l1Victim t
    else match l1Victim t with
      | none => some a
      | some b => if a.order ≤ b.order then some a else some b

/-- A line fetched into L1, locked `locks` times more; none when every way of its set is locked (R58). -/
def l1Fetch (s : State) (line locks : Nat) : Option State :=
  if s.task.split = 0 then some s
  else if s.core.l1.any (fun l => l.line == line) then
    some { s with core := { s.core with l1 := updFirst (fun l => l.line == line) (fun l => { l with locks := l.locks + locks }) s.core.l1 } }
  else
    let mates := s.core.l1.filter (fun l => l1Set l.line == l1Set line)
    let put := fun (rest : List L1Line) (w : Nat) =>
      some { s with core := { s.core with l1 := { line := line, way := w, order := s.nextId, locks := locks } :: rest }, nextId := s.nextId + 1 }
    match freeWay (mates.map L1Line.way) (8 - s.task.split.toNat) s.task.split.toNat with
    | some w => put s.core.l1 w
    | none =>
      match l1Victim mates with
      | some v => put (s.core.l1.filter (fun l => l.line != v.line)) v.way
      | none => none

/-- The allocation by which L1 holds a line. -/
def l1Held (s : State) (line : Nat) : Option Nat := (s.core.l1.find? (fun l => l.line == line)).map L1Line.order

/-- A line dropped from L1 (R239). -/
def l1Drop (s : State) (line : Nat) : State :=
  { s with core := { s.core with l1 := s.core.l1.filter (fun l => l.line != line) } }

/-! ## Stream descriptors (R243) -/

/-- The field of `w` bits at `lo` of `n` replaced by `v`. -/
def setBits (n lo w v : Nat) : Nat := n - bitsOf n lo w * 2 ^ lo + v % 2 ^ w * 2 ^ lo

def streamBase (n : Nat) : Nat := bitsOf n 0 56
def streamSp (n : Nat) : BitVec 2 := BitVec.ofNat 2 (bitsOf n 56 2)
def streamWrap (n : Nat) : Bool := bitAt n 62
def streamStride (n d : Nat) : Int := toSigned 32 (bitsOf n (64 + 32 * d) 32)
def streamExtent (n d : Nat) : Nat := bitsOf n (224 + 16 * d) 16
def streamTdim (n : Nat) : Nat := bitsOf n 304 3
def streamGated (n : Nat) : Bool := bitAt n 307
def streamKm (n : Nat) : BitVec 2 := BitVec.ofNat 2 (bitsOf n 308 2)
def streamCur (n : Nat) : Nat := bitsOf n 312 40

/-- The number of entries N. -/
def streamTotal (n : Nat) : Nat := ((upTo 5).map (streamExtent n)).foldl (· * ·) 1

/-- A descriptor's bits are valid (R243). -/
def streamValid (n : Nat) : Bool :=
  (upTo 5).all (fun d => streamExtent n d != 0) && decide (streamTotal n ≤ 2 ^ 40) && decide (streamCur n < streamTotal n) &&
    decide (streamTdim n ≤ 4) && bitsOf n 58 4 == 0 && !bitAt n 63 && bitsOf n 310 2 == 0 && bitsOf n 352 160 == 0

/-- The index of entry `e` in dimension `d`, dimension 0 fastest. -/
def streamIndex (n e : Nat) : Nat → Nat
  | 0 => e % streamExtent n 0
  | d + 1 => (e / ((upTo (d + 1)).map (streamExtent n)).foldl (· * ·) 1) % streamExtent n (d + 1)

/-- The address of entry `e`, modulo 2^56. -/
def streamAddr (n e : Nat) : Nat :=
  ofSigned 56 ((upTo 5).foldl (fun a d => a + (streamIndex n e d : Int) * streamStride n d) (streamBase n : Int))

/-- The tile index of entry `e` (R243, R246). -/
def streamTile (n e : Nat) : Nat := streamIndex n e (streamTdim n)

/-- Entry `e` is skipped by the keep-mask (R155, R246). -/
def streamSkips (n : Nat) (mask : Option (BitVec 512)) (e : Nat) : Bool :=
  match mask with
  | some k => !k.getLsbD (streamTile n e)
  | none => false

/-- The number of entries among `k` from cursor `first` that the keep-mask does not skip. -/
def streamLive (n : Nat) (mask : Option (BitVec 512)) (first : Nat) : Nat → Nat
  | 0 => 0
  | k + 1 => streamLive n mask first k + (if streamSkips n mask ((first + k) % streamTotal n) then 0 else 1)

/-- An entry among `k` from cursor `first` has a tile index of 512 or more (R246). -/
def streamTileOver (n first : Nat) : Nat → Bool
  | 0 => false
  | k + 1 => decide (512 ≤ streamTile n ((first + k) % streamTotal n)) || streamTileOver n first k

/-- The bytes of one queue entry. -/
def entryBytes : Nat := 256

/-- A stream store issued before a halt has still to write one of `size` bytes at an address: an access after the resume that reads them comes
after it (R91, R246). -/
def storeOwed (s : State) (sp : BitVec 2) (addr size : Nat) : Bool :=
  s.task.jobs.any (fun j =>
    let n := ((s.core.planes.get j.plane).streams.get j.slot).desc.toNat
    j.held && !j.load && decide (streamSp n = sp) && (upTo (j.count - j.done)).any (fun k =>
      let e := (j.first + j.done + k) % streamTotal n
      !streamSkips n j.mask e && decide (streamAddr n e < addr + size) && decide (addr < streamAddr n e + entryBytes)))

end Sys2Proof.Machine
end

