-- ==== Sys2Proof/Machine/Templates.lean ====
section
/-! DEFINITION. Template memory and the TPLC group (R280 to R282), and what every template kind checks of its record: unused
fields, operand codes and mask selects (R107, R113, R114, R183, R185). -/

namespace Sys2Proof.Machine

open Sys2Proof

/-! ## The TPLC group (R281) -/

/-- The slot that xA names. -/
def tplSlot (a : Word64) : BitVec 6 := a.truncate 6

/-- xA names a slot and nothing more. -/
def slotOnly (a : Word64) : Bool := decide (a.toNat < 64)

/-- xA names a slot and a field FSEL from 1 to `top`. -/
def slotField (a : Word64) (top : Nat) : Bool :=
  decide (a.toNat < 2 ^ 13) && bitsOf a.toNat 6 2 == 0 && decide (1 ≤ bitsOf a.toNat 8 5) && decide (bitsOf a.toNat 8 5 ≤ top)

/-- The bits of field `f` in a record (R182). -/
def fieldBits (f : Nat) : BitVec 256 := BitVec.ofNat 256 ((2 ^ fieldWidth f - 1) * 2 ^ fieldLow f)

/-- A dynamic slot that a covered write has still to reach stalls its reader (R205, R282). -/
def whenSlot (s : State) (r : BitVec 6) (e : Effect) : Effect := if coveredHit s.task .C [.tpl r] then .stall .pending else e

/-- TLD (R281). -/
def execTld (k : Tok) (a : BitVec 4) (p : BitVec 1) (n : BitVec 3) (s : State) : Out :=
  issue (.tld k a p n) (fun s q => withX s q a 0 (fun v =>
    if !slotOnly v then .fail causeIllegalInstr 0
    else whenSlot s (tplSlot v) (withQ s n (p == 1) (fun s1 e =>
      .write s1 2 [.tpl (tplSlot v) (BitVec.allOnes 256) (e.truncate 256)])))) s

/-- TSET (R281): LATCLASS is legal and ignored. -/
def execTset (k : Tok) (a : BitVec 4) (b : Src) (s : State) : Out :=
  issue (.tset k a b) (fun s q => withX s q a 0 (fun v => withSrcVal s q b 1 (fun x =>
    let f := bitsOf v.toNat 8 5
    if !slotField v 24 || decide (2 ^ fieldWidth f ≤ x.toNat) then .fail causeIllegalInstr 0
    else whenSlot s (tplSlot v) (
      if f = 24 then .write s 2 []
      else .write s 2 [.tpl (tplSlot v) (fieldBits f) (BitVec.ofNat 256 (x.toNat * 2 ^ fieldLow f))])))) s

/-- TGET (R281): field 25 reads zero. -/
def execTget (k : Tok) (d a : BitVec 4) (s : State) : Out :=
  issue (.tget k d a) (fun s q => withX s q a 0 (fun v =>
    let f := bitsOf v.toNat 8 5
    if !slotField v 25 then .fail causeIllegalInstr 0
    else whenSlot s (tplSlot v) (
      .write s 2 [.x d (if f = 25 then 0 else BitVec.ofNat 64 (fieldGet (s.readTpl (tplSlot v) 1) f)) none]))) s

/-- TCLR (R281). -/
def execTclr (k : Tok) (a : BitVec 4) (s : State) : Out :=
  issue (.tclr k a) (fun s q => withX s q a 0 (fun v =>
    if !slotOnly v then .fail causeIllegalInstr 0
    else whenSlot s (tplSlot v) (.write s 2 [.tpl (tplSlot v) (BitVec.allOnes 256) tplCleared]))) s

/-! ## Operand codes (R185) -/

def isV (c : BitVec 8) : Bool := decide (c.toNat < 0x10)
def isT (c : BitVec 8) : Bool := decide (0x10 ≤ c.toNat) && decide (c.toNat < 0x20)
def isPop (c : BitVec 8) : Bool := decide (0x20 ≤ c.toNat) && decide (c.toNat < 0x28)
def isPeek (c : BitVec 8) : Bool := decide (0x28 ≤ c.toNat) && decide (c.toNat < 0x30)
def isO (c : BitVec 8) : Bool := decide (0x30 ≤ c.toNat) && decide (c.toNat < 0x34)
def isAcc (c : BitVec 8) : Bool := decide (0x34 ≤ c.toNat) && decide (c.toNat < 0x38)
def isSplat (c : BitVec 8) : Bool := c == 0x3A || c == 0x3B
def isM (c : BitVec 8) : Bool := decide (0x40 ≤ c.toNat) && decide (c.toNat < 0x48)
def isKm (c : BitVec 8) : Bool := decide (0x48 ≤ c.toNat) && decide (c.toNat < 0x4C)

/-- A source of a vector kind (R259). -/
def isVecSrc (c : BitVec 8) : Bool := isV c || isT c || isPop c || isPeek c || isSplat c

/-- A destination of a vector kind (R259). -/
def isVecDst (c : BitVec 8) : Bool := isV c || c == 0x10 || isO c

/-- Disabled mask selects hold zero below their enables, and bit 234 is zero (R182). -/
def selectsOk (t : Template) : Bool :=
  (t.lmsel.getLsbD 3 || t.lmsel == 0) && (t.kmsel.getLsbD 3 || t.kmsel == 0) && !t.kmsel.getLsbD 2

/-- The reserved fields of every record (R182). -/
def reservedOk (t : Template) : Bool := t.rsv94 == 0 && t.rsv240 == 0

/-- SRC3 and its type unused (R183). -/
def noSrc3 (t : Template) : Bool := t.src3 == 0xFF && t.stype3 == 0

/-- SRC2 and its type unused (R183). -/
def noSrc2 (t : Template) : Bool := t.src2 == 0xFF && t.stype2 == 0

/-- SRC1 and its type unused (R183). -/
def noSrc1 (t : Template) : Bool := t.src1 == 0xFF && t.stype1 == 0

/-- The fields that no vector kind uses (R258). -/
def vectorOk (t : Template) : Bool :=
  selectsOk t && reservedOk t && t.stampmode == 0 && t.stampreg == 0 && t.base == 0 && t.strides == 0 && t.mcgroup == 0 &&
    t.accmode == 0 && t.kmsel == 0

/-- SCALE, K and MODULUS unused (R183). -/
def noScale (t : Template) : Bool := t.scale == 0
def noK (t : Template) : Bool := t.k == 0
def noMod (t : Template) : Bool := t.modulus == 0

/-- A rounding mode of R114. -/
def rounds (t : Template) : Bool := decide (t.rnd.toNat ≤ 5)

/-- The saturation bit as R113 allows it for the destination type: zero for .m64 and .b1 (DEDUCED, log 29). -/
def satOk (t : Template) : Bool := t.sat == 0 || !(t.dtype == 14 || t.dtype == 15)

/-- A kind's first sources are vector sources with the destination's type (*Same*, R258). -/
def same1 (t : Template) : Bool := isVecSrc t.src1 && t.stype1 == t.dtype
def same2 (t : Template) : Bool := same1 t && isVecSrc t.src2 && t.stype2 == t.dtype
def same3 (t : Template) : Bool := same2 t && isVecSrc t.src3 && t.stype3 == t.dtype

end Sys2Proof.Machine
end

