-- ==== Sys2Proof/Machine/Vector.lean ====
section
/-! DEFINITION. The vector kinds: operands, lane masks, poison and issue (R258 to R262), and each kind's legality and result
(R263 to R279). -/

namespace Sys2Proof.Machine

open Sys2Proof

/-! ## Operands (R259 to R261) -/

/-- What a vector kind works on: its record, the contents of its sources as read at issue, the lane mask (all ones when none is
named), the mask that VSEL reads and the state of the stochastic generator. -/
structure VecIn where
  t : Template
  e1 : Nat
  e2 : Nat
  e3 : Nat
  mask : BitVec 64
  sel : BitVec 64
  seed : Word64
  deriving DecidableEq, Repr

/-- What a vector kind gives: the entry, with zeros in inactive elements, the lanes it writes of a v or m destination, and its
flags. -/
structure VecOut where
  d : Entry
  lanes : BitVec 64
  flags : BitVec 7
  deriving DecidableEq, Repr

/-- Element `i` of width `w` of an entry (R108). -/
def elemAt (w e i : Nat) : Nat := e / 2 ^ (w * i) % 2 ^ w

/-- Element `i` of width `w` is active (R108). -/
def activeElem (mask : BitVec 64) (w i : Nat) : Bool := mask.getLsbD (w * i / 32)

/-- The lanes whose bits the mask governs for elements of width `w`: a 64-bit element takes the bit of its lower lane (R108). -/
def laneSet (mask : BitVec 64) (w : Nat) : BitVec 64 :=
  if w = 64 then
    let low := mask &&& 0x5555555555555555#64
    low ||| (low <<< 1)
  else mask

/-- The elements of an entry of width `w` computed one by one where active (R261). -/
def eachElem (x : VecIn) (w : Nat) (f : Nat → Res) : VecOut :=
  let rs := (upTo (2048 / w)).map (fun i => if activeElem x.mask w i then f i else (0, 0))
  { d := BitVec.ofNat 2048 (packBits w (rs.map Prod.fst)), lanes := laneSet x.mask w, flags := rs.foldl (fun a r => a ||| r.2) 0 }

/-- The draw of destination element `i` (R117). -/
def VecIn.draw (x : VecIn) (i : Nat) : Nat := srDraw x.seed i

/-- How many of the codes pop queue `n`. -/
def popsIn (codes : List (BitVec 8)) (n : BitVec 3) : Nat := countOf (fun c => isPop c && c.truncate 3 == n) codes

/-- How many entries of queue `n` the issue needs (R259). -/
def needOf (codes : List (BitVec 8)) (n : BitVec 3) : Nat :=
  Nat.max (popsIn codes n) (if codes.any (fun c => isPeek c && c.truncate 3 == n) then 1 else 0)

/-- A queue that has not every entry the issue needs, or that an earlier matrix operation has still to pop (R259, R283). -/
def queueLacking (s : State) (codes : List (BitVec 8)) : Option (BitVec 3) :=
  [0#3, 1#3, 2#3, 3#3, 4#3, 5#3, 6#3, 7#3].find? (fun n =>
    let k := needOf codes n
    k != 0 && (matAhead s n || decide (countOf QEntry.filled ((s.task.q.get n).take k) < k)))

/-- The queue entry that source `j` of the codes reads: src1 takes the older entry; a peek sees the head before any pop. -/
def sourceQ (s : State) (codes : List (BitVec 8)) (j : Nat) : Option QEntry :=
  let c := codes.getD j 0xFF
  if isPop c then (s.task.q.get (c.truncate 3))[popsIn (codes.take j) (c.truncate 3)]?
  else if isPeek c then (s.task.q.get (c.truncate 3)).head?
  else none

/-- The literal words of source `j` of the codes, the first `skip` words being the amendment's (R181). -/
def splatOf (codes : List (BitVec 8)) (j skip : Nat) (lits : List Word32) : Nat :=
  let k := skip + (codes.take j).foldl (fun a c => a + splatWords c) 0
  let lo := (lits.getD k 0).toNat
  if codes.getD j 0xFF = 0x3A then packBits 32 (List.replicate 64 lo)
  else packBits 64 (List.replicate 32 (lo + (lits.getD (k + 1) 0).toNat * 2 ^ 32))

/-- What source `j` of the codes reads at issue. -/
def sourceVal (s : State) (i : TplIssue) (codes : List (BitVec 8)) (j : Nat) : Nat :=
  let c := codes.getD j 0xFF
  if isV c then (s.readV (c.truncate 4) (j + 1)).toNat
  else if isT c then (s.readT (c.truncate 4)).toNat
  else if isSplat c then splatOf codes j (amendWords (i.patch.extractLsb 21 16)) i.lits
  else match sourceQ s codes j with
    | some e => e.data.toNat
    | none => 0

/-- The v lanes that results whose bound has come write over. -/
def freshLanes (s : State) (r : BitVec 4) : BitVec 64 :=
  ((s.seq .C).pend.filter (fun p => decide (p.due ≤ s.core.cycle))).foldl (fun a p => p.writes.foldl (fun a w =>
    match w with | .v r' _ k => if r' = r then a ||| k else a | _ => a) a) 0

/-- The poison among the lanes that source `j` of the codes reads (R226). -/
def sourcePoison (s : State) (codes : List (BitVec 8)) (j : Nat) (lanes : BitVec 64) : Option Poison :=
  let c := codes.getD j 0xFF
  if isV c then
    let k := lanes &&& ~~~(freshLanes s (c.truncate 4))
    (s.task.vPoison.find? (fun p => p.1.1 == c.truncate 4 && k.getLsbD p.1.2.toNat)).map Prod.snd
  else if isT c then
    let d := (tPushes (s.seq .C).pend (fun p => decide (p.due < s.core.cycle))).length
    if (c.truncate 4 : BitVec 4).toNat < d then none
    else (s.task.tPoison.find? (fun p => p.1.1.toNat + d == (c.truncate 4 : BitVec 4).toNat && lanes.getLsbD p.1.2.toNat)).map Prod.snd
  else match sourceQ s codes j with
    | some e => e.poison
    | none => none

/-- Lanes of the elements of width `w` that the list names. -/
def lanesOf (w : Nat) (elems : List Nat) : BitVec 64 :=
  elems.foldl (fun a i => a ||| (1#64 <<< (w * i / 32)) ||| (if w = 64 then 1#64 <<< (w * i / 32 + 1) else 0)) 0

/-- The active destination elements below `n`. -/
def activeBelow (mask : BitVec 64) (w n : Nat) : List Nat := (upTo n).filter (activeElem mask w)

/-- The lanes that an elementwise kind reads of a source: those that hold an element paired with an active one (R261). -/
def pairedLanes (x : VecIn) (ws : Nat) : BitVec 64 :=
  let wd := typeWidth x.t.dtype
  lanesOf ws (activeBelow x.mask wd (2048 / Nat.max wd ws))

/-- The lane mask a record names. -/
def laneMaskOf (s : State) (t : Template) : BitVec 64 := if t.lmsel.getLsbD 3 then s.readM (t.lmsel.truncate 3) 10 else allLanes

/-- The destination of a vector result (R259, R261). -/
def vecWrite (t : Template) (id : Nat) (o : VecOut) : List Write :=
  let c := t.dst
  (if isV c then [.v (c.truncate 4) o.d o.lanes]
   else if c = 0x10 then [.t o.d]
   else if isO c then [.o (c.truncate 2) id o.d]
   else if isM c then [.m (c.truncate 3) (o.d.truncate 64) o.lanes]
   else []) ++ (if o.flags = 0 then [] else [.fflags o.flags])

/-- The queue entries that the sources pop, popped in order with their locks (R58, R259). -/
def popSources (s : State) (codes : List (BitVec 8)) : State :=
  codes.foldl (fun s c => if isPop c then popQ s (c.truncate 3) else s) s

/-- The issue of a vector kind on its sources: stalls, poison, pops, the reservation of an output place, the generator's advance
when the kind rounds under SR (R117), and its result. `lanes` gives the lanes read of each source. -/
def vecEffect (i : TplIssue) (codes : List (BitVec 8)) (mode : Bool) (lanes : VecIn → List (BitVec 64)) (f : VecIn → VecOut)
    (s : State) (_q : SeqId) : Effect :=
  let t := i.tpl
  match queueLacking s codes with
  | some n => .stall (.queueEmpty (n.zeroExtend 4) (needOf codes n))
  | none =>
    let seed := if mode && t.rnd == 5 then srStep s.task.seed else s.task.seed
    let x : VecIn := { t := t, e1 := sourceVal s i codes 0, e2 := sourceVal s i codes 1, e3 := sourceVal s i codes 2
                       mask := laneMaskOf s t, sel := if isM t.src3 then s.readM (t.src3.truncate 3) 11 else 0, seed := seed }
    match ((lanes x).zipIdx.filterMap (fun p => sourcePoison s codes p.2 p.1)).head? with
    | some p => .fault { cause := p.cause, addr := p.addr, body := some (p.word.zeroExtend 256), origin := none, progress := 0 }
    | none =>
      if isO t.dst && oRoom s (t.dst.truncate 2) == 0 then .stall (.queueFull (8 + (t.dst.truncate 2 : BitVec 2).zeroExtend 4) 1)
      else
        let s1 := popSources (s.withTask { s.task with seed := seed }) codes
        let (s2, id) := if isO t.dst then reserveO s1 (t.dst.truncate 2) else (s1, 0)
        .write s2 (classBound t) (vecWrite t id (f x))

/-- The sources of a kind with one, two or three. -/
def src1Of (i : TplIssue) : List (BitVec 8) := [i.tpl.src1]
def src2Of (i : TplIssue) : List (BitVec 8) := [i.tpl.src1, i.tpl.src2]
def src3Of (i : TplIssue) : List (BitVec 8) := [i.tpl.src1, i.tpl.src2, i.tpl.src3]

/-- The lanes read by kinds whose elements pair one to one. -/
def sameLanes (x : VecIn) : List (BitVec 64) :=
  let k := laneSet x.mask (typeWidth x.t.dtype)
  [k, k, k]

/-- A template kind of C: legality is step 7 of R167. -/
def issueTpl (i : Instr) (legal : Bool) (eff : State → SeqId → Effect) (s : State) : Out := .next (issueOn .C i legal eff s)

/-! ## Values of elements -/

/-- F, I and the floating-point source types (R258). -/
def isFI (t : BitVec 4) : Bool := isF t || isInt t

/-- Source elements `i` of a record. -/
def VecIn.a (x : VecIn) (i : Nat) : Nat := elemAt (typeWidth x.t.stype1) x.e1 i
def VecIn.b (x : VecIn) (i : Nat) : Nat := elemAt (typeWidth x.t.stype2) x.e2 i
def VecIn.c (x : VecIn) (i : Nat) : Nat := elemAt (typeWidth x.t.stype3) x.e3 i

/-- Elements paired one to one at the destination's width. -/
def VecIn.each (x : VecIn) (f : Nat → Res) : VecOut := eachElem x (typeWidth x.t.dtype) f

/-- The rounding of an exact value into the destination format. -/
def VecIn.round (x : VecIn) (i : Nat) (v : Num × BitVec 7) : Res :=
  let r := roundTo (fmtOf x.t.dtype) x.t.rnd.toNat (x.t.sat == 1) (x.draw i) v.1
  (r.1, v.2 ||| r.2)

/-- The value of a source element in the destination's format. -/
def VecIn.num (x : VecIn) (v : Nat) : Num := decodeNum (fmtOf x.t.dtype) v

/-- An integer result (R113). -/
def VecIn.int (x : VecIn) (v : Int) : Res := intTo (typeWidth x.t.dtype) (isSignedT x.t.dtype) (x.t.sat == 1) v

/-- The integer of an element of the destination's type. -/
def VecIn.intv (x : VecIn) (v : Nat) : Int := intOf x.t.dtype v

/-- The rounding field as arithmetic kinds use it: a mode of R114 for F, zero for I (R263). -/
def modeFI (t : Template) : Bool := if isF t.dtype then rounds t else t.rnd == 0

/-- The fields that a plain vector kind leaves unused: SCALE, K, MODULUS and those of R258. -/
def plainOk (t : Template) : Bool := vectorOk t && noScale t && noK t && noMod t

/-! ## Arithmetic (R263) -/

/-- VMOV copies any type; SRC2 and SRC3 hold 0x00 or 0xFF (R258, R263). -/
def vmovLegal (t : Template) : Bool :=
  plainOk t && isVecDst t.dst && same1 t && (t.src2 == 0 || t.src2 == 0xFF) && t.stype2 == 0 && (t.src3 == 0 || t.src3 == 0xFF) &&
    t.stype3 == 0 && t.rnd == 0 && satOk t

/-- The source element. -/
def vmovOut (x : VecIn) : VecOut :=
  x.each (fun i => (x.a i, 0))

/-- VMOV (R263). -/
def execVmov (i : TplIssue) (s : State) : Out :=
  issueTpl (.vmov i) (vmovLegal i.tpl) (vecEffect i (src1Of i) false sameLanes vmovOut) s

/-- VADD takes F or I, one type throughout (R263). -/
def vaddLegal (t : Template) : Bool :=
  plainOk t && isVecDst t.dst && same2 t && noSrc3 t && isFI t.dtype && modeFI t

/-- The sum, rounded or reduced. -/
def vaddOut (x : VecIn) : VecOut :=
  x.each (fun i =>
    if isF x.t.dtype then x.round i (addNum x.t.rnd.toNat (x.num (x.a i)) (x.num (x.b i)))
    else x.int (x.intv (x.a i) + x.intv (x.b i)))

/-- VADD (R263). -/
def execVadd (i : TplIssue) (s : State) : Out :=
  issueTpl (.vadd i) (vaddLegal i.tpl) (vecEffect i (src2Of i) true sameLanes vaddOut) s

/-- VSUB takes F or I, one type throughout (R263). -/
def vsubLegal (t : Template) : Bool :=
  plainOk t && isVecDst t.dst && same2 t && noSrc3 t && isFI t.dtype && modeFI t

/-- The difference, rounded or reduced. -/
def vsubOut (x : VecIn) : VecOut :=
  x.each (fun i =>
    if isF x.t.dtype then x.round i (addNum x.t.rnd.toNat (x.num (x.a i)) (x.num (x.b i)).negate)
    else x.int (x.intv (x.a i) - x.intv (x.b i)))

/-- VSUB (R263). -/
def execVsub (i : TplIssue) (s : State) : Out :=
  issueTpl (.vsub i) (vsubLegal i.tpl) (vecEffect i (src2Of i) true sameLanes vsubOut) s

/-- VMUL takes F or I, one type throughout (R263). -/
def vmulLegal (t : Template) : Bool :=
  plainOk t && isVecDst t.dst && same2 t && noSrc3 t && isFI t.dtype && modeFI t

/-- The product, rounded or reduced. -/
def vmulOut (x : VecIn) : VecOut :=
  x.each (fun i =>
    if isF x.t.dtype then x.round i (mulNum (x.num (x.a i)) (x.num (x.b i)))
    else x.int (x.intv (x.a i) * x.intv (x.b i)))

/-- VMUL (R263). -/
def execVmul (i : TplIssue) (s : State) : Out :=
  issueTpl (.vmul i) (vmulLegal i.tpl) (vecEffect i (src2Of i) true sameLanes vmulOut) s

/-- The exact s1 * s2 + s3 with either sign turned, and its flags (R263). -/
def fusedNum (mode : Nat) (negP negC : Bool) (a b c : Num) : Num × BitVec 7 :=
  let p := mulNum a b
  let r := addNum mode (if negP then p.1.negate else p.1) (if negC then c.negate else c)
  (r.1, p.2 ||| r.2)

/-- VFMA takes F, one type throughout (R263). -/
def vfmaLegal (t : Template) : Bool :=
  plainOk t && isVecDst t.dst && same3 t && isF t.dtype && rounds t

/-- The fused result, rounded once. -/
def vfmaOut (x : VecIn) : VecOut :=
  x.each (fun i => x.round i (fusedNum x.t.rnd.toNat false false (x.num (x.a i)) (x.num (x.b i)) (x.num (x.c i))))

/-- VFMA (R263). -/
def execVfma (i : TplIssue) (s : State) : Out :=
  issueTpl (.vfma i) (vfmaLegal i.tpl) (vecEffect i (src3Of i) true sameLanes vfmaOut) s

/-- VFMS takes F, one type throughout (R263). -/
def vfmsLegal (t : Template) : Bool :=
  plainOk t && isVecDst t.dst && same3 t && isF t.dtype && rounds t

/-- The fused result, rounded once. -/
def vfmsOut (x : VecIn) : VecOut :=
  x.each (fun i => x.round i (fusedNum x.t.rnd.toNat false true (x.num (x.a i)) (x.num (x.b i)) (x.num (x.c i))))

/-- VFMS (R263). -/
def execVfms (i : TplIssue) (s : State) : Out :=
  issueTpl (.vfms i) (vfmsLegal i.tpl) (vecEffect i (src3Of i) true sameLanes vfmsOut) s

/-- VFNMA takes F, one type throughout (R263). -/
def vfnmaLegal (t : Template) : Bool :=
  plainOk t && isVecDst t.dst && same3 t && isF t.dtype && rounds t

/-- The fused result, rounded once. -/
def vfnmaOut (x : VecIn) : VecOut :=
  x.each (fun i => x.round i (fusedNum x.t.rnd.toNat true false (x.num (x.a i)) (x.num (x.b i)) (x.num (x.c i))))

/-- VFNMA (R263). -/
def execVfnma (i : TplIssue) (s : State) : Out :=
  issueTpl (.vfnma i) (vfnmaLegal i.tpl) (vecEffect i (src3Of i) true sameLanes vfnmaOut) s

/-! ## Order and sign (R264) -/

/-- The smaller or larger element (R264). -/
def VecIn.minMax (x : VecIn) (wantMax : Bool) (a b : Nat) : Res :=
  if isF x.t.dtype then
    let r := Machine.minMax wantMax (x.num a) (x.num b)
    let o := roundTo (fmtOf x.t.dtype) 0 false 0 r.1
    (o.1, r.2)
  else
    let u := x.intv a
    let v := x.intv b
    (if wantMax then (if u < v then b else a) else (if v < u then b else a), 0)

/-- VMIN takes F or I, one type throughout (R264). -/
def vminLegal (t : Template) : Bool :=
  plainOk t && isVecDst t.dst && same2 t && noSrc3 t && isFI t.dtype && t.rnd == 0

/-- The chosen element. -/
def vminOut (x : VecIn) : VecOut :=
  x.each (fun i => x.minMax false (x.a i) (x.b i))

/-- VMIN (R264). -/
def execVmin (i : TplIssue) (s : State) : Out :=
  issueTpl (.vmin i) (vminLegal i.tpl) (vecEffect i (src2Of i) false sameLanes vminOut) s

/-- VMAX takes F or I, one type throughout (R264). -/
def vmaxLegal (t : Template) : Bool :=
  plainOk t && isVecDst t.dst && same2 t && noSrc3 t && isFI t.dtype && t.rnd == 0

/-- The chosen element. -/
def vmaxOut (x : VecIn) : VecOut :=
  x.each (fun i => x.minMax true (x.a i) (x.b i))

/-- VMAX (R264). -/
def execVmax (i : TplIssue) (s : State) : Out :=
  issueTpl (.vmax i) (vmaxLegal i.tpl) (vecEffect i (src2Of i) false sameLanes vmaxOut) s

/-- VABS takes F or I (R264). -/
def vabsLegal (t : Template) : Bool :=
  plainOk t && isVecDst t.dst && same1 t && noSrc2 t && noSrc3 t && isFI t.dtype && t.rnd == 0

/-- The sign bit cleared, or the absolute value (R113). -/
def vabsOut (x : VecIn) : VecOut :=
  x.each (fun i =>
    if isF x.t.dtype then (x.a i % 2 ^ (typeWidth x.t.dtype - 1), 0) else x.int (x.intv (x.a i)).natAbs)

/-- VABS (R264). -/
def execVabs (i : TplIssue) (s : State) : Out :=
  issueTpl (.vabs i) (vabsLegal i.tpl) (vecEffect i (src1Of i) false sameLanes vabsOut) s

/-- VNEG takes F or I (R264). -/
def vnegLegal (t : Template) : Bool :=
  plainOk t && isVecDst t.dst && same1 t && noSrc2 t && noSrc3 t && isFI t.dtype && t.rnd == 0

/-- The sign bit inverted, or the opposite (R113). -/
def vnegOut (x : VecIn) : VecOut :=
  x.each (fun i =>
    let h := 2 ^ (typeWidth x.t.dtype - 1)
    if isF x.t.dtype then ((x.a i + h) % (2 * h), 0) else x.int (-(x.intv (x.a i))))

/-- VNEG (R264). -/
def execVneg (i : TplIssue) (s : State) : Out :=
  issueTpl (.vneg i) (vnegLegal i.tpl) (vecEffect i (src1Of i) false sameLanes vnegOut) s

/-- VCLAMP takes F or I, one type throughout (R264). -/
def vclampLegal (t : Template) : Bool :=
  plainOk t && isVecDst t.dst && same3 t && isFI t.dtype && t.rnd == 0

/-- VMIN(VMAX(s1, s2), s3). -/
def vclampOut (x : VecIn) : VecOut :=
  x.each (fun i =>
    let p := x.minMax true (x.a i) (x.b i)
    let r := x.minMax false p.1 (x.c i)
    (r.1, p.2 ||| r.2))

/-- VCLAMP (R264). -/
def execVclamp (i : TplIssue) (s : State) : Out :=
  issueTpl (.vclamp i) (vclampLegal i.tpl) (vecEffect i (src3Of i) false sameLanes vclampOut) s

/-! ## Compare, select, bitwise and shifts (R265, R266) -/

/-- The predicates of R265 from an order (-1, 0, 1) and whether an operand is NaN. -/
def predHolds (p : Nat) (nan : Bool) (c : Int) : Bool :=
  match p with
  | 0 => !nan && c == 0
  | 1 => nan || c != 0
  | 2 => !nan && decide (c < 0)
  | 3 => !nan && decide (c ≤ 0)
  | 4 => !nan && decide (0 < c)
  | 5 => !nan && decide (0 ≤ c)
  | 6 => nan
  | _ => !nan

/-- The predicate of a VCMP between elements `i`, and NV for a signalling NaN. -/
def VecIn.pred (x : VecIn) (i : Nat) : Bool × BitVec 7 :=
  let p := x.t.scale.toNat
  if isF x.t.dtype then
    let a := x.num (x.a i)
    let b := x.num (x.b i)
    (predHolds p (a.isNan || b.isNan) (cmpNum a b), sigFlag [a, b])
  else
    let d := x.intv (x.a i) - x.intv (x.b i)
    (predHolds p false (if d < 0 then -1 else if d = 0 then 0 else 1), 0)

/-- VCMP takes F or I; SCALE holds a predicate below 8 (R265). -/
def vcmpLegal (t : Template) : Bool :=
  vectorOk t && noK t && noMod t && (isVecDst t.dst || isM t.dst) && same2 t && noSrc3 t && isFI t.dtype && t.rnd == 0 && t.sat == 0 &&
    decide (t.scale.toNat < 8)

/-- All ones or zero in each element, or a bit for each lane of a mask. -/
def vcmpOut (x : VecIn) : VecOut :=
  let w := typeWidth x.t.dtype
  let o := x.each (fun i => let r := x.pred i; (if r.1 then 2 ^ w - 1 else 0, r.2))
  if isM x.t.dst then
    let lane := fun j => if w = 64 then (x.pred (j / 2)).1 else ((upTo (32 / w)).all (fun k => (x.pred (32 / w * j + k)).1))
    { o with d := BitVec.ofNat 2048 (packBits 1 ((upTo 64).map (fun j => (lane j).toNat))) }
  else o

/-- VCMP (R265). -/
def execVcmp (i : TplIssue) (s : State) : Out :=
  issueTpl (.vcmp i) (vcmpLegal i.tpl) (vecEffect i (src2Of i) false sameLanes vcmpOut) s

/-- VSEL takes any type and a mask register as src3 (R266). -/
def vselLegal (t : Template) : Bool :=
  plainOk t && isVecDst t.dst && same2 t && isM t.src3 && t.stype3 == 0 && t.rnd == 0 && satOk t

/-- s1 where the mask governs the element with a 1, otherwise s2. -/
def vselOut (x : VecIn) : VecOut :=
  x.each (fun i => (if activeElem x.sel (typeWidth x.t.dtype) i then x.a i else x.b i, 0))

/-- VSEL (R266). -/
def execVsel (i : TplIssue) (s : State) : Out :=
  issueTpl (.vsel i) (vselLegal i.tpl) (vecEffect i (src2Of i) false sameLanes vselOut) s

/-- VAND takes any type (R266). -/
def vandLegal (t : Template) : Bool :=
  plainOk t && isVecDst t.dst && same2 t && noSrc3 t && t.rnd == 0 && t.sat == 0

/-- The bits of each element. -/
def vandOut (x : VecIn) : VecOut :=
  x.each (fun i => (x.a i &&& x.b i, 0))

/-- VAND (R266). -/
def execVand (i : TplIssue) (s : State) : Out :=
  issueTpl (.vand i) (vandLegal i.tpl) (vecEffect i (src2Of i) false sameLanes vandOut) s

/-- VOR takes any type (R266). -/
def vorLegal (t : Template) : Bool :=
  plainOk t && isVecDst t.dst && same2 t && noSrc3 t && t.rnd == 0 && t.sat == 0

/-- The bits of each element. -/
def vorOut (x : VecIn) : VecOut :=
  x.each (fun i => (x.a i ||| x.b i, 0))

/-- VOR (R266). -/
def execVor (i : TplIssue) (s : State) : Out :=
  issueTpl (.vor i) (vorLegal i.tpl) (vecEffect i (src2Of i) false sameLanes vorOut) s

/-- VXOR takes any type (R266). -/
def vxorLegal (t : Template) : Bool :=
  plainOk t && isVecDst t.dst && same2 t && noSrc3 t && t.rnd == 0 && t.sat == 0

/-- The bits of each element. -/
def vxorOut (x : VecIn) : VecOut :=
  x.each (fun i => (x.a i ^^^ x.b i, 0))

/-- VXOR (R266). -/
def execVxor (i : TplIssue) (s : State) : Out :=
  issueTpl (.vxor i) (vxorLegal i.tpl) (vecEffect i (src2Of i) false sameLanes vxorOut) s

/-- VNOT takes any type (R266). -/
def vnotLegal (t : Template) : Bool :=
  plainOk t && isVecDst t.dst && same1 t && noSrc2 t && noSrc3 t && t.rnd == 0 && t.sat == 0

/-- The complement of each element. -/
def vnotOut (x : VecIn) : VecOut :=
  x.each (fun i => (2 ^ typeWidth x.t.dtype - 1 - x.a i, 0))

/-- VNOT (R266). -/
def execVnot (i : TplIssue) (s : State) : Out :=
  issueTpl (.vnot i) (vnotLegal i.tpl) (vecEffect i (src1Of i) false sameLanes vnotOut) s

/-- VSHL takes I (R266). -/
def vshlLegal (t : Template) : Bool :=
  plainOk t && isVecDst t.dst && same2 t && noSrc3 t && isInt t.dtype && t.rnd == 0 && t.sat == 0

/-- Shifted left by s2 mod w. -/
def vshlOut (x : VecIn) : VecOut :=
  let w := typeWidth x.t.dtype
  x.each (fun i => ((x.a i * 2 ^ (x.b i % w)) % 2 ^ w, 0))

/-- VSHL (R266). -/
def execVshl (i : TplIssue) (s : State) : Out :=
  issueTpl (.vshl i) (vshlLegal i.tpl) (vecEffect i (src2Of i) false sameLanes vshlOut) s

/-- VSHR takes I (R266). -/
def vshrLegal (t : Template) : Bool :=
  plainOk t && isVecDst t.dst && same2 t && noSrc3 t && isInt t.dtype && t.rnd == 0 && t.sat == 0

/-- Shifted right by s2 mod w, zeros in. -/
def vshrOut (x : VecIn) : VecOut :=
  let w := typeWidth x.t.dtype
  x.each (fun i => (x.a i / 2 ^ (x.b i % w), 0))

/-- VSHR (R266). -/
def execVshr (i : TplIssue) (s : State) : Out :=
  issueTpl (.vshr i) (vshrLegal i.tpl) (vecEffect i (src2Of i) false sameLanes vshrOut) s

/-- VSRA takes I (R266). -/
def vsraLegal (t : Template) : Bool :=
  plainOk t && isVecDst t.dst && same2 t && noSrc3 t && isInt t.dtype && t.rnd == 0 && t.sat == 0

/-- Shifted right by s2 mod w as a signed value. -/
def vsraOut (x : VecIn) : VecOut :=
  let w := typeWidth x.t.dtype
  x.each (fun i => (ofSigned w (toSigned w (x.a i) / ((2 ^ (x.b i % w) : Nat) : Int)), 0))

/-- VSRA (R266). -/
def execVsra (i : TplIssue) (s : State) : Out :=
  issueTpl (.vsra i) (vsraLegal i.tpl) (vecEffect i (src2Of i) false sameLanes vsraOut) s

/-! ## Mask logic (R267) -/

/-- The combination that RND names (R267), on `w` bits. -/
def maskLogic {w : Nat} (r : BitVec 3) (a b : BitVec w) : BitVec w :=
  match r.toNat with
  | 0 => a &&& b
  | 1 => a ||| b
  | 2 => a ^^^ b
  | 3 => a &&& ~~~b
  | 4 => ~~~a
  | 5 => a
  | 6 => BitVec.allOnes w
  | _ => 0

/-- How many sources a sub-operation uses (R267). -/
def logicSources (r : BitVec 3) : Nat := if r.toNat < 4 then 2 else if r.toNat < 6 then 1 else 0

/-- VMLOG takes all m or all km operands, no types and no lane mask (R267); SAT is a field of every vector kind (R258). -/
def vmlogLegal (t : Template) : Bool :=
  let k := logicSources t.rnd
  let ok := fun (p : BitVec 8 → Bool) => p t.dst && (if 1 ≤ k then p t.src1 else t.src1 == 0xFF) && (if k = 2 then p t.src2 else t.src2 == 0xFF)
  plainOk t && (ok isM || ok isKm) && t.src3 == 0xFF && t.dtype == 0 && t.stype1 == 0 && t.stype2 == 0 && t.stype3 == 0 &&
    t.lmsel == 0

/-- The result of a VMLOG and its destination. -/
def vmlogEffect (t : Template) (s : State) : Effect :=
  if isM t.dst then
    .write s (classBound t) [.m (t.dst.truncate 3) (maskLogic t.rnd (s.readM (t.src1.truncate 3) 1) (s.readM (t.src2.truncate 3) 2)) allLanes]
  else
    .write s (classBound t) [.km (t.dst.truncate 2) (maskLogic t.rnd (s.readKm (t.src1.truncate 2) 1) (s.readKm (t.src2.truncate 2) 2))]

/-- VMLOG (R267). -/
def execVmlog (i : TplIssue) (s : State) : Out :=
  issueTpl (.vmlog i) (vmlogLegal i.tpl) (fun s _ => vmlogEffect i.tpl s) s

/-! ## Movement (R268, R269) -/

/-- The element that VPERM takes for destination element `i`. -/
def VecIn.permIdx (x : VecIn) (i : Nat) : Nat :=
  let w := typeWidth x.t.stype1
  elemAt w x.e2 i % (2048 / w)

/-- The element that VBCAST takes. -/
def VecIn.bcastIdx (x : VecIn) : Nat := x.e2 % 2 ^ 32 % (2048 / typeWidth x.t.stype1)

/-- The lanes that VPERM reads. -/
def permLanes (x : VecIn) : List (BitVec 64) :=
  let w := typeWidth x.t.dtype
  let l := activeBelow x.mask w (2048 / w)
  [lanesOf w (l.map x.permIdx), lanesOf w l]

/-- The lanes that VBCAST reads. -/
def bcastLanes (x : VecIn) : List (BitVec 64) := [lanesOf (typeWidth x.t.dtype) [x.bcastIdx], 1]

/-- The lanes of element 0. -/
def firstLanes (x : VecIn) : List (BitVec 64) := [lanesOf (typeWidth x.t.stype1) [0]]

/-- A movement kind with DTYPE = STYPE1 (R268). -/
def moveOk (t : Template) : Bool := plainOk t && isVecDst t.dst && same1 t && noSrc3 t && t.rnd == 0 && t.sat == 0

/-- VPERM takes types of 8 to 64 bits; STYPE2 is unused (R268). -/
def vpermLegal (t : Template) : Bool :=
  moveOk t && isVecSrc t.src2 && t.stype2 == 0 && t.dtype != 13 && t.dtype != 14

/-- s1(idx(i) mod n). -/
def vpermOut (x : VecIn) : VecOut :=
  x.each (fun i => (x.a (x.permIdx i), 0))

/-- VPERM (R268). -/
def execVperm (i : TplIssue) (s : State) : Out :=
  issueTpl (.vperm i) (vpermLegal i.tpl) (vecEffect i (src2Of i) false permLanes vpermOut) s

/-- VBCAST takes any type; STYPE2 is unused (R268). -/
def vbcastLegal (t : Template) : Bool :=
  moveOk t && isVecSrc t.src2 && t.stype2 == 0

/-- The element that lane 0 of src2 numbers. -/
def vbcastOut (x : VecIn) : VecOut :=
  x.each (fun _ => (x.a x.bcastIdx, 0))

/-- VBCAST (R268). -/
def execVbcast (i : TplIssue) (s : State) : Out :=
  issueTpl (.vbcast i) (vbcastLegal i.tpl) (vecEffect i (src2Of i) false bcastLanes vbcastOut) s

/-- VSPLAT takes any type (R268). -/
def vsplatLegal (t : Template) : Bool :=
  moveOk t && noSrc2 t

/-- Element 0 everywhere. -/
def vsplatOut (x : VecIn) : VecOut :=
  x.each (fun _ => (x.a 0, 0))

/-- VSPLAT (R268). -/
def execVsplat (i : TplIssue) (s : State) : Out :=
  issueTpl (.vsplat i) (vsplatLegal i.tpl) (vecEffect i (src1Of i) false firstLanes vsplatOut) s

/-- VIOTA takes I, with saturation allowed (R268). -/
def viotaLegal (t : Template) : Bool :=
  plainOk t && isVecDst t.dst && same1 t && noSrc2 t && noSrc3 t && isInt t.dtype && t.rnd == 0

/-- s1(0) + i under R113. -/
def viotaOut (x : VecIn) : VecOut :=
  x.each (fun i => x.int (x.intv (x.a 0) + i))

/-- VIOTA (R268). -/
def execViota (i : TplIssue) (s : State) : Out :=
  issueTpl (.viota i) (viotaLegal i.tpl) (vecEffect i (src1Of i) false firstLanes viotaOut) s

/-- VPOPC takes I (R268). -/
def vpopcLegal (t : Template) : Bool :=
  moveOk t && noSrc2 t && isInt t.dtype

/-- The count of one bits. -/
def vpopcOut (x : VecIn) : VecOut :=
  x.each (fun i => (countOf (bitAt (x.a i)) (upTo (typeWidth x.t.dtype)), 0))

/-- VPOPC (R268). -/
def execVpopc (i : TplIssue) (s : State) : Out :=
  issueTpl (.vpopc i) (vpopcLegal i.tpl) (vecEffect i (src1Of i) false sameLanes vpopcOut) s

/-- VPACK and VUNPK: no types, no lane mask, K a multiple of 32 from 32 to 1,024 (R269); SAT is a field of every vector kind (R258). -/
def packOk (t : Template) : Bool :=
  vectorOk t && noScale t && noMod t && isVecDst t.dst && isVecSrc t.src1 && noSrc3 t && t.dtype == 0 && t.stype1 == 0 &&
    t.stype2 == 0 && t.lmsel == 0 && t.rnd == 0 && t.k.toNat % 32 == 0 && decide (32 ≤ t.k.toNat) &&
    decide (t.k.toNat ≤ 1024)

/-- The lanes that VPACK and VUNPK read: those of s1 from bit w, those of s2 below it. -/
def packLanes (x : VecIn) : List (BitVec 64) := [allLanes <<< (x.t.k.toNat / 32), BitVec.ofNat 64 (2 ^ (x.t.k.toNat / 32) - 1)]

/-- VPACK (R269). -/
def vpackLegal (t : Template) : Bool :=
  packOk t && isVecSrc t.src2

/-- s1 shifted right by w, the low w bits of s2 above. -/
def vpackOut (x : VecIn) : VecOut :=
  let w := x.t.k.toNat
  { d := BitVec.ofNat 2048 (x.e1 / 2 ^ w + x.e2 % 2 ^ w * 2 ^ (2048 - w)), lanes := allLanes, flags := 0 }

/-- VPACK (R269). -/
def execVpack (i : TplIssue) (s : State) : Out :=
  issueTpl (.vpack i) (vpackLegal i.tpl) (vecEffect i (src2Of i) false packLanes vpackOut) s

/-- VUNPK (R269). -/
def vunpkLegal (t : Template) : Bool :=
  packOk t && t.src2 == 0xFF

/-- s1 shifted right by w. -/
def vunpkOut (x : VecIn) : VecOut :=
  { d := BitVec.ofNat 2048 (x.e1 / 2 ^ x.t.k.toNat), lanes := allLanes, flags := 0 }

/-- VUNPK (R269). -/
def execVunpk (i : TplIssue) (s : State) : Out :=
  issueTpl (.vunpk i) (vunpkLegal i.tpl) (vecEffect i (src1Of i) false packLanes vunpkOut) s

/-! ## Conversion and quantisation (R270, R271) -/

/-- A pair of types that R119 and R120 convert. -/
def convertible (d s : BitVec 4) : Bool :=
  if d = 15 ∨ s = 15 then (d == 15 || isInt d) && (s == 15 || isInt s) else true

/-- The lanes that a kind whose widths may differ reads of src1. -/
def convertLanes (x : VecIn) : List (BitVec 64) := [pairedLanes x (typeWidth x.t.stype1)]

/-- VCVT takes the pairs of R119 and R120; MODULUS is read for .m64 (R270). -/
def vcvtLegal (t : Template) : Bool :=
  vectorOk t && noScale t && noK t && isVecDst t.dst && isVecSrc t.src1 && noSrc2 t && noSrc3 t && convertible t.dtype t.stype1 && rounds t &&
    satOk t && (if t.dtype = 15 ∨ t.stype1 = 15 then modulusOk t.modulus.toNat else noMod t)

/-- Each paired element converted; active elements beyond them are zero (R261). -/
def vcvtOut (x : VecIn) : VecOut :=
  let n := 2048 / Nat.max (typeWidth x.t.dtype) (typeWidth x.t.stype1)
  x.each (fun i =>
    if i < n then convert x.t.dtype x.t.stype1 x.t.modulus.toNat x.t.rnd.toNat (x.t.sat == 1) (x.draw i) (x.a i) else (0, 0))

/-- VCVT (R270). -/
def execVcvt (i : TplIssue) (s : State) : Out :=
  issueTpl (.vcvt i) (vcvtLegal i.tpl) (vecEffect i (src1Of i) true convertLanes vcvtOut) s

/-- An MX element type (R271). -/
def isMx (t : BitVec 4) : Bool := t == 0 || t == 11 || t == 13

/-- The lanes of src1 that VQNT reads: those of its active elements. -/
def quantLanes (x : VecIn) : List (BitVec 64) := [laneSet x.mask (typeWidth x.t.stype1)]

/-- The lanes of src1 that VDQNT reads: the codes of its active elements and their scales. -/
def dequantLanes (x : VecIn) : List (BitVec 64) :=
  let wd := typeWidth x.t.dtype
  let l := (activeBelow x.mask wd (2048 / wd)).map (fun i => x.t.k.toNat + i)
  [lanesOf (typeWidth x.t.stype1) l ||| lanesOf 8 (l.map (fun i => 192 + i / 32))]

/-- VQNT writes the staging form of an MX element type from F (R271). -/
def vqntLegal (t : Template) : Bool :=
  vectorOk t && t.scale == 1 && noK t && noMod t && isVecDst t.dst && isVecSrc t.src1 && noSrc2 t && noSrc3 t && isMx t.dtype && isF t.stype1 && rounds t

/-- The staging form: element codes from bit 0, scales from byte 192 (R122). -/
def vqntOut (x : VecIn) : VecOut :=
  let ws := typeWidth x.t.stype1
  let val := fun i => if activeElem x.mask ws i then decodeNum (fmtOf x.t.stype1) (x.a i) else .exact false 0 0
  let bs := (upTo (2048 / ws / 32)).map (fun b =>
    mxBlock x.t.dtype x.t.rnd.toNat (fun i => x.draw (32 * b + i)) ((upTo 32).map (fun i => val (32 * b + i))))
  { d := BitVec.ofNat 2048 (packBits (typeWidth x.t.dtype) (bs.flatMap (fun b => b.2.1)) + packBits 8 (bs.map Prod.fst) * 2 ^ 1536)
    lanes := allLanes
    flags := bs.foldl (fun f b => f ||| b.2.2) 0 }

/-- VQNT (R271). -/
def execVqnt (i : TplIssue) (s : State) : Out :=
  issueTpl (.vqnt i) (vqntLegal i.tpl) (vecEffect i (src1Of i) true quantLanes vqntOut) s

/-- VDQNT reads the staging form of an MX element type into F; K selects the elements (R271). -/
def vdqntLegal (t : Template) : Bool :=
  vectorOk t && t.scale == 1 && noMod t && isVecDst t.dst && isVecSrc t.src1 && noSrc2 t && noSrc3 t && isF t.dtype && isMx t.stype1 && rounds t &&
    (t.k == 0 || (t.k == 64 && t.dtype == 8))

/-- Each element under its block scale, rounded (R121). -/
def vdqntOut (x : VecIn) : VecOut :=
  x.each (fun i =>
    let j := x.t.k.toNat + i
    x.round i (mxValue x.t.stype1 (elemAt 8 x.e1 (192 + j / 32)) (x.a j), 0))

/-- VDQNT (R271). -/
def execVdqnt (i : TplIssue) (s : State) : Out :=
  issueTpl (.vdqnt i) (vdqntLegal i.tpl) (vecEffect i (src1Of i) true dequantLanes vdqntOut) s

/-! ## Special functions (R272 to R275) -/

/-- VEXP2 takes F (R272). -/
def vexp2Legal (t : Template) : Bool :=
  plainOk t && isVecDst t.dst && same1 t && noSrc2 t && noSrc3 t && isF t.dtype && rounds t && t.sat == 0

/-- The correctly rounded function. -/
def vexp2Out (x : VecIn) : VecOut :=
  x.each (fun i => x.round i (specialFn 0 (x.num (x.a i))))

/-- VEXP2 (R272). -/
def execVexp2 (i : TplIssue) (s : State) : Out :=
  issueTpl (.vexp2 i) (vexp2Legal i.tpl) (vecEffect i (src1Of i) true sameLanes vexp2Out) s

/-- VLOG2 takes F (R272). -/
def vlog2Legal (t : Template) : Bool :=
  plainOk t && isVecDst t.dst && same1 t && noSrc2 t && noSrc3 t && isF t.dtype && rounds t && t.sat == 0

/-- The correctly rounded function. -/
def vlog2Out (x : VecIn) : VecOut :=
  x.each (fun i => x.round i (specialFn 1 (x.num (x.a i))))

/-- VLOG2 (R272). -/
def execVlog2 (i : TplIssue) (s : State) : Out :=
  issueTpl (.vlog2 i) (vlog2Legal i.tpl) (vecEffect i (src1Of i) true sameLanes vlog2Out) s

/-- VRCP takes F (R272). -/
def vrcpLegal (t : Template) : Bool :=
  plainOk t && isVecDst t.dst && same1 t && noSrc2 t && noSrc3 t && isF t.dtype && rounds t && t.sat == 0

/-- The correctly rounded function. -/
def vrcpOut (x : VecIn) : VecOut :=
  x.each (fun i => x.round i (specialFn 2 (x.num (x.a i))))

/-- VRCP (R272). -/
def execVrcp (i : TplIssue) (s : State) : Out :=
  issueTpl (.vrcp i) (vrcpLegal i.tpl) (vecEffect i (src1Of i) true sameLanes vrcpOut) s

/-- VRSQ takes F (R272). -/
def vrsqLegal (t : Template) : Bool :=
  plainOk t && isVecDst t.dst && same1 t && noSrc2 t && noSrc3 t && isF t.dtype && rounds t && t.sat == 0

/-- The correctly rounded function. -/
def vrsqOut (x : VecIn) : VecOut :=
  x.each (fun i => x.round i (specialFn 3 (x.num (x.a i))))

/-- VRSQ (R272). -/
def execVrsq (i : TplIssue) (s : State) : Out :=
  issueTpl (.vrsq i) (vrsqLegal i.tpl) (vecEffect i (src1Of i) true sameLanes vrsqOut) s

/-- VSQRT takes F (R272). -/
def vsqrtLegal (t : Template) : Bool :=
  plainOk t && isVecDst t.dst && same1 t && noSrc2 t && noSrc3 t && isF t.dtype && rounds t && t.sat == 0

/-- The correctly rounded function. -/
def vsqrtOut (x : VecIn) : VecOut :=
  x.each (fun i => x.round i (specialFn 4 (x.num (x.a i))))

/-- VSQRT (R272). -/
def execVsqrt (i : TplIssue) (s : State) : Out :=
  issueTpl (.vsqrt i) (vsqrtLegal i.tpl) (vecEffect i (src1Of i) true sameLanes vsqrtOut) s

/-- The pairs of VROPE that are active: those whose first element is (R273). -/
def ropePairs (x : VecIn) : List Nat :=
  (upTo (1024 / typeWidth x.t.dtype)).filter (fun i => activeElem x.mask (typeWidth x.t.dtype) (2 * i))

/-- The lanes that VROPE reads. -/
def ropeLanes (x : VecIn) : List (BitVec 64) :=
  let l := ropePairs x
  [lanesOf (typeWidth x.t.dtype) (l.flatMap (fun i => [2 * i, 2 * i + 1])), lanesOf 32 l, lanesOf 32 l]

/-- One output of a rotation; `odd` picks the second of the pair. -/
def VecIn.rope (x : VecIn) (i : Nat) (odd : Bool) : Res :=
  let w := ofF32 (elemAt 32 x.e3 i)
  if w.isNan || w.isInf then (canonNan (fmtOf x.t.dtype), flagNV)
  else
    let f := ropeFactors (elemAt 32 x.e2 i) w
    let x0 := x.num (x.a (2 * i))
    let x1 := x.num (x.a (2 * i + 1))
    if odd then rotOut (fmtOf x.t.dtype) x.t.rnd.toNat (x.draw (2 * i + 1)) x0 f.2 x1 f.1
    else rotOut (fmtOf x.t.dtype) x.t.rnd.toNat (x.draw (2 * i)) x0 f.1 x1 f.2.negate

/-- The bit of the first element of a pair governs both of its elements (R273); 16-bit elements of a pair share a lane. -/
def pairMask (x : VecIn) : BitVec 64 :=
  if typeWidth x.t.dtype = 32 then laneSet x.mask 64 else x.mask

/-- VROPE: DTYPE = STYPE1 in F, positions .n32, turns .f32 (R273). -/
def vropeLegal (t : Template) : Bool :=
  plainOk t && isVecDst t.dst && same1 t && isVecSrc t.src2 && t.stype2 == 6 && isVecSrc t.src3 && t.stype3 == 8 && isF t.dtype && rounds t &&
    t.sat == 0

/-- Each pair rotated. -/
def vropeOut (x : VecIn) : VecOut :=
  eachElem { x with mask := pairMask x } (typeWidth x.t.dtype) (fun i => x.rope (i / 2) (i % 2 == 1))

/-- VROPE (R273). -/
def execVrope (i : TplIssue) (s : State) : Out :=
  issueTpl (.vrope i) (vropeLegal i.tpl) (vecEffect i (src3Of i) true ropeLanes vropeOut) s

/-- VSMX: all types .f32 (R274). -/
def vsmxLegal (t : Template) : Bool :=
  plainOk t && isVecDst t.dst && same2 t && noSrc3 t && t.dtype == 8 && rounds t && t.sat == 0

/-- 2^(x - m). -/
def vsmxOut (x : VecIn) : VecOut :=
  x.each (fun i => softmaxStep x.t.rnd.toNat (x.draw i) (x.num (x.a i)) (x.num (x.b i)))

/-- VSMX (R274). -/
def execVsmx (i : TplIssue) (s : State) : Out :=
  issueTpl (.vsmx i) (vsmxLegal i.tpl) (vecEffect i (src2Of i) true sameLanes vsmxOut) s

/-- The lanes that VMRG reads: the active ones of the components, lanes 0 and 1 of src3. -/
def mergeLanesRead (x : VecIn) : List (BitVec 64) := [x.mask, x.mask, 3]

/-- VMRG: all types .f32 (R275). -/
def vmrgLegal (t : Template) : Bool :=
  plainOk t && isVecDst t.dst && same3 t && t.dtype == 8 && t.rnd == 0 && t.sat == 0

/-- The merged components. -/
def vmrgOut (x : VecIn) : VecOut :=
  x.each (fun i => mergeComp (x.num (x.c 0)) (x.num (x.c 1)) (x.a i) (x.b i))

/-- VMRG (R275). -/
def execVmrg (i : TplIssue) (s : State) : Out :=
  issueTpl (.vmrg i) (vmrgLegal i.tpl) (vecEffect i (src3Of i) false mergeLanesRead vmrgOut) s

/-! ## Reductions, scans and four-way dots (R276, R277) -/

/-- An operation on floating-point nodes (R127): 0 add, 1 min, 2 max, with the node's rounding to binary32. -/
def floatNode (op mode : Nat) (sat : Bool) (a b : Num × BitVec 7) : Num × BitVec 7 :=
  let m := if mode = 5 then 0 else mode
  let r := if op = 0 then addNum m a.1 b.1 else Machine.minMax (op == 2) a.1 b.1
  let o := roundTo fmtF32 m sat 0 r.1
  (ofF32 o.1, a.2 ||| b.2 ||| r.2 ||| o.2)

/-- An operation on integer nodes of width `w` (R127). -/
def intNode (op w : Nat) (sgn sat : Bool) (a b : Int × BitVec 7) : Int × BitVec 7 :=
  let v := if op = 0 then a.1 + b.1 else if op = 1 then (if b.1 < a.1 then b.1 else a.1) else (if a.1 < b.1 then b.1 else a.1)
  let r := intTo w sgn sat v
  (if sgn then toSigned w r.1 else (r.1 : Int), a.2 ||| b.2 ||| r.2)

/-- One level of the pairwise tree. -/
def pairUp {α : Type} (f : α → α → α) : List α → List α
  | a :: b :: t => f a b :: pairUp f t
  | l => l

/-- The tree of R127 over `2^n` values. -/
def reduceTree {α : Type} (f : α → α → α) : Nat → List α → List α
  | 0, l => l
  | n + 1, l => reduceTree f n (pairUp f l)

/-- One step of the scan network with distance `d` (R128). -/
def scanStep {α : Type} (f : α → α → α) (d : Nat) (l : List α) : List α :=
  l.take d ++ List.zipWith f (l.drop d) l

/-- The scan network of R128: the distances 1, 2, 4 and so on, `n` of them. -/
def scanNet {α : Type} (f : α → α → α) : Nat → Nat → List α → List α
  | 0, _, l => l
  | n + 1, d, l => scanNet f n (2 * d) (scanStep f d l)

/-- The identity of a float operation (R127). -/
def floatIdentity (op : Nat) : Num := if op = 0 then .exact true 0 0 else .inf (op == 2)

/-- The identity of an integer operation on the source type (R127). -/
def intIdentity (op : Nat) (t : BitVec 4) : Int :=
  let w := typeWidth t
  if op = 0 then 0
  else if op = 1 then (if isSignedT t then (2 ^ (w - 1) : Nat) - 1 else (2 ^ w : Nat) - 1)
  else if isSignedT t then -(2 ^ (w - 1) : Nat) else 0

/-- Types and fields of VRED and VSCAN (R276). No rule says whether their integer forms perform a rounding: the model takes it that they do
not, so that RND is 0 there (R114, R127; DESIGN CHOICE, log 35). -/
def reduceOk (t : Template) : Bool :=
  vectorOk t && decide (t.scale.toNat < 3) && noK t && noMod t && isVecDst t.dst && isVecSrc t.src1 && noSrc2 t && noSrc3 t &&
    (if isFloat t.stype1 then isF t.dtype && rounds t else isInt t.stype1 && isInt t.dtype && t.rnd == 0)

/-- The inputs of a reduction or scan over floating-point elements (DEDUCED, log 35). -/
def floatInputs (x : VecIn) (w n : Nat) : List (Num × BitVec 7) :=
  (upTo n).map (fun i =>
    (if activeElem x.mask w i then decodeNum (fmtOf x.t.stype1) (x.a i) else floatIdentity x.t.scale.toNat, 0))

/-- The inputs of a reduction or scan over integers. -/
def intInputs (x : VecIn) (w n : Nat) : List (Int × BitVec 7) :=
  (upTo n).map (fun i =>
    (if activeElem x.mask w i then intOf x.t.stype1 (x.a i) else intIdentity x.t.scale.toNat x.t.stype1, 0))

/-- The width of integer nodes (R127). -/
def nodeWidth (t : Template) : Nat := Nat.max 32 (Nat.max (typeWidth t.stype1) (typeWidth t.dtype))

/-- The node operations of a record. -/
def VecIn.fnode (x : VecIn) : Num × BitVec 7 → Num × BitVec 7 → Num × BitVec 7 :=
  floatNode x.t.scale.toNat x.t.rnd.toNat (x.t.sat == 1)
def VecIn.inode (x : VecIn) : Int × BitVec 7 → Int × BitVec 7 → Int × BitVec 7 :=
  intNode x.t.scale.toNat (nodeWidth x.t) (isSignedT x.t.dtype) (x.t.sat == 1)

/-- The final conversions (R127). -/
def VecIn.fout (x : VecIn) (i : Nat) (v : Num × BitVec 7) : Res :=
  let r := numToFmt (fmtOf x.t.dtype) x.t.rnd.toNat (x.t.sat == 1) (x.draw i) v.1
  (r.1, v.2 ||| r.2)
def VecIn.iout (x : VecIn) (v : Int × BitVec 7) : Res :=
  let r := x.int v.1
  (r.1, v.2 ||| r.2)

/-- VRED (R276). -/
def vredLegal (t : Template) : Bool :=
  reduceOk t

/-- Element 0 holds the reduction, every other element 0. -/
def vredOut (x : VecIn) : VecOut :=
  let ws := typeWidth x.t.stype1
  let n := 2048 / ws
  let r : Res :=
    if isFloat x.t.stype1 then x.fout 0 ((reduceTree x.fnode (Nat.log2 n) (floatInputs x ws n)).headD (.nan false, 0))
    else x.iout ((reduceTree x.inode (Nat.log2 n) (intInputs x ws n)).headD (0, 0))
  { d := BitVec.ofNat 2048 r.1, lanes := allLanes, flags := r.2 }

/-- VRED (R276). -/
def execVred (i : TplIssue) (s : State) : Out :=
  issueTpl (.vred i) (vredLegal i.tpl) (vecEffect i (src1Of i) true quantLanes vredOut) s

/-- VSCAN: the destination has at least as many elements as the source (R276). -/
def vscanLegal (t : Template) : Bool :=
  reduceOk t && decide (typeWidth t.dtype ≤ typeWidth t.stype1)

/-- Prefix i in element i. Neither R128 nor R132 says whether a node at an inactive position raises its flags where an active prefix takes
it in: here it does, with the flags of all that a prefix is made of (DESIGN CHOICE, log 35). -/
def vscanOut (x : VecIn) : VecOut :=
  let wd := typeWidth x.t.dtype
  let n := 2048 / typeWidth x.t.stype1
  let rs : List Res :=
    if isFloat x.t.stype1 then ((scanNet x.fnode (Nat.log2 n) 1 (floatInputs x wd n)).zipIdx).map (fun p => x.fout p.2 p.1)
    else (scanNet x.inode (Nat.log2 n) 1 (intInputs x wd n)).map x.iout
  x.each (fun i => rs.getD i (0, 0))

/-- VSCAN (R276). -/
def execVscan (i : TplIssue) (s : State) : Out :=
  issueTpl (.vscan i) (vscanLegal i.tpl) (vecEffect i (src1Of i) true convertLanes vscanOut) s

/-- The types of VDOT4 (R277). -/
def dotOk (t : Template) : Bool :=
  let b := fun (s : BitVec 4) => s == 0 || s == 4
  (t.dtype == 2 && t.stype3 == 2 && b t.stype1 && b t.stype2 && t.rnd == 0) ||
    (t.dtype == 8 && t.stype3 == 8 && isF8 t.stype1 && isF8 t.stype2 && rounds t)

/-- VDOT4 (R277). -/
def vdot4Legal (t : Template) : Bool :=
  plainOk t && isVecDst t.dst && isVecSrc t.src1 && isVecSrc t.src2 && isVecSrc t.src3 && dotOk t

/-- s3(j) plus the four products of lane j. -/
def vdot4Out (x : VecIn) : VecOut :=
  x.each (fun j =>
    let ks := (upTo 4).map (fun k => 4 * j + k)
    if x.t.dtype = 2 then
      x.int (ks.foldl (fun a k => a + intOf x.t.stype1 (x.a k) * intOf x.t.stype2 (x.b k)) (x.intv (x.c j)))
    else
      let p := ks.map (fun k => mulNum (decodeNum (fmtOf x.t.stype1) (x.a k)) (decodeNum (fmtOf x.t.stype2) (x.b k)))
      x.round j (sumNums x.t.rnd.toNat (x.num (x.c j)) p))

/-- VDOT4 (R277). -/
def execVdot4 (i : TplIssue) (s : State) : Out :=
  issueTpl (.vdot4 i) (vdot4Legal i.tpl) (vecEffect i (src3Of i) true sameLanes vdot4Out) s

/-! ## Modular kinds (R278, R279) -/

/-- The fields of a modular kind: a legal modulus, a convention in RND, no saturation (R129, R130, R278). -/
def modularOk (t : Template) : Bool :=
  vectorOk t && noScale t && noK t && isVecDst t.dst && t.dtype == 15 && modulusOk t.modulus.toNat && decide (t.rnd.toNat ≤ 1) && t.sat == 0

/-- The modulus, and a residue input of it. -/
def VecIn.q (x : VecIn) : Nat := x.t.modulus.toNat
def VecIn.res (x : VecIn) (v : Nat) : Nat := (residue x.q v).1
def VecIn.mr (x : VecIn) (l : List Nat) : BitVec 7 := l.foldl (fun f v => f ||| (residue x.q v).2) 0
def VecIn.mulq (x : VecIn) (a b : Nat) : Nat := mulMod (x.t.rnd == 1) x.q a b

/-- VMADD takes .m64 (R278). -/
def vmaddLegal (t : Template) : Bool :=
  modularOk t && same2 t && noSrc3 t

/-- The sum modulo q. -/
def vmaddOut (x : VecIn) : VecOut :=
  x.each (fun i => ((x.res (x.a i) + x.res (x.b i)) % x.q, x.mr [x.a i, x.b i]))

/-- VMADD (R278). -/
def execVmadd (i : TplIssue) (s : State) : Out :=
  issueTpl (.vmadd i) (vmaddLegal i.tpl) (vecEffect i (src2Of i) false sameLanes vmaddOut) s

/-- VMSUB takes .m64 (R278). -/
def vmsubLegal (t : Template) : Bool :=
  modularOk t && same2 t && noSrc3 t

/-- The difference modulo q. -/
def vmsubOut (x : VecIn) : VecOut :=
  x.each (fun i => ((x.res (x.a i) + x.q - x.res (x.b i)) % x.q, x.mr [x.a i, x.b i]))

/-- VMSUB (R278). -/
def execVmsub (i : TplIssue) (s : State) : Out :=
  issueTpl (.vmsub i) (vmsubLegal i.tpl) (vecEffect i (src2Of i) false sameLanes vmsubOut) s

/-- VMMUL takes .m64 (R278). -/
def vmmulLegal (t : Template) : Bool :=
  modularOk t && same2 t && noSrc3 t

/-- The product in the convention of RND. -/
def vmmulOut (x : VecIn) : VecOut :=
  x.each (fun i => (x.mulq (x.res (x.a i)) (x.res (x.b i)), x.mr [x.a i, x.b i]))

/-- VMMUL (R278). -/
def execVmmul (i : TplIssue) (s : State) : Out :=
  issueTpl (.vmmul i) (vmmulLegal i.tpl) (vecEffect i (src2Of i) false sameLanes vmmulOut) s

/-- VMRED takes .n64 into .m64 (R278). -/
def vmredLegal (t : Template) : Bool :=
  modularOk t && isVecSrc t.src1 && t.stype1 == 7 && noSrc2 t && noSrc3 t

/-- Any 64-bit value reduced; no MR. -/
def vmredOut (x : VecIn) : VecOut :=
  x.each (fun i => (if x.t.rnd = 1 then x.a i % x.q * invR x.q % x.q else x.a i % x.q, 0))

/-- VMRED (R278). -/
def execVmred (i : TplIssue) (s : State) : Out :=
  issueTpl (.vmred i) (vmredLegal i.tpl) (vecEffect i (src1Of i) false sameLanes vmredOut) s

/-- Butterfly `i` is active when element i is; it governs elements i and 16 + i (R279). -/
def butterflyMask (x : VecIn) : BitVec 64 :=
  let low := laneSet x.mask 64 &&& 0xFFFFFFFF#64
  low ||| (low <<< 32)

/-- The lanes that a butterfly kind reads. -/
def butterflyLanes (x : VecIn) : List (BitVec 64) := [butterflyMask x, laneSet x.mask 64 &&& 0xFFFFFFFF#64]

/-- VNTT takes .m64 (R279). -/
def vnttLegal (t : Template) : Bool :=
  modularOk t && same2 t && noSrc3 t

/-- The outputs of Cooley-Tukey butterflies (R131). -/
def vnttOut (x : VecIn) : VecOut :=
  eachElem { x with mask := butterflyMask x } 64 (fun i =>
    let k := i % 16
    let a := x.res (x.a k)
    let p := x.mulq (x.res (x.b k)) (x.res (x.a (16 + k)))
    (if i < 16 then (a + p) % x.q else (a + x.q - p) % x.q, x.mr [x.a k, x.a (16 + k), x.b k]))

/-- VNTT (R279). -/
def execVntt (i : TplIssue) (s : State) : Out :=
  issueTpl (.vntt i) (vnttLegal i.tpl) (vecEffect i (src2Of i) false butterflyLanes vnttOut) s

/-- VINTT takes .m64 (R279). -/
def vinttLegal (t : Template) : Bool :=
  modularOk t && same2 t && noSrc3 t

/-- The outputs of Gentleman-Sande butterflies (R131). -/
def vinttOut (x : VecIn) : VecOut :=
  eachElem { x with mask := butterflyMask x } 64 (fun i =>
    let k := i % 16
    let a := x.res (x.a k)
    let b := x.res (x.a (16 + k))
    (if i < 16 then (a + b) % x.q else x.mulq ((a + x.q - b) % x.q) (x.res (x.b k)), x.mr [x.a k, x.a (16 + k), x.b k]))

/-- VINTT (R279). -/
def execVintt (i : TplIssue) (s : State) : Out :=
  issueTpl (.vintt i) (vinttLegal i.tpl) (vecEffect i (src2Of i) false butterflyLanes vinttOut) s

end Sys2Proof.Machine
end

