-- ==== Sys2Proof/Machine/Images.lean ====
section
/-! DEFINITION. The save image as words of memory (R416 to R419). -/

namespace Sys2Proof.Machine

open Sys2Proof

/-- A section of `n` words: the list, then zeros. -/
def section64 (n : Nat) (l : List Word64) : List Word64 := (l ++ List.replicate n 0#64).take n

/-- The twelve words of a record, words 3 to 14 of R413. -/
def recordWords (r : FaultRec) : List Word64 := [r.cause, r.pc, r.seq, r.addr] ++ r.snap.toList

/-- The index of a slot of an E FIFO by its identifier. -/
def eIndex (sq : SeqState) (id : Nat) : Nat := (findFrom (fun x => x.id == id) 0 sq.e).getD 0

/-- The header (R417). -/
def imgHeader (im : Image) : List Word64 :=
  let t := im.task
  let present := allSeqs.foldl (fun n q => n + (t.seqs.get q.num).present.toNat * 2 ^ q.num.toNat) 0
  [ BitVec.ofNat 64 (0x56415349 + 4 * 2 ^ 32 + im.valid.toNat * 2 ^ 40 + im.enc.toNat * 2 ^ 41),
    BitVec.ofNat 64 (t.ident.lid.toNat + t.ident.queue.toNat * 2 ^ 16 + t.ident.world.toNat * 2 ^ 32 + present * 2 ^ 40),
    t.ident.taskId, im.core.zeroExtend 64, im.tp, t.tofs ]

/-- The bits of a list of truth values, the first lowest. -/
def bitsFrom (l : List Bool) : Nat := packBits 1 (l.map Bool.toNat)

/-- One sequencer's block (R417). -/
def imgBlock (active : BitVec 1) (sq : SeqState) : List Word64 :=
  let flags := sq.exited.toNat + sq.popped.toNat * 2 + sq.swapWait.toNat * 4 + sq.delay.owed.toNat * 8 + sq.delay.taken.toNat * 32 +
    sq.delay.next.toNat * 2 ^ 16
  let loops := sq.loops.toList.flatMap (fun l =>
    [BitVec.ofNat 64 (l.start.toNat + l.stop.toNat * 2 ^ 16 + l.active.toNat * 2 ^ 32 + l.nest.toNat * 2 ^ 33), 0#64])
  let err := match sq.objErr with
    | some (obj, r) => (obj ||| (1#64 <<< 63)) :: recordWords r
    | none => [0#64]
  section64 4 [BitVec.ofNat 64 (sq.pc.toNat + active.toNat * 2 ^ 16), BitVec.ofNat 64 flags, sq.issueCnt.zeroExtend 64, sq.lvs.zeroExtend 64] ++
    section64 4 [BitVec.ofNat 64 (sq.f.toNat + bitsFrom (sq.xPoison.toList.map Option.isSome) * 2 ^ 32)] ++
    sq.x.toList ++ sq.bt.toList ++ sq.lc.toList ++ loops ++ section64 24 err

/-- SEED to ACCT15 (R416). -/
def imgMisc (t : Task) : List Word64 :=
  let pins := t.pins.foldl (fun n p => n ||| 2 ^ p.toNat) 0
  section64 16 ([t.seed, t.fflags.zeroExtend 64, t.split.zeroExtend 64, t.active.zeroExtend 64] ++ wordsOf pins 2) ++ t.acct.toList

/-- A token FIFO entry (R418). -/
def imgFifo (l : List Slot) : List Word64 :=
  [BitVec.ofNat 64 (bitsFrom (l.map (fun x => x.filled && x.val)) + bitsFrom (l.map Slot.filled) * 2 ^ 32), BitVec.ofNat 64 l.length]

/-- The FIFOs in the order of R418. -/
def imgFifos (t : Task) : List Word64 :=
  let pairs : List (SeqId × SeqId) :=
    [(.S, .L), (.S, .C), (.S, .W), (.L, .S), (.L, .C), (.L, .W), (.C, .S), (.C, .L), (.C, .W), (.W, .S), (.W, .L), (.W, .C)]
  pairs.flatMap (fun p => imgFifo (t.fifos.get (fifoNum p.1 p.2))) ++ allSeqs.flatMap (fun q => imgFifo (t.seqs.get q.num).e)

/-- The poison of the lanes of sixteen registers, one bit a lane. -/
def lanePoison (l : List ((BitVec 4 × BitVec 6) × Poison)) : Nat :=
  l.foldl (fun n p => n ||| 2 ^ (p.1.1.toNat * 64 + p.1.2.toNat)) 0

/-- Every operand queue, then every output queue. -/
def allQueues (t : Task) : List (List QEntry) := t.q.toList ++ t.o.toList

/-- Lane masks, keep-masks and poison (R416). -/
def imgMasks (t : Task) : List Word64 :=
  let qp := (allQueues t).map (fun l => bitsFrom (l.map (fun e => e.poison.isSome)))
  t.m.toList ++ t.km.toList.flatMap (fun k => wordsOf k.toNat 8) ++ wordsOf (lanePoison t.vPoison) 16 ++ wordsOf (lanePoison t.tPoison) 16 ++
    section64 56 (wordsOf (packBits 16 qp) 3)

/-- A mask slot (R416). -/
def imgMask (p : MaskSlot) : List Word64 := section64 32 (BitVec.ofNat 64 p.length :: p)

/-- A stream slot with its unit's position (R416): the entry that the unit moves next. -/
def imgStream (t : Task) (n : Nat) (x : StreamSlot) : List Word64 :=
  let pos := match t.jobs.find? (fun j => j.slot.toNat == n && j.plane == t.active) with | some j => j.first + j.done | none => 0
  section64 16 (wordsOf x.desc.toNat 8 ++ [BitVec.ofNat 64 x.pend, BitVec.ofNat 64 pos])

/-- A matrix-engine entry (R419). -/
def imgMat (t : Task) (m : MatCmd) : List Word64 :=
  let sq := t.seqs.get m.origin.q.num
  let org : Word64 := if amendWords (m.issue.patch.extractLsb 21 16) = 0 then m.issue.patch.zeroExtend 64 else (m.issue.lits.getD 0 0) ++ m.issue.patch
  section64 8 (wordsOf m.issue.tpl.toBits.toNat 4 ++
    [org, BitVec.ofNat 64 m.done,
     BitVec.ofNat 64 (m.started.toNat + m.stamped.toNat * 2 + (match m.eslot with | some e => eIndex sq e | none => 0) * 16 +
       m.origin.pc.toNat * 2 ^ 16 + m.origin.seqNum.toNat * 2 ^ 32)])

/-- A copy-buffer entry (R419). -/
def imgCopy (t : Task) (c : CopyCmd) : List Word64 :=
  let sq := t.seqs.get c.origin.q.num
  section64 32 (wordsOf c.desc.toNat 16 ++
    [c.eff - t.tofs,
     BitVec.ofNat 64 (eIndex sq c.eslot + c.origin.q.num.toNat * 2 ^ 5 + c.fn.toNat * 2 ^ 8 + c.qn.toNat * 2 ^ 12 + 2 ^ 15),
     c.obj,
     BitVec.ofNat 64 (c.origin.pc.toNat + c.origin.plane.toNat * 2 ^ 16 + c.origin.seqNum.toNat * 2 ^ 32)])

/-- COUNT, the filled entries, and RESV, the reserved places, of a queue (R416; DEDUCED, log 18). -/
def imgCount (l : List QEntry) : Word64 := BitVec.ofNat 64 (countOf QEntry.filled l + countOf (fun e => !e.filled) l * 2 ^ 8)

/-- A request table entry (R416). -/
def imgReq (sq : SeqState) (r : Req) : List Word64 :=
  let st := match r.state with | .idle => 0 | .busy => 1 | .completed => 2 | .failed => 3
  [BitVec.ofNat 64 (st + r.delivered.toNat * 4), r.obj, BitVec.ofNat 64 (eIndex sq r.eslot), 0]

/-- The entries of a queue, head first. -/
def imgQueue (l : List QEntry) : List Word64 := section64 512 (l.flatMap (fun e => wordsOf e.data.toNat 32))

/-- The records of the 0 tokens of an E FIFO (R416). -/
def imgRecords (sq : SeqState) : List Word64 :=
  section64 512 (sq.e.flatMap (fun x => section64 16 (match x.record with | some r => recordWords r | none => [])))

/-- An instruction memory (R416). -/
def imgCode (p : Plane) (q : SeqId) : List Word64 :=
  (upTo 4096).map (fun i => p.word q (8 * i + 4) ++ p.word q (8 * i))

/-- The 264 KiB of the image (R416). -/
def imageContents (im : Image) : List Word64 :=
  let t := im.task
  let p := im.plane
  section64 32 (imgHeader im) ++ t.seqs.toList.flatMap (fun sq => imgBlock t.active sq) ++ imgMisc t ++
    section64 32 (recordWords t.faults) ++ imgFifos t ++ imgMasks t ++
    t.v.toList.flatMap (fun e => wordsOf e.toNat 32) ++ t.t.toList.flatMap (fun e => wordsOf e.toNat 32) ++ wordsOf t.scout.toNat 256 ++
    p.tpl.toList.flatMap (fun b => wordsOf b.toNat 4) ++ p.masks.toList.flatMap imgMask ++
    (p.streams.toList.zipIdx).flatMap (fun x => imgStream t x.2 x.1) ++
    section64 128 (t.mats.flatMap (imgMat t)) ++
    section64 2048 ((sortBy (fun c => c.eff.toNat) (t.copies.filter (fun c => !c.accepted))).flatMap (imgCopy t)) ++
    section64 32 ((allQueues t).map imgCount) ++ section64 64 (t.gpins.map (fun g => g.zeroExtend 64)) ++
    [0#2, 1#2].flatMap (fun q => (t.seqs.get q).reqs.toList.flatMap (imgReq (t.seqs.get q))) ++ section64 352 [] ++
    t.q.toList.flatMap imgQueue ++ t.o.toList.flatMap imgQueue ++ t.acc.toList.flatMap (fun a => wordsOf a.toNat 1024) ++
    t.seqs.toList.flatMap imgRecords ++ allSeqs.flatMap (imgCode p)

/-- Bytes of an image (R416). -/
def imageSize : Nat := 0x42000

/-- The image written at its save area, if it has one. -/
def State.writeImage (s : State) (im : Image) : State :=
  match im.area with
  | some pa => { s with mem := memPutRange s.mem pa (imageContents im), bad := badAfterWrite s.bad pa imageSize }
  | none => s

end Sys2Proof.Machine
end

