-- ==== Sys2Proof/Machine/Control.lean ====
section
/-! DEFINITION. System instructions, branches, loops, waits on time and tokens, fences, hints and queue moves (R206 to R210,
R213 to R221, R238). -/

namespace Sys2Proof.Machine

open Sys2Proof

/-! ## Launches and priorities, as YIELD needs them (R386) -/

/-- PRIO of a launch (R380). -/
def Launch.prio (l : Launch) : Nat := bitsOf (l.record.get 0).toNat 16 4

/-- The effective priority of a waiting group (R386). -/
def effPrio (l : Launch) (g : Group) : Nat := Nat.min 15 (l.prio + g.aging)

/-- A group that waits for its first dispatch (R386). -/
def Launch.freshGroup (l : Launch) : Group :=
  { num := l.fresh, state := .waiting, since := l.since, aging := l.freshAging, quantumOver := false, drained := 0, tp := 0
    yieldTo := false, short := false }

/-- The groups of a launch that wait: pre-empted ones, and the first that has not been dispatched (R386). -/
def Launch.waiting (l : Launch) : List Group :=
  l.groups.filter (fun g => decide (g.state = .preempted)) ++ (if l.fresh * l.groupSize < l.total then [l.freshGroup] else [])

/-- The waiting groups of launches that are READY or RUNNING. -/
def waitingGroups (s : State) : List (Launch × Group) :=
  (s.pkg.launches.filter (fun l => l.state == .ready || l.state == .running)).flatMap (fun l => l.waiting.map (fun g => (l, g)))

/-- A launch by its index. -/
def launchOf (s : State) (lid : BitVec 14) : Option Launch := s.pkg.launches.find? (fun l => l.lid == lid)

/-- The state with a launch changed. -/
def updLaunch (s : State) (lid : BitVec 14) (f : Launch → Launch) : State :=
  s.withPkg { s.pkg with launches := updFirst (fun l => l.lid == lid) f s.pkg.launches }

/-- A launch with one of its groups changed. -/
def Launch.updGroup (l : Launch) (g : Nat) (f : Group → Group) : Launch :=
  { l with groups := updFirst (fun x => x.num == g) f l.groups }

/-- The offer of YIELD: when a group of equal or higher priority waits, the task's group is to be pre-empted (R213, R386). -/
def yieldOffer (s : State) : State :=
  match launchOf s s.task.ident.lid with
  | some l =>
    if (waitingGroups s).any (fun p => decide (l.prio ≤ effPrio p.1 p.2)) then
      updLaunch s l.lid (fun x => x.updGroup s.task.ident.group (fun g => { g with yieldTo := true }))
    else s
  | none => s

/-! ## SYS (R213 to R218) -/

/-- NOP (R213). -/
def execNop (k : Tok) (s : State) : Out := issue (.nop k) (fun s _ => .act s) s

/-- TRAP issues, having made its pop, and stops the task with its code (R214). -/
def execTrap (k : Tok) (c : BitVec 8) (s : State) : Out := issue (.trap k c) (fun _ _ => .trapped causeSoftwareTrap c) s

/-- BRK (R214). -/
def execBrk (k : Tok) (s : State) : Out := issue (.brk k) (fun _ _ => .trapped causeBreakpoint 0) s

/-- EXIT ends the sequencer; on S a register names the successor's tag (R33, R215). -/
def execExit (k : Tok) (a : BitVec 4) (s : State) : Out :=
  issue (.exit k a) (fun s q => withX s q a 0 (fun v => .done (s.withSeq q { s.seq q with succTag := v }) 1 [] .exited)) s

/-- SWAP stalls its sequencer until the flip of R35 (R216). -/
def execSwap (k : Tok) (s : State) : Out := issue (.swap k) (fun s _ => .done s 1 [] .swapped) s

/-- YIELD (R213). -/
def execYield (k : Tok) (s : State) : Out := issue (.yield k) (fun s _ => .act (yieldOffer s)) s

/-- Task time has reached a stamp: the stamp cycle of R38 has come. -/
def stampReached (s : State) (stamp : Word64) : Bool := decide ((stamp + s.task.tofs).toNat ≤ s.time.toNat)

/-- Task time (R37). -/
def taskTime (s : State) : Word64 := s.time - s.task.tofs

/-- WAITT sleeps until task time reaches xA (R217). -/
def execWaitt (k : Tok) (d a : BitVec 4) (s : State) : Out :=
  issue (.waitt k d a) (fun s q => withX s q a 0 (fun v =>
    if stampReached s v then .write s 1 [.x d (taskTime s) none] else .done s 1 [] (.sleep (.waitt d v)))) s

/-- The value of TCNT: tokens present, and those of value 0, reservations left out (R218). -/
def tcntVal (l : List Slot) : Word64 :=
  BitVec.ofNat 64 (countOf Slot.filled l + 2 ^ 8 * countOf (fun x => x.filled && !x.val) l)

/-- The number of tokens present in a FIFO. -/
def tokensIn (l : List Slot) : Nat := countOf Slot.filled l

/-- The FIFO number of a sequencer's pop, for records of waits; E is the sequencer's own number. -/
def popNum (q : SeqId) (peer : BitVec 2) : BitVec 4 :=
  match peerOf q peer with
  | some p => fifoNum p q
  | none => fifoNum q q

/-- The FIFO of a wait by its number: equal halves name E. -/
def fifoByNum (t : Task) (q : SeqId) (n : BitVec 4) : List Slot :=
  if n = fifoNum q q then (t.seqs.get q.num).e else t.fifos.get n

/-- TCNT (R218). -/
def execTcnt (p : BitVec 2) (d : BitVec 4) (s : State) : Out :=
  issue (.tcnt p d) (fun s q => .write s 1 [.x d (tcntVal (popFifo s.task q p)) none]) s

/-- TWAIT (R218): a greater than 32 is illegal at issue. -/
def execTwait (p : BitVec 2) (d a b : BitVec 4) (s : State) : Out :=
  issue (.twait p d a b) (fun s q => withX s q a 0 (fun n => withX s q b 1 (fun lim =>
    if 32 < n.toNat then .fail causeIllegalInstr 0
    else if n.toNat ≤ tokensIn (popFifo s.task q p) then .write s 1 [.x d (tcntVal (popFifo s.task q p)) none]
    else .done s 1 [] (.sleep (.twait (popNum q p) d n.toNat lim s.time))))) s

/-- ERET on the firmware context starts the task whose image is loaded; in a task it is illegal (R221, R414). -/
def execEret (s : State) : Out :=
  if s.core.firmware && decide (s.core.run = .staging) then .next (returnFromFault s)
  else issue .eret (fun _ _ => .fail causeIllegalInstr 0) s

/-- A word of major 0x2F traps with EMULATE, without any token action (R179). -/
def execRetiredConversion (x : BitVec 26) (s : State) : Out :=
  .next (trapAtDecode s.cur (.retiredConversion x) causeEmulate s)

/-! ## Branches and loops (R206, R207, R209) -/

/-- PBT with a displacement from its own address, in words (R206). -/
def execPbtDisp (k : Tok) (b : BitVec 2) (d : BitVec 19) (s : State) : Out :=
  issue (.pbtDisp k b d) (fun s q => .write s 1 [.bt b ((s.seq q).pc.zeroExtend 64 + d.signExtend 64 * 4)]) s

/-- PBT from a register (R206). -/
def execPbtReg (k : Tok) (b : BitVec 2) (a : BitVec 4) (s : State) : Out :=
  issue (.pbtReg k b a) (fun s q => withX s q a 0 (fun v => .write s 1 [.bt b v])) s

/-- A branch: a taken one checks its target before any delay slot (R16, R206, R207). -/
def branchTo (s : State) (q : SeqId) (b : BitVec 2) (taken : Bool) (delay : BitVec 2) (link : BitVec 1) : Effect :=
  let target := s.readBt q b 0
  if taken && (target.toNat % 4 != 0 || decide (0x7FFC < target.toNat)) then .fail causeIllegalInstr 0
  else .done s 1 [] (.branch taken (target.truncate 16) delay (link == 1))

/-- BRT always (R207). -/
def execBrtAlways (k : Tok) (b e : BitVec 2) (kk : BitVec 1) (s : State) : Out :=
  issue (.brtAlways k b e kk) (fun s q => branchTo s q b true e kk) s

/-- BRT on a flag (R207). -/
def execBrtCond (k : Tok) (b : BitVec 2) (f : BitVec 3) (n : BitVec 1) (e : BitVec 2) (kk : BitVec 1) (s : State) : Out :=
  issue (.brtCond k b f n e kk) (fun s q => branchTo s q b (decide (s.readF q f 1 = n)) e kk) s

/-- How many active loops started before the active loop `l`. -/
def loopsBefore (sq : SeqState) (l : LoopState) : Nat := countOf (fun x => x.active && decide (x.nest.toNat < l.nest.toNat)) sq.loops.toList

/-- The loops with a new one at `c`: the active ones numbered by start, the new one the latest (R209, R417). -/
def nestLoop (sq : SeqState) (c : BitVec 2) (l : LoopState) : RegFile 2 LoopState :=
  let old : RegFile 2 LoopState := sq.loops.map (fun x => if x.active then { x with nest := BitVec.ofNat 3 (1 + loopsBefore sq x) } else x)
  old.set c { l with nest := BitVec.ofNat 3 (1 + countOf LoopState.active sq.loops.toList) }

/-- LOOP (R209, R210): the counter takes xA; a count of 0 skips the body as a taken branch (DEDUCED, log 39). -/
def execLoop (k : Tok) (c : BitVec 2) (a : BitVec 4) (e : BitVec 16) (s : State) : Out :=
  issue (.loop k c a e) (fun s q => withX s q a 0 (fun v =>
    let sq := s.seq q
    let pc := sq.pc.toNat
    let stop := pc + e.toNat * 4
    let sq0 := { sq with lc := sq.lc.set c v, loops := sq.loops.set c { sq.loops.get c with active := false } }
    if 0x8000 ≤ stop then .fail causeIllegalInstr 0
    else if v = 0 then .done (s.withSeq q sq0) 1 [] (.skip (BitVec.ofNat 16 (Nat.min 0x8000 (stop + 4 * widthAt s.plane q stop))))
    else
      let l : LoopState := { start := BitVec.ofNat 16 (pc + 4), stop := BitVec.ofNat 16 stop, active := true, nest := 0 }
      .act (s.withSeq q { sq0 with loops := nestLoop sq0 c l }))) s

/-! ## Fences (R79, R81, R238) -/

/-- FENCE: writes perform in the order of their issue, and no load after it passes a late one (`ordersLoads`; DESIGN CHOICE, log 2); it waits
for the fences before it. -/
def execFence (k : Tok) (c : BitVec 16) (n kk : BitVec 3) (s : State) : Out :=
  issue (.fence k c n kk) (fun s q => if fencedPoint s q then .stall .engine else .act s) s

/-- The level whose SCOPE gives level scope: the one that LVS names, or the outermost declared one where LVS names an unused level
(R29). -/
def levelOf (levels : RegFile 3 Word64) (lvs : BitVec 3) : Word64 :=
  let l := levels.get lvs
  if l.extractLsb 23 0 != 0 then l else ((levels.toList.filter (fun e => e.extractLsb 23 0 != 0)).getLast?).getD 0

/-- The scope that a scope code has for an access or fence that sequencer `q` issues now (R29, R78). -/
def resolveScope (s : State) (q : SeqId) (code : BitVec 3) : Nat :=
  if code = 6 then bitsOf (levelOf s.task.ident.levels (s.seq q).lvs).toNat 27 3 else code.toNat

/-- FENCEX (R81): it issues and holds PATHB until the commands on PATHA issued before it have performed; it also waits for
what the fences before it wait for (R74) (DEDUCED, log 43). The commands on PATHB after it find every write made before it. R74 does not order
its own token push after its completion, and the model fills that one cycle after the issue, when the fence may still be open
(DESIGN CHOICE, log 43). -/
def execFencex (k : Tok) (a b : BitVec 8) (n : BitVec 3) (s : State) : Out :=
  issue (.fencex k a b n) (fun s q =>
    let waits := ((outstanding s q).filter (fun p => a.getLsbD p.2)).map Prod.fst ++ (openFences s q).flatMap FenceHold.waits
    let f : FenceHold := { at_ := s.nextId, waits := waits, paths := b, scope := resolveScope s q n }
    .act (s.withSeq q { s.seq q with fences := openFences s q ++ [f], newFence := (s.seq q).newFence ||| b })) s

/-! ## HINT and QX (R219, R220) -/

/-- Every line from `pa` brought into L2. -/
def l2Lines (s : State) (pa : Nat) (hinted : Bool) : Nat → State
  | 0 => s
  | n + 1 => l2Lines (l2Touch s pa s.task.ident.world hinted false) (pa + 128) hinted n

/-- The effect of a hint; one that cannot be followed is dropped (R220, R410). -/
def hintEffect (s : State) (kind : Nat) (a : Word64) : State :=
  if kind = 4 then
    if a.toNat < 2 ^ 21 ∧ !noScratch s then refillPage s (a.toNat / 2 ^ 14) else s
  else if 2 ^ 56 ≤ a.toNat then s
  else
    match translate s a.toNat false with
    | (_, .fail _) => s
    | (s1, .ok pa leaf) =>
      let hinted := leaf.extractLsb 7 6 != 0 || tierManaged s1 (keyOf s1 pa)
      match kind with
      | 0 => l2Touch s1 pa s1.task.ident.world hinted false
      | 1 => (l1Fetch (l2Touch s1 pa s1.task.ident.world hinted false) (a.toNat / 128) 0).getD s1
      | 2 => l2Lines s1 (pa / 2 ^ 16 * 2 ^ 16) hinted 512
      | _ =>
        s1.withPkg { s1.pkg with tiers := s1.pkg.tiers.map (fun e => { e with
          pages := updFirst (fun p => p.frame == pa / 2 ^ 16)
            (fun p => { p with wanted := p.wanted || decide (bitsOf e.thr.toNat 0 16 ≤ p.heat.toNat) }) e.pages }) }

/-- HINT makes no access and never faults on its address (R220). -/
def execHint (k : Tok) (kk a : BitVec 4) (s : State) : Out :=
  issue (.hint k kk a) (fun s q => withX s q a 0 (fun v => .act (hintEffect s kk.toNat v))) s

/-- The value QX takes from an entry (R219). -/
def qxVal (f : BitVec 2) (e : Entry) : Word64 :=
  match f.toNat with
  | 0 => (laneOf e 0).zeroExtend 64
  | 1 => laneOf e 1 ++ laneOf e 0
  | _ => (laneOf e 0).signExtend 64

/-- QX (R219). -/
def execQx (k : Tok) (d a : BitVec 4) (f : BitVec 2) (s : State) : Out :=
  issue (.qx k d a f) (fun s _ => withQ s (a.truncate 3) (a.getLsbD 3) (fun s1 e => .write s1 2 [.x d (qxVal f e) none])) s

end Sys2Proof.Machine
end

