-- ==== Sys2Proof/Machine/MemSync.lean ====
section
/-! DEFINITION. Loads, stores, atomics, WAITM and the maintenance of scratchpad and caches (R51, R52, R56, R231 to R242). -/

namespace Sys2Proof.Machine

open Sys2Proof

/-! ## Loads and stores (R232 to R234) -/

/-- The number of bytes of a size code (R173). -/
def sizeOf (z : BitVec 2) : Nat := 2 ^ z.toNat

/-- A loaded value extended to 64 bits (R233). -/
def extendVal (sgn : BitVec 1) (size v : Nat) : Word64 := if sgn = 1 then sext64 (8 * size) v else BitVec.ofNat 64 v

/-- The line a global read brings into L1 (R58, R59). -/
def l1Read (s : State) (sp : BitVec 2) (addr : Nat) : State := if sp = 2 then (l1Fetch s (addr / 128) 0).getD s else s

/-- A global read of L to a set of L1 whose ways are all locked stalls at issue (R58). -/
def lockStalls (s : State) (q : SeqId) (sp : BitVec 2) (addr : Nat) : Bool := q == .L && sp == 2 && (l1Fetch s (addr / 128) 0).isNone

/-- The page of a global access honours invariant loads (R87). -/
def invariantAllowed (sp : BitVec 2) (leaf : Word64) : Bool := (sp == 2 && leaf.getLsbD 5) || sp == 3

/-- A load: its value at its bound, poisoned where its data fail correction (R226, R233). -/
def loadEffect (s : State) (q : SeqId) (i : Instr) (d oc : BitVec 4) (inv : BitVec 1) (sp : BitVec 2) (addr : Nat) (size : Nat) (sgn : BitVec 1) : Effect :=
  if fenced s q 0 then .stall .engine
  else
    withRead s sp addr size false (fun s1 key leaf _ bad =>
      let free := decide (inv = 1) && invariantAllowed sp leaf
      if lockStalls s1 q sp addr then .stall (.lock (l1Set (addr / 128)))
      else if storeOwed s1 sp addr size then .stall .engine
      else .write ((l1Read s1 sp addr).fixLoad q oc free key size) (spaceBound sp)
        [.x d (extendVal sgn size (s1.loadPlain q oc free key size)) (bad.map (fun c => poisonOf c sp addr i))])

/-- A store of the low bytes of `v` (R233); a release waits for the fences before it (R74). -/
def storeEffect (s : State) (q : SeqId) (i : Instr) (v : Word64) (oc : BitVec 4) (sp : BitVec 2) (addr : Nat) (size : Nat) (ord : BitVec 1) : Effect :=
  if fenced s q 0 ∨ (ord = 1 ∧ fencedPoint s q) then .stall .engine
  else
    match checkAccess s sp addr size true with
    | (_, .fault c) => .fail c (faddr sp (BitVec.ofNat 64 addr))
    | (_, .stall w) => .stall w
    | (s1, .key key leaf) =>
      .act (lostWrite (writeKeyBy s1 (some (q, oc)) key size (v.toNat % 2 ^ (8 * size)) leaf) (s.origin q i) 0 oc none key (faddr sp (BitVec.ofNat 64 addr)))

/-- The address of a BM operand: a plus OFS times the size, a sum without bound, so that one of 2^64 or more lies outside every address
form (R11, R47, R173, R233). -/
def bmAddr (a : Word64) (z : BitVec 2) (o : BitVec 3) : Nat := a.toNat + o.toNat * sizeOf z

/-- LD (R233). An invariant load of a page that allows it answers to no order (R87, R88). -/
def execLd (k : Tok) (d a o : BitVec 4) (sp z : BitVec 2) (g imm r : BitVec 1) (f : BitVec 3) (s : State) : Out :=
  let i := Instr.ld k d a o sp z g imm r f
  issue i (fun s q => withX s q a 0 (fun x => loadEffect s q i d o imm sp (bmAddr x z f) (sizeOf z) g)) s

/-- ST (R233). -/
def execSt (k : Tok) (d a o : BitVec 4) (sp z : BitVec 2) (g r : BitVec 1) (f : BitVec 3) (s : State) : Out :=
  let i := Instr.st k d a o sp z g r f
  issue i (fun s q => withX s q a 0 (fun x => withX s q d 1 (fun v =>
    storeEffect s q i v o sp (bmAddr x z f) (sizeOf z) r))) s

/-- LDX (R233). -/
def execLdx (k : Tok) (d a b o : BitVec 4) (z sp : BitVec 2) (g r : BitVec 1) (s : State) : Out :=
  let i := Instr.ldx k d a b o z sp g r
  issue i (fun s q => withX s q a 0 (fun x => withX s q b 1 (fun y => loadEffect s q i d o 0 sp (x + y).toNat (sizeOf z) g))) s

/-- STX (R233). -/
def execStx (k : Tok) (d a b o : BitVec 4) (z sp : BitVec 2) (g r : BitVec 1) (s : State) : Out :=
  let i := Instr.stx k d a b o z sp g r
  issue i (fun s q => withX s q a 0 (fun x => withX s q b 1 (fun y => withX s q d 2 (fun v =>
    storeEffect s q i v o sp (x + y).toNat (sizeOf z) r)))) s

/-! ## Atomics (R178, R235, R236) -/

/-- The new value of an atomic on `w` bits; none where a CAS fails and writes nothing (R235). -/
def amoNew (op : BitVec 4) (w old bv cv : Nat) : Option Nat :=
  match op.toNat with
  | 0 => some ((old + bv) % 2 ^ w)
  | 1 => some (old &&& bv)
  | 2 => some (old ||| bv)
  | 3 => some (old ^^^ bv)
  | 4 => some (if toSigned w old ≤ toSigned w bv then old else bv)
  | 5 => some (if toSigned w old ≤ toSigned w bv then bv else old)
  | 6 => some (Nat.min old bv)
  | 7 => some (Nat.max old bv)
  | 8 => some bv
  | _ => if old = cv then some bv else none

/-- The register result of an atomic: the old value, sign-extended for SMIN and SMAX (R235). -/
def amoResult (op : BitVec 4) (w old : Nat) : Word64 :=
  if op = 4 ∨ op = 5 then sext64 w old else BitVec.ofNat 64 old

/-- One indivisible read-modify-write; an old value that fails correction is only read (R86, R236). A failed CAS keeps the release part
of its ORD, which R86 leaves to the part (DESIGN CHOICE, log 2). -/
def amoEffect (s : State) (q : SeqId) (i : Instr) (d : BitVec 4) (op oc : BitVec 4) (size : Nat) (sp : BitVec 2) (ord : BitVec 2)
    (addr bv cv : Word64) : Effect :=
  if fenced s q 0 ∨ (ord.getLsbD 1 ∧ fencedPoint s q) then .stall .engine
  else
    withRead s sp addr.toNat size true (fun s1 key leaf old bad =>
      if storeOwed s1 sp addr.toNat size then .stall .engine
      else match bad with
      | some c => .write s1 (spaceBound sp) [.x d (amoResult op (8 * size) old) (some (poisonOf c sp addr.toNat i))]
      | none =>
        let w := 8 * size
        let s2 := match amoNew op w old (bv.toNat % 2 ^ w) (cv.toNat % 2 ^ w) with
          | some v => lostWrite (writeKeyBy s1 (some (q, oc)) key size v leaf) (s.origin q i) 0 oc none key (faddr sp addr)
          | none => s1
        .write s2 (spaceBound sp) [.x d (amoResult op w old) none])

/-- AMO (R235): ORD bit 0 acquires, bit 1 releases. -/
def execAmo (k : Tok) (d a b op : BitVec 4) (sz : BitVec 1) (oc : BitVec 4) (scope : BitVec 3) (ord : BitVec 2) (c : BitVec 4)
    (sp : BitVec 2) (s : State) : Out :=
  let i := Instr.amo k d a b op sz oc scope ord c sp
  issue i (fun s q => withX s q a 0 (fun x => withX s q b 1 (fun bv => withX s q c 2 (fun cv =>
    amoEffect s q i d op oc (if sz = 1 then 8 else 4) sp ord x bv cv)))) s

/-! ## WAITM (R237) -/

/-- WAITM reads once at issue and sleeps while the value equals xB; a read that fails correction ends it poisoned (R237). -/
def execWaitm (k : Tok) (d a b o : BitVec 4) (z sp : BitVec 2) (g r : BitVec 1) (s : State) : Out :=
  let i := Instr.waitm k d a b o z sp g r
  issue i (fun s q => withX s q a 0 (fun x => withX s q b 1 (fun cmp => withX s q d 2 (fun limit =>
    if fenced s q 0 then .stall .engine
    else
      withRead s sp x.toNat (sizeOf z) false (fun s1 _ _ v bad =>
        if storeOwed s1 sp x.toNat (sizeOf z) then .stall .engine
        else if bad.isSome ∨ v ≠ cmp.toNat % 2 ^ (8 * sizeOf z) then
          .write s1 (spaceBound sp) [.x d (extendVal g (sizeOf z) v) (bad.map (fun c => poisonOf c sp x.toNat i))]
        else .done s1 1 [] (.sleep (.waitm d sp x z g cmp limit s1.time))))))) s

/-! ## SPLITW (R51, R52, R240) -/

/-- The bank of a scratchpad page (R53). -/
def bankOf (p : BitVec 7) : Nat := p.toNat % 16

/-- Pinned pages of a bank. -/
def pinsIn (pins : List (BitVec 7)) (bank : Nat) : Nat := countOf (fun p => bankOf p == bank) pins

/-- The command of a copy touches own scratchpad (R52). -/
def touchesOwn (c : CopyCmd) : Bool :=
  let n := c.desc.toNat
  (!bitAt n 196 && bitsOf n 192 2 == 0 && c.fn != 5) || (!bitAt n 197 && bitsOf n 194 2 == 0 && c.fn != 4) ||
    ((c.fn == 2 || c.fn == 3) && bitsOf n 312 2 == 0) || (bitAt n 198 && bitsOf n 376 2 == 0)

/-- An instruction in flight has still to write an x register, as a load has. -/
def loadsInFlight (sq : SeqState) : Bool := sq.pend.any (fun p => p.writes.any (fun w => match w with | .x _ _ _ => true | _ => false))

/-- What SPLITW waits for has come (R52 step 1): empty operand queues, no outstanding read of L, no buffered command that
touches own scratchpad. -/
def splitReady (s : State) : Bool :=
  let t := s.task
  t.q.toList.all (fun l => l.isEmpty) && !(t.jobs.any (fun j => j.origin.q == .L)) && t.mkevs.isEmpty &&
    !loadsInFlight (s.seq .L) && !(t.atts.any (fun a => a.origin.q == .L)) && !(t.copies.any (fun c => !c.accepted && touchesOwn c))

/-- A pinned page moved to a free frame of its bank (R52 step 3). R52 does not say what happens where no frame is free: the model first evicts
an unpinned page there, in R55's order (DESIGN CHOICE, log 15). -/
def movePinned (s : State) (r : Resident) (ways : Nat) : State :=
  let put := fun (s : State) (w : Nat) =>
    let r' := { r with way := w }
    ({ s with core := { s.core with resident := s.core.resident.map (fun x => if x = r then r' else x) } }.movePage (frameKey r)
      (frameKey r')).clearFrame (frameKey r)
  let low := (bankMates s r.page.toNat).filter (fun x => decide (x.way < ways))
  match freeWay (low.map Resident.way) 0 ways with
  | some w => put s w
  | none =>
    match refillVictim s.task.ident.owner s.task.pins low with
    | some v => put (evictFrame s v) v.way
    | none => s

/-- A resident page that this core's task has pinned. -/
def pinnedHere (s : State) (r : Resident) : Bool := decide (r.owner = s.task.ident.owner) && s.task.pins.contains r.page

/-- Steps 2 to 4 of R52: L1 emptied with its locks, pages of the ways that pass to L1 evicted or moved, the value written. -/
def splitTo (s : State) (v : BitVec 4) : State :=
  let s1 := { s with core := { s.core with l1 := [] } }
  let ways := 8 - v.toNat
  let gone := s1.core.resident.filter (fun r => decide (ways ≤ r.way))
  let s2 := (gone.filter (fun r => !pinnedHere s r)).foldl evictFrame s1
  let s3 := (gone.filter (pinnedHere s)).foldl (fun s r => movePinned s r ways) s2
  let s4 := s3.withTask { s3.task with split := v }
  { s4 with core := { s4.core with l1Split := v } }

/-- SPLITW (R52, R239, R240). -/
def execSplitw (k : Tok) (a : BitVec 4) (s : State) : Out :=
  issue (.splitw k a) (fun s q => withX s q a 0 (fun v =>
    if 8 < v.toNat then .fail causeIllegalInstr 0
    else if (upTo 16).any (fun b => decide (pinLimit v.toNat < pinsIn s.task.pins b)) then .fail causeScratchRange 0
    else if !splitReady s then .stall .drain
    else .act (splitTo s (v.truncate 4)))) s

/-! ## Cache maintenance (R239, R241) -/

/-- A maintenance operation on the line at `a`: the line is translated, then `f` acts on its PA. -/
def lineOp (s : State) (a : Word64) (write : Bool) (f : State → Nat → State) : Effect :=
  match place s 2 a.toNat write with
  | (_, .fault c) => .fail c (faddr 2 a)
  | (_, .stall w) => .stall w
  | (s1, .key pa _) => .act (f s1 pa)

/-- CFLUSH: the line leaves L2 and this core's L1; its bytes are those of memory (R239). -/
def execCflush (k : Tok) (a : BitVec 4) (s : State) : Out :=
  issue (.cflush k a) (fun s q => withX s q a 0 (fun v => lineOp s v true (fun s1 pa =>
    l1Drop (s1.withPkg { s1.pkg with l2 := s1.pkg.l2.filter (fun l => l.line != pa / 128) }) (v.toNat / 128)))) s

/-- CINV (R239). -/
def execCinv (k : Tok) (a : BitVec 4) (s : State) : Out :=
  issue (.cinv k a) (fun s q => withX s q a 0 (fun v => lineOp s v true (fun s1 _ => l1Drop s1 (v.toNat / 128)))) s

/-- CWB: the line stays in L2, no longer modified (R239). -/
def execCwb (k : Tok) (a : BitVec 4) (s : State) : Out :=
  issue (.cwb k a) (fun s q => withX s q a 0 (fun v => lineOp s v false (fun s1 pa =>
    s1.withPkg { s1.pkg with l2 := s1.pkg.l2.map (fun l => if l.line = pa / 128 then { l with dirty := false } else l) }))) s

/-! ## Pins (R56, R66, R242) -/

/-- The most global pins a task holds (R242). -/
def maxGlobalPins : Nat := 64

/-- A migration abandoned: the page stays at its source (R66). -/
def TierPage.abandon (p : TierPage) : TierPage :=
  { p with state := p.source, target := p.source, toFrame := p.frame, aborted := true }

/-- A pin wins over the migration of its page: it is abandoned there and then, and the pin completes after it (R66). -/
def pinMigration (s : State) (k : Nat) : State :=
  let here := fun (p : TierPage) => tierHolds s k p && decide (p.state = .moving)
  s.withPkg { s.pkg with tiers := s.pkg.tiers.map (fun e =>
    if e.pages.any here then { e with pages := updFirst here TierPage.abandon e.pages, aborts := e.aborts + 1 } else e) }

/-- SPIN of a scratchpad page (R56). -/
def pinOwn (s : State) (a : Word64) : Effect :=
  let p := BitVec.ofNat 7 (a.toNat / 2 ^ 14)
  if 2 ^ 21 ≤ a.toNat then .fail causeScratchRange (faddr 0 a)
  else if s.task.pins.contains p then .act s
  else if pinLimit s.task.split.toNat < pinsIn s.task.pins (bankOf p) + 1 then .fail causeScratchRange (faddr 0 a)
  else if !resident s p.toNat then .stall (.page p)
  else .act (s.withTask { s.task with pins := s.task.pins ++ [p] })

/-- SPIN of a global page (R242). -/
def pinGlobal (s : State) (a : Word64) : Effect :=
  match place s 2 a.toNat false with
  | (_, .fault c) => .fail c (faddr 2 a)
  | (_, .stall w) => .stall w
  | (s1, .key pa _) =>
    let va := BitVec.ofNat 56 (a.toNat / 2 ^ 16 * 2 ^ 16)
    if s1.task.gpins.contains va then .act s1
    else if maxGlobalPins ≤ s1.task.gpins.length then .fail causePermission (faddr 2 a)
    else .act (pinMigration (s1.withTask { s1.task with gpins := s1.task.gpins ++ [va] }) pa)

/-- SPIN (R242). -/
def execSpin (k : Tok) (sp : BitVec 2) (a : BitVec 4) (s : State) : Out :=
  issue (.spin k sp a) (fun s q => withX s q a 0 (fun v =>
    match sp.toNat with
    | 0 => pinOwn s v
    | 2 => pinGlobal s v
    | _ => .fail causeIllegalInstr 0)) s

/-- SPUN (R242): a page that is not pinned stays as it is. -/
def execSpun (k : Tok) (sp : BitVec 2) (a : BitVec 4) (s : State) : Out :=
  issue (.spun k sp a) (fun s q => withX s q a 0 (fun v =>
    match sp.toNat with
    | 0 =>
      if 2 ^ 21 ≤ v.toNat then .fail causeScratchRange (faddr 0 v)
      else .act (s.withTask { s.task with pins := s.task.pins.filter (fun p => p.toNat != v.toNat / 2 ^ 14) })
    | 2 =>
      if 2 ^ 56 ≤ v.toNat then .fail causePermission (faddr 2 v)
      else .act (s.withTask { s.task with gpins := s.task.gpins.filter (fun p => p.toNat != v.toNat / 2 ^ 16 * 2 ^ 16) })
    | _ => .fail causeIllegalInstr 0)) s

end Sys2Proof.Machine
end

