-- ==== Sys2Proof/Machine/Sync.lean ====
section
/-! DEFINITION. Barrier objects and rings (R84, R96 to R104, R256, R257). -/

namespace Sys2Proof.Machine

open Sys2Proof

/-- The effect that needs the place of an object: its address form, alignment, then the space (R97, R231). -/
def withObj (s : State) (a : Word64) (align : Nat) (write : Bool) (k : State → Nat → Word64 → BitVec 2 → Effect) : Effect :=
  match objAddr a with
  | none => .fail causeIllegalInstr 0
  | some (sp, addr) =>
    match checkAccess s sp addr align write with
    | (_, .fault c) => .fail c a
    | (_, .stall w) => .stall w
    | (s1, .key key leaf) => k s1 key leaf sp

/-! ## Barrier objects (R96 to R102) -/

/-- A barrier object's fields (R96). -/
structure Barrier where
  exp : Nat
  pend : Nat
  bytes : Nat
  phase : Nat
  err : Bool
  wc : Bool
  def_ : Nat
  rsv : Nat
  deriving DecidableEq, Repr

/-- The fields of the 16 bytes (R96). -/
def Barrier.ofBits (n : Nat) : Barrier where
  exp := bitsOf n 0 16
  pend := bitsOf n 16 16
  bytes := bitsOf n 32 32
  phase := bitsOf n 64 4
  err := bitAt n 68
  wc := bitAt n 69
  def_ := bitsOf n 72 16
  rsv := bitsOf n 70 2 + 4 * bitsOf n 88 40

/-- The 16 bytes of an object without reserved bits (R96). -/
def Barrier.toBits (b : Barrier) : Nat :=
  b.exp + b.pend * 2 ^ 16 + b.bytes * 2 ^ 32 + b.phase * 2 ^ 64 + b.err.toNat * 2 ^ 68 + b.wc.toNat * 2 ^ 69 + b.def_ * 2 ^ 72

/-- An invalid object (R96). -/
def Barrier.invalid (b : Barrier) : Bool := b.exp == 0 || b.rsv != 0 || decide (b.pend < b.def_)

/-- Evaluate of R98: the phase advances when both counts are zero. -/
def Barrier.evaluate (b : Barrier) : Barrier :=
  if b.pend = 0 ∧ b.bytes = 0 then { b with pend := b.exp, phase := (b.phase + 1) % 16 } else b

/-- What an operation does to an object: a new value, a refusal without change, or ERR set. -/
inductive BarOut where
  | ok (b : Barrier)
  | refused
  | errored (b : Barrier)
  | discarded
  deriving DecidableEq, Repr

/-- The object with ERR set. -/
def Barrier.fail (b : Barrier) : BarOut := .errored { b with err := true }

/-- The states of R98 in their order: invalid and frozen refuse, errored discards, open acts. -/
def Barrier.act (b : Barrier) (f : Barrier → BarOut) : BarOut :=
  if b.invalid then .refused else if b.wc then .refused else if b.err then .discarded else f b

/-- BARV c, e on an object (R98). -/
def barArrive (c e : Nat) (b : Barrier) : BarOut :=
  b.act (fun b => if c ≤ b.pend - b.def_ ∧ b.bytes + e < 2 ^ 32 then
    .ok ({ b with bytes := b.bytes + e, pend := b.pend - c } : Barrier).evaluate else b.fail)

/-- BARD c (R98). -/
def barDefer (c : Nat) (b : Barrier) : BarOut :=
  b.act (fun b => if c ≤ b.pend - b.def_ then .ok { b with def_ := b.def_ + c } else b.fail)

/-- A deferred arrival of c (R98). -/
def barDeferred (c : Nat) (b : Barrier) : BarOut :=
  b.act (fun b => if c ≤ b.def_ then .ok ({ b with def_ := b.def_ - c, pend := b.pend - c } : Barrier).evaluate else b.fail)

/-- BEXP e (R98). -/
def barExpect (e : Nat) (b : Barrier) : BarOut :=
  b.act (fun b => if b.bytes + e < 2 ^ 32 then .ok { b with bytes := b.bytes + e } else b.fail)

/-- The byte arrival of a completed copy (R98). -/
def barBytes (n : Nat) (b : Barrier) : BarOut :=
  b.act (fun b => if n ≤ b.bytes then .ok ({ b with bytes := b.bytes - n } : Barrier).evaluate else b.fail)

/-- A copy that names the object ends with token 0: open or frozen objects take ERR (R98). -/
def barCopyFailed (b : Barrier) : BarOut :=
  if b.invalid then .refused else if b.wc then b.fail else if b.err then .discarded else b.fail

/-- The object at a key. -/
def barAt (s : State) (key : Nat) : Barrier := Barrier.ofBits (readKey s key 16)

/-- A refused operation (R101): its record is logged, and held in the issuing sequencer when none is held there. -/
def refuse (s : State) (q : SeqId) (obj : Word64) (r : FaultRec) : State :=
  let s1 := s.log 2 r []
  let sq := s1.seq q
  match sq.objErr with
  | some _ => s1
  | none => s1.withSeq q { sq with objErr := some (obj, r) }

/-- The outcome of an operation of sequencer `q` on the object carried out (R97, R98, R100, R101). -/
def barApply (s : State) (q : SeqId) (o : Origin) (obj : Word64) (key : Nat) (leaf : Word64) : BarOut → State
  | .ok b => lostWrite (writeKey s key 16 b.toBits leaf) o 6 0 none key obj
  | .refused => refuse s q obj (asyncRec s o (faultAt causeBarrierOverrun obj))
  | .errored b => (lostWrite (writeKey s key 16 b.toBits leaf) o 6 0 none key obj).log 2 (asyncRec s o (faultAt causeBarrierOverrun obj)) []
  | .discarded => s

/-- An arrival-like operation: bits of b beyond `w` must be zero; it is a release access on path 6 (R84, R257). -/
def barOp (s : State) (q : SeqId) (i : Instr) (a : BitVec 4) (b : Src) (w : Nat) (f : Nat → Barrier → BarOut) : Effect :=
  withX s q a 0 (fun obj => withSrcVal s q b 1 (fun v =>
    if 2 ^ w ≤ v.toNat then .fail causeIllegalInstr 0
    else if fenced s q 6 ∨ fencedPoint s q then .stall .engine
    else withObj s obj 16 true (fun s1 key leaf _ =>
      .act (barApply s1 q (s.origin q i) obj key leaf (f v.toNat (barAt s1 key))))))

/-- BINIT (R98, R257): n = 0 is illegal. -/
def execBinit (k : Tok) (a : BitVec 4) (b : Src) (s : State) : Out :=
  issue (.binit k a b) (fun s q => withX s q a 0 (fun obj => withSrcVal s q b 1 (fun v =>
    if 2 ^ 17 ≤ v.toNat ∨ bitsOf v.toNat 0 16 = 0 then .fail causeIllegalInstr 0
    else if fenced s q 6 ∨ fencedPoint s q then .stall .engine
    else withObj s obj 16 true (fun s1 key leaf _ =>
      let n := bitsOf v.toNat 0 16
      let o : Barrier := { exp := n, pend := n, bytes := 0, phase := 0, err := false, wc := bitAt v.toNat 16, def_ := 0, rsv := 0 }
      .act (lostWrite (writeKey s1 key 16 o.toBits leaf) (s.origin q (.binit k a b)) 6 0 none key obj))))) s

/-- BARV (R98). -/
def execBarv (k : Tok) (a : BitVec 4) (b : Src) (s : State) : Out :=
  let i := Instr.barv k a b
  issue i (fun s q => barOp s q i a b 48 (fun v => barArrive (bitsOf v 0 16) (bitsOf v 16 32))) s

/-- A deferred arrival registered when the object took it: it waits for the commands issued before it on paths 1 to 5 (R99). -/
def registerDeferred (s0 s : State) (q : SeqId) (i : Instr) (obj : Word64) (c : Nat) (out : BarOut) : State :=
  match out with
  | .ok _ =>
    let o := s0.origin q i
    let d : Deferred := { id := s.nextId, origin := o, obj := obj, c := BitVec.ofNat 16 c
                          waits := ((outstanding s0 q).filter (fun p => decide (p.2 ≤ 5))).map Prod.fst
                          record := asyncRec s0 o (faultAt causeBarrierOverrun obj), home := objHome s0 obj }
    (s.withTask { s.task with deferred := s.task.deferred ++ [d] }).fresh
  | _ => s

/-- BARD (R98, R99). -/
def execBard (k : Tok) (a : BitVec 4) (b : Src) (s : State) : Out :=
  let i := Instr.bard k a b
  issue i (fun s q => withX s q a 0 (fun obj => withSrcVal s q b 1 (fun v =>
    if 2 ^ 16 ≤ v.toNat then .fail causeIllegalInstr 0
    else if fenced s q 6 ∨ fencedPoint s q then .stall .engine
    else withObj s obj 16 true (fun s1 key leaf _ =>
      let out := barDefer v.toNat (barAt s1 key)
      .act (registerDeferred s (barApply s1 q (s.origin q i) obj key leaf out) q i obj v.toNat out))))) s

/-- BEXP (R98). -/
def execBexp (k : Tok) (a : BitVec 4) (b : Src) (s : State) : Out :=
  let i := Instr.bexp k a b
  issue i (fun s q => barOp s q i a b 32 barExpect) s

/-- BINV (R98). -/
def execBinv (k : Tok) (a : BitVec 4) (s : State) : Out :=
  issue (.binv k a) (fun s q => withX s q a 0 (fun obj =>
    if fenced s q 6 ∨ fencedPoint s q then .stall .engine
    else withObj s obj 16 true (fun s1 key leaf _ =>
      .act (lostWrite (writeKey s1 key 16 0 leaf) (s.origin q (.binv k a)) 6 0 none key obj)))) s

/-- The scratchpad of a task as a home. -/
def taskHome (lid : BitVec 14) (task : Word64) : Nat := 1 + task.toNat + 2 ^ 64 * lid.toNat

/-- Where an object lies, whichever form its address takes (R50, R231): in the scratchpad of a task, by its address there, or in global
memory, by its PA; in cluster space in that of `home`, found at the issue of the operation. -/
def objKey (s : State) (home : Option PageOwner) (obj : Word64) : Option (Nat × Nat) :=
  let a := (obj.extractLsb 55 0).toNat
  let id := s.task.ident
  match (obj.extractLsb 57 56).toNat with
  | 0 => some (taskHome id.lid id.taskId, a)
  | 1 => home.map (fun o => (taskHome o.lid o.task, a % 2 ^ 16))
  | _ =>
    (match translateWalk s id.die id.queue id.world a false with
     | .ok pa _ => some (0, keyOf s pa)
     | .fail _ => none)

/-- Two addresses name the same object (R101). -/
def sameObj (s : State) (a b : Word64) : Bool :=
  a == b || ((objKey s (objHome s a) a).isSome && objKey s (objHome s a) a == objKey s (objHome s b) b)

/-- A held error is delivered at the next wait or test of its object, and cleared (R101). -/
def withObjErr (s : State) (q : SeqId) (obj : Word64) (e : Effect) : Effect :=
  match (s.seq q).objErr with
  | some (o, r) => if sameObj s o obj then .deliver (s.withSeq q { s.seq q with objErr := none }) r true else e
  | none => e

/-- BWAIT (R100, R257): d is the limit, then the phase observed. -/
def execBwait (k : Tok) (d a : BitVec 4) (b : Src) (s : State) : Out :=
  issue (.bwait k d a b) (fun s q => withX s q a 0 (fun obj => withSrcVal s q b 1 (fun p => withX s q d 2 (fun limit =>
    if 16 ≤ p.toNat then .fail causeIllegalInstr 0
    else if fenced s q 6 then .stall .engine
    else withObjErr s q obj (withObj s obj 16 false (fun s1 key leaf sp =>
      let o := barAt s1 key
      let s2 := readTouch s1 key leaf
      if o.err || o.invalid then .fail causeBarrierOverrun obj
      else if o.phase ≠ p.toNat then .write s2 (spaceBound sp) [.x d (BitVec.ofNat 64 o.phase) none]
      else .done s2 1 [] (.sleep (.bwait d obj (p.truncate 4) limit s1.time)))))))) s

/-- BTEST (R100, R257). -/
def execBtest (k : Tok) (d a : BitVec 4) (b : Src) (s : State) : Out :=
  issue (.btest k d a b) (fun s q => withX s q a 0 (fun obj => withSrcVal s q b 1 (fun p =>
    if 16 ≤ p.toNat then .fail causeIllegalInstr 0
    else if fenced s q 6 then .stall .engine
    else withObjErr s q obj (withObj s obj 16 false (fun s1 key leaf sp =>
      let o := barAt s1 key
      let s2 := readTouch s1 key leaf
      if o.err || o.invalid then .fail causeBarrierOverrun obj
      else .write s2 (spaceBound sp) [.x d (BitVec.ofNat 64 ((decide (o.phase ≠ p.toNat)).toNat + o.phase * 2 ^ 8)) none]))))) s

/-! ## Rings (R103, R104) -/

/-- A ring descriptor's fields (R103). -/
structure Ring where
  base : Nat
  ssp : Nat
  log2n : Nat
  stride : Nat
  head : Nat
  tail : Nat
  claimed : Nat
  taken : Nat
  valid : Bool
  err : Bool
  rsv : Nat
  deriving DecidableEq, Repr

/-- The fields of the 64 bytes (R103). -/
def Ring.ofBits (n : Nat) : Ring where
  base := bitsOf n 0 64
  ssp := bitsOf n 64 2
  log2n := bitsOf n 72 4
  stride := bitsOf n 80 16
  head := bitsOf n 96 32
  tail := bitsOf n 128 32
  claimed := bitsOf n 160 32
  taken := bitsOf n 192 32
  valid := bitAt n 224
  err := bitAt n 225
  rsv := bitsOf n 66 6 + bitsOf n 76 4 + bitsOf n 226 286

/-- The 64 bytes of a descriptor without reserved bits (R103). -/
def Ring.toBits (r : Ring) : Nat :=
  r.base + r.ssp * 2 ^ 64 + r.log2n * 2 ^ 72 + r.stride * 2 ^ 80 + r.head * 2 ^ 96 + r.tail * 2 ^ 128 +
    r.claimed * 2 ^ 160 + r.taken * 2 ^ 192 + r.valid.toNat * 2 ^ 224 + r.err.toNat * 2 ^ 225

/-- A difference of counts, modulo 2^32 (R103). -/
def countDiff (a b : Nat) : Nat := (a + 2 ^ 32 - b % 2 ^ 32) % 2 ^ 32

/-- The number of slots (R103). -/
def Ring.slots (r : Ring) : Nat := 2 ^ r.log2n

/-- The order TAIL, TAKEN, HEAD, CLAIMED, TAIL + N (R103). -/
def Ring.consistent (r : Ring) : Bool :=
  decide (countDiff r.taken r.tail ≤ countDiff r.head r.tail) && decide (countDiff r.head r.tail ≤ countDiff r.claimed r.tail) &&
    decide (countDiff r.claimed r.tail ≤ r.slots)

/-- An invalid descriptor (R103). -/
def Ring.invalid (r : Ring) : Bool :=
  !r.valid || r.rsv != 0 || r.ssp == 3 || r.stride == 0 || r.stride % 64 != 0 || r.base % 64 != 0 || !r.consistent

/-- Free and filled slots (R104). -/
def Ring.free (r : Ring) : Nat := r.slots - countDiff r.claimed r.tail
def Ring.filled (r : Ring) : Nat := countDiff r.head r.taken

/-- The ring at a key. -/
def ringAt (s : State) (key : Nat) : Ring := Ring.ofBits (readKey s key 64)

/-- A ring operation's checks that every member makes (R104). -/
def ringBad (r : Ring) (n : Nat) : Bool := r.invalid || r.err || n == 0 || decide (r.slots < n)

/-- Held publishes and releases of the ring at `key`, whose home is `home`, whose turn has come are applied, each in the step that brings it
(R104). R104 does not say what becomes of them where RINIT writes the ring anew: they stay held, and are applied to the new ring when a
count reaches their k (DESIGN CHOICE, log 53). -/
def settleRing (s : State) (home : Nat × Nat) (key : Nat) (leaf : Word64) : Nat → State
  | 0 => s
  | fuel + 1 =>
    let r := ringAt s key
    match s.pkg.heldRings.find? (fun h => decide (h.home = home) && (if h.rel then h.k.toNat == r.tail else h.k.toNat == r.head)) with
    | none => s
    | some h =>
      let v := (h.k.toNat + h.n) % 2 ^ 32
      let r' := if h.rel then { r with tail := v } else { r with head := v }
      let s1 := s.withPkg { s.pkg with heldRings := s.pkg.heldRings.filter (fun x => !decide (x = h)) }
      settleRing (writeKey s1 key 64 r'.toBits leaf) home key leaf fuel

/-- A ring's new value written at its home by an operation from `o`, with what it lets go; a home without a route is lost (R89). `home` is what
the issue of the operation found for cluster space (R50). -/
def ringWrite (s : State) (home : Option PageOwner) (o : Origin) (obj : Word64) (key : Nat) (r : Ring) (leaf : Word64) : State :=
  let s1 := lostWrite (writeKey s key 64 r.toBits leaf) o 6 0 none key obj
  match objKey s home obj with
  | some home => settleRing s1 home key leaf (s.pkg.heldRings.length + 1)
  | none => s1

/-- RINIT (R103, R104, R256). -/
def execRinit (k : Tok) (d a : BitVec 4) (b : Src) (s : State) : Out :=
  issue (.rinit k d a b) (fun s q => withX s q a 0 (fun obj => withSrcVal s q b 1 (fun v => withX s q d 2 (fun base =>
    if fenced s q 6 ∨ fencedPoint s q then .stall .engine
    else withObj s obj 64 true (fun s1 key leaf _ =>
      let r : Ring := { base := base.toNat, ssp := bitsOf v.toNat 20 2, log2n := bitsOf v.toNat 16 4, stride := bitsOf v.toNat 0 16
                        head := 0, tail := 0, claimed := 0, taken := 0, valid := true, err := false, rsv := 0 }
      if 2 ^ 22 ≤ v.toNat ∨ r.invalid then .fail causeRingProtocol obj
      else .act (ringWrite s1 (objHome s obj) (s.origin q (.rinit k d a b)) obj key r leaf)))))) s

/-- The register result of a successful claim or take: k with the flag at bit 32 (R256). -/
def claimVal (k : Nat) : Word64 := BitVec.ofNat 64 (k + 2 ^ 32)

/-- RCLAIM n or RTAKE n on a ring: the new ring and the start count, where there is room (R104). -/
def ringGet (r : Ring) (fill : Bool) (n : Nat) : Option (Ring × Nat) :=
  if fill then (if n ≤ r.filled then some ({ r with taken := (r.taken + n) % 2 ^ 32 }, r.taken) else none)
  else (if n ≤ r.free then some ({ r with claimed := (r.claimed + n) % 2 ^ 32 }, r.claimed) else none)

/-- RCLAIM and RTAKE (R104). -/
def ringTry (s : State) (q : SeqId) (i : Instr) (d a : BitVec 4) (b : Src) (fill : Bool) : Effect :=
  withX s q a 0 (fun obj => withSrcVal s q b 1 (fun n =>
    if fenced s q 6 then .stall .engine
    else withObj s obj 64 true (fun s1 key leaf sp =>
      let r := ringAt s1 key
      if ringBad r n.toNat then .fail causeRingProtocol obj
      else match ringGet r fill n.toNat with
        | some (r', start) => .write (ringWrite s1 (objHome s obj) (s.origin q i) obj key r' leaf) (spaceBound sp) [.x d (claimVal start) none]
        | none => .write (readTouch s1 key leaf) (spaceBound sp) [.x d 0 none])))

/-- RWFREE and RWFILL: as a claim or take that has room, else asleep (R104). -/
def ringWait (s : State) (q : SeqId) (i : Instr) (d a : BitVec 4) (b : Src) (fill : Bool) : Effect :=
  withX s q a 0 (fun obj => withSrcVal s q b 1 (fun n => withX s q d 2 (fun limit =>
    if fenced s q 6 then .stall .engine
    else withObj s obj 64 true (fun s1 key leaf sp =>
      let r := ringAt s1 key
      if ringBad r n.toNat then .fail causeRingProtocol obj
      else match ringGet r fill n.toNat with
        | some (r', start) => .write (ringWrite s1 (objHome s obj) (s.origin q i) obj key r' leaf) (spaceBound sp) [.x d (claimVal start) none]
        | none => .done (readTouch s1 key leaf) 1 [] (.sleep (.ring d obj n.toNat fill limit s1.time))))))

/-- What RPUB (or RREL when `rel`) of k, n does to a ring: applied, held or an error (R104). -/
def ringPut (r : Ring) (rel : Bool) (k n : Nat) : Option (Option Ring) :=
  let at_ := if rel then 0 else countDiff r.head r.tail
  let top := if rel then countDiff r.taken r.tail else countDiff r.claimed r.tail
  let dk := countDiff k r.tail
  if top < dk + n ∨ dk < at_ then none
  else if dk = at_ then some (some (if rel then { r with tail := (k + n) % 2 ^ 32 } else { r with head := (k + n) % 2 ^ 32 }))
  else some none

/-- RPUB and RREL (R104): an error sets ERR and faults; a held one is accepted at the home and its issuer sleeps. -/
def ringPublish (s : State) (q : SeqId) (i : Instr) (d a : BitVec 4) (b : Src) (rel : Bool) : Effect :=
  withX s q a 0 (fun obj => withSrcVal s q b 1 (fun n => withX s q d 2 (fun kv =>
    if fenced s q 6 ∨ fencedPoint s q then .stall .engine
    else withObj s obj 64 true (fun s1 key leaf _ =>
      let r := ringAt s1 key
      let kk := kv.toNat % 2 ^ 32
      if ringBad r n.toNat then .fail causeRingProtocol obj
      else match ringPut r rel kk n.toNat with
        | none => .faultOn (writeKey s1 key 64 { r with err := true }.toBits leaf) (faultAt causeRingProtocol obj)
        | some (some r') => .act (ringWrite s1 (objHome s obj) (s.origin q i) obj key r' leaf)
        | some none =>
          let h : HeldRing := { id := s1.nextId, home := (objKey s1 (objHome s1 obj) obj).getD (0, key), k := BitVec.ofNat 32 kk, n := n.toNat, rel := rel, lid := s1.task.ident.lid
                                task := s1.task.ident.taskId, q := q }
          .done (s1.withPkg { s1.pkg with heldRings := s1.pkg.heldRings ++ [h] }).fresh 1 [] (.sleep (.held obj h.id))))))

/-- RCLAIM (R104). -/
def execRclaim (k : Tok) (d a : BitVec 4) (b : Src) (s : State) : Out := issue (.rclaim k d a b) (fun s q => ringTry s q (.rclaim k d a b) d a b false) s

/-- RWFREE (R104). -/
def execRwfree (k : Tok) (d a : BitVec 4) (b : Src) (s : State) : Out := issue (.rwfree k d a b) (fun s q => ringWait s q (.rwfree k d a b) d a b false) s

/-- RPUB (R104). -/
def execRpub (k : Tok) (d a : BitVec 4) (b : Src) (s : State) : Out := issue (.rpub k d a b) (fun s q => ringPublish s q (.rpub k d a b) d a b false) s

/-- RWFILL (R104). -/
def execRwfill (k : Tok) (d a : BitVec 4) (b : Src) (s : State) : Out := issue (.rwfill k d a b) (fun s q => ringWait s q (.rwfill k d a b) d a b true) s

/-- RTAKE (R104). -/
def execRtake (k : Tok) (d a : BitVec 4) (b : Src) (s : State) : Out := issue (.rtake k d a b) (fun s q => ringTry s q (.rtake k d a b) d a b true) s

/-- RREL (R104). -/
def execRrel (k : Tok) (d a : BitVec 4) (b : Src) (s : State) : Out := issue (.rrel k d a b) (fun s q => ringPublish s q (.rrel k d a b) d a b true) s

/-- RSTAT: filled above, free below; a plain read (R104). -/
def execRstat (k : Tok) (d a : BitVec 4) (s : State) : Out :=
  issue (.rstat k d a) (fun s q => withX s q a 0 (fun obj =>
    if fenced s q 6 then .stall .engine
    else withObj s obj 64 false (fun s1 key leaf sp =>
      let r := ringAt s1 key
      if r.invalid || r.err then .fail causeRingProtocol obj
      else .write (readTouch s1 key leaf) (spaceBound sp) [.x d (BitVec.ofNat 64 (r.free + r.filled * 2 ^ 32)) none]))) s

end Sys2Proof.Machine
end

