-- ==== Sys2Proof/Machine/Streams.lean ====
section
/-! DEFINITION. Stream slots, the STRM group and the stream unit (R58, R59, R155, R243 to R247). -/

namespace Sys2Proof.Machine

open Sys2Proof

/-! ## Entries (R247) -/

/-- The bank of a column that holds loft byte `a` (R67, R247): bits [38:30] name the die and the column. -/
def loftBank (a : Nat) : Nat := bitsOf a 30 9

/-- The rules of R247 that need no translation; true when the entry breaks one. -/
def entryBad (s : State) (sp : BitVec 2) (addr : Nat) (store : Bool) : Bool :=
  addr % 64 != 0 ||
    (match sp.toNat with
     | 2 => addr / 2 ^ 16 != (addr + 255) / 2 ^ 16
     | 3 => store || loftBank addr != (columnOf s.core.coreId).toNat || loftBank (addr + 255) != loftBank addr
     | _ => addr / 2 ^ 14 != (addr + 255) / 2 ^ 14)

/-- The check of an entry: a place for it, a stall, or a fault (R247); an entry of the loft that runs into another segment needs that one
too (R49). -/
def entryPlace (s : State) (sp : BitVec 2) (addr : Nat) (store : Bool) : State × Place :=
  if entryBad s sp addr store then (s, .fault causeStreamRange)
  else
    match (if sp = 3 then (place s sp (addr + 255) store).2 else .key 0 0) with
    | .fault c => (s, .fault c)
    | _ => place s sp addr store

/-! ## Slots (R244, R245) -/

/-- The state with a slot of the active plane replaced. -/
def State.withStream (s : State) (n : BitVec 4) (x : StreamSlot) : State :=
  let p := s.plane
  s.withPlane { p with streams := p.streams.set n x }

/-- A use of an invalid slot faults (R244) (DEDUCED, log 34). -/
def withStream (s : State) (n : BitVec 4) (k : StreamSlot → Effect) : Effect :=
  let x := s.plane.streams.get n
  if x.valid then k x else .fail causeStreamRange 0

/-- A slot with entries pending stalls the instructions that change it (R245). -/
def whenIdle (x : StreamSlot) (e : Effect) : Effect := if x.pend ≠ 0 then .stall .engine else e

/-- SDEF (R245). -/
def execSdef (k : Tok) (n a : BitVec 4) (s : State) : Out :=
  issue (.sdef k n a) (fun s q => withX s q a 0 (fun obj =>
    whenIdle (s.plane.streams.get n) (
      if fenced s q 0 then .stall .engine
      else withObj s obj 64 false (fun s1 key leaf _ =>
        match readFails s1 key 64 with
        | some c => .fail c obj
        | none =>
          let d := readKey s1 key 64
          if streamValid d then .act ((readTouch s1 key leaf).withStream n { desc := BitVec.ofNat 512 d, valid := true, pend := 0 })
          else .fail causeStreamRange obj)))) s

/-- The place and width of an unsigned field of SSET and SGET (R245). -/
def streamField (f : Nat) : Nat × Nat :=
  match f with
  | 0 => (0, 56)
  | 1 => (56, 2)
  | 2 => (62, 1)
  | 14 => (312, 40)
  | _ => if f ≤ 7 then (64 + 32 * (f - 3), 32) else (224 + 16 * (f - 8), 16)

/-- The descriptor with a field written; none where the value does not fit (R245). -/
def streamSet (n f : Nat) (v : Word64) : Option Nat :=
  if f = 13 then (if v.toNat < 64 then some (setBits (setBits n 304 4 (bitsOf v.toNat 0 4)) 308 2 (bitsOf v.toNat 4 2)) else none)
  else
    let (lo, w) := streamField f
    if 3 ≤ f ∧ f ≤ 7 then
      (if -(2 ^ 31 : Int) ≤ v.toInt ∧ v.toInt < 2 ^ 31 then some (setBits n lo w v.toNat) else none)
    else if v.toNat < 2 ^ w then some (setBits n lo w v.toNat) else none

/-- The value of a field as SGET returns it (R245). -/
def streamGet (n f : Nat) : Word64 :=
  if f = 13 then BitVec.ofNat 64 (bitsOf n 304 4 + bitsOf n 308 2 * 16)
  else
    let (lo, w) := streamField f
    if 3 ≤ f ∧ f ≤ 7 then sext64 32 (bitsOf n lo w) else BitVec.ofNat 64 (bitsOf n lo w)

/-- SSET (R245); field 15 does not decode. -/
def execSset (k : Tok) (n f : BitVec 4) (b : Src) (s : State) : Out :=
  issue (.sset k n f b) (fun s q => withSrcVal s q b 0 (fun v => withStream s n (fun x => whenIdle x (
    match streamSet x.desc.toNat f.toNat v with
    | some d => if streamValid d then .act (s.withStream n { x with desc := BitVec.ofNat 512 d }) else .fail causeStreamRange 0
    | none => .fail causeStreamRange 0)))) s

/-- SGET (R245). -/
def execSget (k : Tok) (d n f : BitVec 4) (s : State) : Out :=
  issue (.sget k d n f) (fun s _ => withStream s n (fun x => .write s 1 [.x d (streamGet x.desc.toNat f.toNat) none])) s

/-- The slot with its cursor set. -/
def StreamSlot.atCur (x : StreamSlot) (c : Nat) : StreamSlot := { x with desc := BitVec.ofNat 512 (setBits x.desc.toNat 312 40 c) }

/-- SADV (R245). -/
def execSadv (k : Tok) (m : BitVec 4) (b : Src) (s : State) : Out :=
  issue (.sadv k m b) (fun s q => withSrcVal s q b 0 (fun v => withStream s m (fun x => whenIdle x (
    let n := x.desc.toNat
    if !streamWrap n && decide (streamTotal n < streamCur n + v.toNat) then .fail causeStreamRange 0
    else .act (s.withStream m (x.atCur ((streamCur n + v.toNat) % streamTotal n))))))) s

/-- SRST (R245). -/
def execSrst (k : Tok) (m : BitVec 4) (s : State) : Out :=
  issue (.srst k m) (fun s _ => withStream s m (fun x => whenIdle x (.act (s.withStream m (x.atCur 0))))) s

/-- SPOS (R245). -/
def execSpos (k : Tok) (d m : BitVec 4) (s : State) : Out :=
  issue (.spos k d m) (fun s _ => withStream s m (fun x =>
    .write s 1 [.x d (BitVec.ofNat 64 (streamAddr x.desc.toNat (streamCur x.desc.toNat))) none])) s

/-! ## SLD, SLDN, SST and SSTN at issue (R246, R247) -/

/-- Whether earlier work of the unit stands before a load into, or a store out of, a queue (R246). -/
def unitAhead (s : State) (load : Bool) (qn : BitVec 3) : Bool :=
  s.task.jobs.any (fun j => j.load == load && j.qn == qn && (if load then decide (0 < j.toReserve) else decide (j.done < j.count)))

/-- The lines of a global entry that L1 can no longer take: a set all locked (R58). -/
def entryLocked (s : State) (sp : BitVec 2) (addr : Nat) : Option Nat :=
  if sp ≠ 2 ∨ s.task.split = 0 then none
  else ((upTo ((addr + 255) / 128 + 1 - addr / 128)).map (fun i => addr / 128 + i)).find? (fun l => (l1Fetch s l 1).isNone)

/-- What SLD and SST check of their queue at issue, for an entry that is not skipped (R58, R226, R246). -/
def oneReady (s : State) (load : Bool) (qn : BitVec 3) (sp : BitVec 2) (addr : Nat) (k : Effect) : Effect :=
  if load then
    if sldnPending s qn ∨ qRoom s qn = 0 then .stall (.queueFull (qn.zeroExtend 4) 1)
    else match entryLocked s sp addr with
      | some l => .stall (.lock (l1Set l))
      | none => k
  else if unitAhead s false qn then .stall (.queueEmpty (8 + qn.zeroExtend 4) 1)
  else match oHead s (qn.truncate 2) with
    | none => .stall (.queueEmpty (8 + qn.zeroExtend 4) 1)
    | some e =>
      match e.poison with
      | some p => .fault { cause := p.cause, addr := p.addr, body := some (p.word.zeroExtend 256), origin := none, progress := 0 }
      | none => k

/-- A move of `count` entries handed to the stream unit: the cursor and PEND change at issue, and a load reserves the places
that are free (R246). -/
def streamIssue (s : State) (q : SeqId) (i : Instr) (m : BitVec 4) (load : Bool) (qn : BitVec 3) (count : Nat) (one : Bool) : Effect :=
  withStream s m (fun x =>
    let n := x.desc.toNat
    let first := streamCur n
    let mask := if streamGated n then some (s.readKm (streamKm n) 9) else none
    if fenced s q 5 then .stall .engine
    else if count = 0 then .act s
    else if !streamWrap n && decide (streamTotal n < first + count) then .fail causeStreamRange 0
    else if streamTileOver n first count then .fail causeStreamRange 0
    else
      let skip := streamSkips n mask first
      let sp := streamSp n
      let addr := streamAddr n first
      let start := fun (s1 : State) =>
        let live := streamLive n mask first count
        let take := if load then (if sldnPending s1 qn then 0 else Nat.min live (qRoom s1 qn)) else 0
        let (s2, ids) := reserveQ s1 qn take
        let j : StreamJob := { id := s2.nextId, origin := s.origin q i, plane := s.task.active, slot := m, load := load, first := first
                               count := count, done := 0, qn := qn, places := ids, toReserve := if load then live - take else 0
                               mask := mask, stopped := false, held := false }
        let s3 := s2.withTask { s2.task with jobs := s2.task.jobs ++ [j] }
        .act ((s3.ordered q 5).fresh.withStream m { x.atCur ((first + count) % streamTotal n) with pend := x.pend + count })
      if skip then start s
      else
        match entryPlace s sp addr (!load) with
        | (_, .fault c) => .fail c (faddr sp (BitVec.ofNat 64 addr))
        | (_, .stall w) => .stall w
        | (s1, .key _ _) => if one then oneReady s1 load qn sp addr (start s1) else start s1)

/-- SLD (R246). -/
def execSld (k : Tok) (n : BitVec 3) (m : BitVec 4) (s : State) : Out :=
  let i := Instr.sld k n m
  issue i (fun s q => streamIssue s q i m true n 1 true) s

/-- SLDN (R246). -/
def execSldn (k : Tok) (n : BitVec 3) (m : BitVec 4) (b : Src) (s : State) : Out :=
  let i := Instr.sldn k n m b
  issue i (fun s q => withSrcVal s q b 0 (fun v => streamIssue s q i m true n v.toNat false)) s

/-- SST (R246). -/
def execSst (k : Tok) (m : BitVec 4) (n : BitVec 2) (s : State) : Out :=
  let i := Instr.sst k m n
  issue i (fun s q => streamIssue s q i m false (n.zeroExtend 3) 1 true) s

/-- SSTN (R246). -/
def execSstn (k : Tok) (d m : BitVec 4) (n : BitVec 2) (s : State) : Out :=
  let i := Instr.sstn k d m n
  issue i (fun s q => withX s q d 0 (fun v => streamIssue s q i m false (n.zeroExtend 3) v.toNat false)) s

/-! ## The stream unit (R246, R247) -/

/-- The task runs or runs on towards a halt (R42, R247). -/
def taskLive (s : State) : Bool := match s.core.run with | .running => true | .halting _ => true | _ => false

/-- The task with a job changed. -/
def Task.updJob (t : Task) (id : Nat) (f : StreamJob → StreamJob) : Task := { t with jobs := updFirst (fun j => j.id == id) f t.jobs }

/-- An accounting counter raised (R157). -/
def Task.count (t : Task) (n : BitVec 4) (k : Nat) : Task := { t with acct := t.acct.set n (t.acct.get n + BitVec.ofNat 64 k) }

/-- One entry of a job done: PEND falls by 1, and a finished job leaves the unit. -/
def entryDone (s : State) (j : StreamJob) : State :=
  let p := s.core.planes.get j.plane
  let x := p.streams.get j.slot
  let s1 := { s with core := { s.core with planes := s.core.planes.set j.plane { p with streams := p.streams.set j.slot { x with pend := x.pend - 1 } } } }
  let t := s1.task.updJob j.id (fun y => { y with done := y.done + 1 })
  s1.withTask { t with jobs := t.jobs.filter (fun y => !(y.id == j.id && decide (y.count ≤ y.done))) }

/-- Every line of `n` bytes at a key touched by this task. -/
def touchRange (s : State) (k n : Nat) (leaf : Word64) (write : Bool) : State :=
  if isShared k then
    (upTo ((k + n - 1) / 128 + 1 - k / 128)).foldl (fun s i => touch s ((k / 128 + i) * 128) s.task.ident.world leaf write) s
  else s

/-- A value of `n` bytes written at a key by an engine for this task. -/
def putBytes (s : State) (k n v : Nat) (leaf : Word64) : State :=
  if isYard k then yardStore s k n
  else if noRoute s k then s
  else ((touchRange s k n leaf true).remember none k n).store k n v

/-- L1 lines of an entry fetched and locked, with the allocations that hold them (R58). -/
def lockEntry (s : State) (addr : Nat) : Option (State × List Nat) :=
  if s.task.split = 0 then some (s, [])
  else
    let lines := (upTo ((addr + 255) / 128 + 1 - addr / 128)).map (fun i => addr / 128 + i)
    (lines.foldl (fun acc l => acc.bind (fun st => l1Fetch st l 1)) (some s)).map (fun st => (st, lines.filterMap (l1Held st)))

/-- The unit stops at an entry: the fault waits for the next instruction of the issuing sequencer; an exited sequencer
takes it at once (R247, log 27). Nothing happens while an earlier one waits there. -/
def streamStop (s : State) (j : StreamJob) (moved : Nat) (f : FaultInfo) : Option State :=
  let q := j.origin.q
  let sq := s.seq q
  if sq.asyncErr.isSome then none
  else
    let r := asyncRec s j.origin { f with progress := BitVec.ofNat 64 moved }
    let s1 := s.withTask (s.task.updJob j.id (fun y => { y with stopped := true }))
    let s2 := s1.log 2 r []
    if sq.exited then some (takeFault s2 (deliverRec s2 q r false false))
    else some (s2.withSeq q { sq with asyncErr := some r })

/-- A job's entries that have moved (R247). -/
def StreamJob.moved (j : StreamJob) (n : Nat) : Nat := streamLive n j.mask j.first j.done

/-- Entry moved from memory into its place (R59, R226); each aligned 8 bytes of it may be older than a late write that nothing puts before the
command (R73, R82). A job that a halt has held finds its bytes without what the task has written since it was resumed (R91). -/
def streamLoad (s : State) (j : StreamJob) (n e : Nat) : Option State :=
  match j.places with
  | [] => none
  | id :: rest =>
    let sp := streamSp n
    let addr := streamAddr n e
    match entryPlace s sp addr false with
    | (_, .fault c) => streamStop s j (j.moved n) (faultAt c (faddr sp (BitVec.ofNat 64 addr)))
    | (s1, .stall (.page p)) => let s2 := refillPage s1 p.toNat; if resident s2 p.toNat then some s2 else none
    | (_, .stall _) => none
    | (s1, .key key leaf) =>
      match (if sp = 2 then lockEntry s1 addr else some (s1, [])) with
      | none => none
      | some (s2, lines) =>
        let v := if j.held then s2.readPast key entryBytes else s2.readLate j.origin.q 5 (fun _ => 8) key entryBytes
        let p := (readFails s2 key entryBytes).map (fun c => ({ cause := c, addr := faddr sp (BitVec.ofNat 64 addr), word := j.origin.body.truncate 32 } : Poison))
        let s3 := touchRange s2 key entryBytes leaf false
        let t := (fillQ s3.task j.qn id (BitVec.ofNat 2048 v) p lines).updJob j.id (fun y => { y with places := rest })
        some (entryDone (s3.withTask (if j.mask.isSome then t.count 8 1 else t)) j)

/-- Entry moved from its output queue to memory (R82, R246). -/
def streamStore (s : State) (j : StreamJob) (n e : Nat) : Option State :=
  match oHead s (j.qn.truncate 2) with
  | none => none
  | some hd =>
    let sp := streamSp n
    let addr := streamAddr n e
    match entryPlace s sp addr true with
    | (_, .fault c) => streamStop s j (j.moved n) (faultAt c (faddr sp (BitVec.ofNat 64 addr)))
    | (s1, .stall (.page p)) => let s2 := refillPage s1 p.toNat; if resident s2 p.toNat then some s2 else none
    | (_, .stall _) => none
    | (s1, .key key leaf) =>
      match hd.poison with
      | some p => streamStop s1 j (j.moved n) (faultAt p.cause p.addr)
      | none =>
        let s2 := lostWrite (putBytes (popO s1 (j.qn.truncate 2)) key entryBytes (if j.held then s1.writePast key entryBytes hd.data.toNat else s1.writeLate j.origin.q 5 key entryBytes hd.data.toNat) leaf) j.origin 5 0 none key (faddr sp (BitVec.ofNat 64 addr))
        some (entryDone (if j.mask.isSome then s2.withTask (s2.task.count 8 1) else s2) j)

/-- Earlier work on the same slot, or out of the same output queue, comes first (R246). -/
def streamWaits (jobs : List StreamJob) (j : StreamJob) : Bool :=
  (jobs.takeWhile (fun y => y.id != j.id)).any (fun y => (y.plane == j.plane && y.slot == j.slot) || (!j.load && !y.load && y.qn == j.qn))

/-- The unit reserves places that became free for the oldest load into the queue that lacks some (R246). -/
def streamReserve (s : State) (j : StreamJob) : Option State :=
  let k := Nat.min j.toReserve (qRoom s j.qn)
  if j.load && decide (0 < k) &&
      !((s.task.jobs.takeWhile (fun y => y.id != j.id)).any (fun y => y.load && y.qn == j.qn && decide (0 < y.toReserve))) then
    let (s1, ids) := reserveQ s j.qn k
    some (s1.withTask (s1.task.updJob j.id (fun y => { y with places := y.places ++ ids, toReserve := y.toReserve - k })))
  else none

/-- What the unit can do next for a job: reserve, skip an entry, or move one. -/
def streamStep (s : State) (id : Nat) : Option State :=
  match s.task.jobs.find? (fun j => j.id == id) with
  | none => none
  | some j =>
    if !taskLive s then none
    else
      match streamReserve s j with
      | some s1 => some s1
      | none =>
        if j.stopped || streamWaits s.task.jobs j then none
        else
          let n := ((s.core.planes.get j.plane).streams.get j.slot).desc.toNat
          let e := (j.first + j.done) % streamTotal n
          if streamSkips n j.mask e then some (entryDone (s.withTask (s.task.count 7 1)) j)
          else if j.load then streamLoad s j n e else streamStore s j n e

/-- STREAM_ENTRY_MOVE (R246): without room or an entry nothing moves. -/
def execStreamEntryMove (job : Nat) (s : State) : Out := .next (((streamStep s job).map State.drawn).getD s)

end Sys2Proof.Machine
end

