-- ==== Sys2Proof/Machine/Copies.lean ====
section
/-! DEFINITION. Copy descriptors, the COPY group, the copy buffer and the copy engine (R38, R44, R93, R105, R106, R248 to
R255). -/

namespace Sys2Proof.Machine

open Sys2Proof

/-! ## Copy descriptors (R248) -/

def copySrc (n : Nat) : Nat := bitsOf n 0 64
def copyDst (n : Nat) : Nat := bitsOf n 64 64
def copySh (n : Nat) : Nat := bitsOf n 128 32
def copyDh (n : Nat) : Nat := bitsOf n 160 32
def copySsp (n : Nat) : BitVec 2 := BitVec.ofNat 2 (bitsOf n 192 2)
def copyDsp (n : Nat) : BitVec 2 := BitVec.ofNat 2 (bitsOf n 194 2)
def copyShe (n : Nat) : Bool := bitAt n 196
def copyDhe (n : Nat) : Bool := bitAt n 197
def copyBare (n : Nat) : Bool := bitAt n 198
def copyNdim (n : Nat) : Nat := bitsOf n 200 4
def copyExt0 (n : Nat) : Nat := bitsOf n 208 32
def copyWord4 (n : Nat) : Nat := bitsOf n 256 64
def copyXsp (n : Nat) : BitVec 2 := BitVec.ofNat 2 (bitsOf n 312 2)
def copyXaddr (n : Nat) : Nat := bitsOf n 256 56
def copyBar (n : Nat) : Word64 := faddr (BitVec.ofNat 2 (bitsOf n 376 2)) (BitVec.ofNat 64 (bitsOf n 320 56))

/-- Extent of dimension `d`; dimension 0 has EXT0 bytes. -/
def copyExt (n d : Nat) : Nat := if d = 0 then copyExt0 n else bitsOf n (384 + 80 * (d - 1)) 16

/-- Stride of dimension `d`, of the source or the destination; 1 in dimension 0. -/
def copyStride (n d : Nat) (dst : Bool) : Int :=
  if d = 0 then 1 else toSigned 32 (bitsOf n (384 + 80 * (d - 1) + (if dst then 48 else 16)) 32)

/-- Bytes of the whole copy. -/
def copyTotal (n : Nat) : Nat := ((upTo (copyNdim n)).map (copyExt n)).foldl (· * ·) 1

/-- The function codes of the COPY group (R249). -/
def fnCpy : BitVec 3 := 0
def fnCpys : BitVec 3 := 1
def fnGath : BitVec 3 := 2
def fnScat : BitVec 3 := 3
def fnCpyq : BitVec 3 := 4
def fnCpyf : BitVec 3 := 5

/-- A gather or scatter. -/
def fnIndexed (fn : BitVec 3) : Bool := fn == fnGath || fn == fnScat

/-- A descriptor that COPY_ERROR refuses (R249, R250; DEDUCED, log 28). -/
def copyBad (n : Nat) (fn : BitVec 3) : Bool :=
  bitsOf n 199 1 != 0 || bitsOf n 204 4 != 0 || bitsOf n 240 16 != 0 || bitsOf n 378 6 != 0 ||
    copyNdim n == 0 || decide (9 < copyNdim n) || (upTo (copyNdim n)).any (fun d => copyExt n d == 0) ||
    bitsOf n (384 + 80 * (copyNdim n - 1)) 640 != 0 ||
    (!copyShe n && copySh n != 0) || (!copyDhe n && copyDh n != 0) ||
    (copyShe n && copySsp n != 2) || (copyDhe n && copyDsp n != 2) ||
    copyDsp n == 3 || (copyBare n && bitsOf n 376 2 == 3) ||
    (if fn == fnCpys then false
     else if fnIndexed fn then copyNdim n != 2 || bitsOf n 314 6 != 0 || copyXsp n == 3
     else copyWord4 n != 0) ||
    (fn == fnCpyq && (copyDst n != 0 || copyDsp n != 0 || copyDhe n || copyTotal n % 256 != 0 || decide (4096 < copyTotal n))) ||
    (fn == fnCpyf && (copySsp n != 0 || copyShe n))

/-! ## Handles (R105, R106, R404) -/

/-- The PA of a handle's entry in its world's table (R404, R421). -/
def handlePa (world : BitVec 6) (h : Nat) : Nat := 0x1000000 + 0x100000 * world.toNat + 16 * (h % 2 ^ 16)

/-- A live handle's BASE, LEN, RD and WR (R105, R106). -/
def handleLive (mem : List Host.Cell) (world : BitVec 6) (h : Nat) : Option (Nat × Nat × Bool × Bool) :=
  let e := memRead mem (handlePa world h) 16
  let gen := bitsOf e 112 16
  if gen = 0 ∨ gen ≠ bitsOf h 16 16 ∨ bitsOf e 56 8 ≠ 0 ∨ bitsOf e 106 6 ≠ 0 ∨ bitsOf e 64 40 = 0 ∨ bitsOf e 64 16 ≠ 0 ∨
      bitsOf e 0 16 ≠ 0 then none
  else some (bitsOf e 0 56, bitsOf e 64 40, bitAt e 104, bitAt e 105)

/-! ## Elements (R248, R249) -/

/-- The offset of element `e` on a side that is not indexed. -/
def elemOffset (n : Nat) (dst : Bool) : Nat → Nat → Nat → Int
  | _, _, 0 => 0
  | e, d, k + 1 => ((e % copyExt n d : Nat) : Int) * copyStride n d dst + elemOffset n dst (e / copyExt n d) (d + 1) k

/-- The lowest and highest offset of a side (R106). -/
def sideSpan (n : Nat) (dst : Bool) : Int × Int :=
  (upTo (copyNdim n)).foldl (fun acc d =>
    let x := ((copyExt n d : Nat) - 1 : Int) * copyStride n d dst
    (acc.1 + (if x < 0 then x else 0), acc.2 + (if x < 0 then 0 else x))) (0, 0)

/-- Where an element lies, or why it cannot be found. -/
inductive Elem where
  | at (addr : Nat)
  | stall (why : Stall)
  | fault (cause : BitVec 8) (addr : Word64)
  deriving DecidableEq, Repr

/-- A side goes by the index list (R249). -/
def sideIndexed (fn : BitVec 3) (dst : Bool) : Bool := if dst then fn == fnScat else fn == fnGath

/-- The cause of a stop at data that fail correction: R254 has no other for a copy than LOFT_READ (R68) and DATA_UNCORRECTABLE (R436). -/
def engineCause (c : BitVec 8) : BitVec 8 := if c = causeLoftRead then causeLoftRead else causeDataUncorrectable

/-- The offset of element `e` on a side: for an indexed side its row's index is read from the list (R249). -/
def sideOffset (s : State) (n : Nat) (fn : BitVec 3) (dst : Bool) (e : Nat) : Elem ⊕ Int :=
  if sideIndexed fn dst then
    let a := copyXaddr n + 4 * (e / copyExt0 n)
    match place s (copyXsp n) a false with
    | (_, .fault c) => .inl (.fault c (faddr (copyXsp n) (BitVec.ofNat 64 a)))
    | (_, .stall w) => .inl (.stall w)
    | (_, .key key _) =>
      match readFails s key 4 with
      | some c => .inl (.fault (engineCause c) (faddr (copyXsp n) (BitVec.ofNat 64 a)))
      | none => .inr ((readKey s key 4 : Int) * copyStride n 1 dst + (e % copyExt0 n : Nat))
  else .inr (elemOffset n dst e 0 (copyNdim n))

/-- BASE and LEN of the region of a side's handle (R105). -/
def sideRegion (s : State) (world : BitVec 6) (n : Nat) (dst : Bool) : Nat × Nat :=
  match handleLive s.mem world (if dst then copyDh n else copySh n) with
  | some (base, len, _, _) => (base, len)
  | none => (0, 0)

/-- An address as a sum without bound: R248 and R249 give it no modulus, so one of 2^64 or more lies outside every address form, as one below
zero does (R47). -/
def sumAddr (a : Int) : Nat := if a < 0 then ofSigned 64 a else a.toNat

/-- The address of element `e` on a side; a handle adds its region's BASE, and an index that leaves the region stops the
command with COPY_ERROR (R106, R248, R254). -/
def elemAddr (s : State) (region : Nat × Nat) (n : Nat) (fn : BitVec 3) (dst : Bool) (e : Nat) : Elem :=
  match sideOffset s n fn dst e with
  | .inl x => x
  | .inr off =>
    let start := ((if dst then copyDst n else copySrc n : Nat) : Int) + off
    if (if dst then copyDhe n else copyShe n) then
      if sideIndexed fn dst && (decide (start < 0) || decide ((region.2 : Int) ≤ start)) then
        .fault causeCopyError (faddr 2 (BitVec.ofNat 64 (ofSigned 56 (start + region.1))))
      else .at (sumAddr (start + region.1))
    else .at (sumAddr start)

/-- The space of a side. -/
def sideSp (n : Nat) (dst : Bool) : BitVec 2 := if dst then copyDsp n else copySsp n

/-- The command has that side in memory. -/
def sideUsed (fn : BitVec 3) (dst : Bool) : Bool := if dst then fn != fnCpyq else fn != fnCpyf

/-! ## Issue (R249 to R251) -/

/-- A fault of a descriptor: its first 32 bytes and its address go into the record (R229, R250). A fault of what the descriptor
says names the descriptor in FADDR, as the faults of other objects do (DEDUCED, log 34). -/
def descFault (n : Nat) (obj : Word64) (c : BitVec 8) (addr : Word64) : Effect :=
  .fault { cause := c, addr := addr, body := some (BitVec.ofNat 256 n), origin := some obj, progress := 0
           desc := if c = causeNotPresent then [] else wordsOf n 16 }

/-- The checks of a side's handle at issue (R106, R250 step 3). -/
def handleCheck (s : State) (n : Nat) (fn : BitVec 3) (dst : Bool) : Option (BitVec 8) :=
  if sideUsed fn dst && (if dst then copyDhe n else copyShe n) then
    match handleLive s.mem s.task.ident.world (if dst then copyDh n else copySh n) with
    | none => some causeHandleStale
    | some (_, len, rd, wr) =>
      let span := sideSpan n dst
      let start := ((if dst then copyDst n else copySrc n : Nat) : Int)
      if !(if dst then wr else rd) then some causeCopyError
      else if !sideIndexed fn dst && (decide (start + span.1 < 0) || decide ((len : Int) ≤ start + span.2)) then some causeCopyError
      else none
  else none

/-- The translation of the first page of a side in global memory (R250 step 4). -/
def firstPage (s : State) (n : Nat) (fn : BitVec 3) (dst : Bool) : Elem :=
  if sideUsed fn dst && sideSp n dst == 2 then
    match elemAddr s (sideRegion s s.task.ident.world n dst) n fn dst 0 with
    | .at a =>
      match place s 2 a dst with
      | (_, .fault c) => .fault c (faddr 2 (BitVec.ofNat 64 a))
      | (_, .stall w) => .stall w
      | (_, .key _ _) => .at a
    | e => e
  else .at 0

/-- Entries of the copy buffer (R251). -/
def copyBufferSize : Nat := 64

/-- Depth of an E FIFO (R93). -/
def eDepth : Nat := 32

/-- A slot of the issuer's E FIFO reserved (R93). -/
def reserveE (s : State) (q : SeqId) : State × Nat :=
  let sq := s.seq q
  ((s.withSeq q { sq with e := sq.e ++ [Slot.reserved s.nextId] }).fresh, s.nextId)

/-- The access path of a member of the group (R80, R249). -/
def copyPath (fn : BitVec 3) : BitVec 3 := if fnIndexed fn then 2 else 1

/-- The command enters the buffer, with its reservations (R251). -/
def copyEnter (s : State) (o : Origin) (n : Nat) (obj : Word64) (fn : BitVec 3) (qn : BitVec 3) : State :=
  let (s1, slot) := reserveE s o.q
  let (s2, ids) := if fn == fnCpyq then reserveQ s1 qn (copyTotal n / 256) else (s1, [])
  let c : CopyCmd := { id := s2.nextId, origin := o, world := s.task.ident.world, desc := BitVec.ofNat 1024 n, obj := obj, fn := fn, qn := qn
                       places := ids
                       eff := if fn == fnCpys then BitVec.ofNat 64 (copyWord4 n) + s.task.tofs else s.time
                       stamped := fn == fnCpys, eslot := slot, accepted := false, moved := 0, part := 0, stop := none, parked := false
                       srcRegion := sideRegion s s.task.ident.world n false, dstRegion := sideRegion s s.task.ident.world n true }
  ((s2.withTask { s2.task with copies := s2.task.copies ++ [c] }).ordered o.q (copyPath fn)).fresh

/-- A member of the COPY group at issue: descriptor, checks, handles, first pages, then the reservations (R250, R251). -/
def copyIssue (s : State) (q : SeqId) (i : Instr) (a : BitVec 4) (fn : BitVec 3) (qn : BitVec 3) : Effect :=
  withX s q a 0 (fun obj =>
    if fenced s q 0 ∨ fenced s q (copyPath fn).toNat then .stall .engine
    else withObj s obj 128 false (fun s1 key leaf _ =>
      match readFails s1 key 128 with
      | some c => .fail c obj
      | none =>
        let n := readKey s1 key 128
        if copyBad n fn then descFault n obj causeCopyError obj
        else match handleCheck s1 n fn false with
          | some c => descFault n obj c obj
          | none => match handleCheck s1 n fn true with
            | some c => descFault n obj c obj
            | none => match firstPage s1 n fn false with
              | .fault c x => descFault n obj c x
              | .stall w => .stall w
              | .at _ => match firstPage s1 n fn true with
                | .fault c x => descFault n obj c x
                | .stall w => .stall w
                | .at _ =>
                  if copyBufferSize ≤ countOf (fun c => !c.accepted) s1.task.copies then .stall .copyBuffer
                  else if eDepth ≤ (s1.seq q).e.length then .stall .eFifo
                  else if fn == fnCpyq && (sldnPending s1 qn || decide (qRoom s1 qn < copyTotal n / 256)) then .stall (.queueFull (qn.zeroExtend 4) (copyTotal n / 256))
                  else .act (copyEnter (readTouch s1 key leaf) (s.origin q i) n obj fn qn)))

/-- CPY (R249). -/
def execCpy (k : Tok) (a : BitVec 4) (s : State) : Out :=
  let i := Instr.cpy k a
  issue i (fun s q => copyIssue s q i a fnCpy 0) s

/-- CPYS (R249). -/
def execCpys (k : Tok) (a : BitVec 4) (s : State) : Out :=
  let i := Instr.cpys k a
  issue i (fun s q => copyIssue s q i a fnCpys 0) s

/-- GATH (R249). -/
def execGath (k : Tok) (a : BitVec 4) (s : State) : Out :=
  let i := Instr.gath k a
  issue i (fun s q => copyIssue s q i a fnGath 0) s

/-- SCAT (R249). -/
def execScat (k : Tok) (a : BitVec 4) (s : State) : Out :=
  let i := Instr.scat k a
  issue i (fun s q => copyIssue s q i a fnScat 0) s

/-- CPYQ (R249). -/
def execCpyq (k : Tok) (a : BitVec 4) (n : BitVec 3) (s : State) : Out :=
  let i := Instr.cpyq k a n
  issue i (fun s q => copyIssue s q i a fnCpyq n) s

/-- CPYF (R249). -/
def execCpyf (k : Tok) (a : BitVec 4) (s : State) : Out :=
  let i := Instr.cpyf k a
  issue i (fun s q => copyIssue s q i a fnCpyf 0) s

/-! ## Leaving the buffer (R42, R251) -/

/-- Unstamped commands that the engine holds of one core at most (R251). -/
def engineLimit : Nat := 16

/-- No stamped command issues from Tp onward (R42). -/
def stampsHeld (s : State) : Bool :=
  match s.core.run with
  | .halting tp => decide (tp.toNat ≤ s.time.toNat)
  | _ => false

/-- The unstamped commands of this core that the engine holds, those of its saved tasks among them (R44, R251). -/
def engineHolds (s : State) : Nat :=
  let n := fun (t : Task) => countOf (fun (c : CopyCmd) => c.accepted && !c.stamped) t.copies
  n s.task + ((s.pkg.images.filter (fun i => i.core == s.core.coreId)).map (fun i => n i.task)).foldl (· + ·) 0

/-- The command that leaves the buffer next: those whose effective time has come, by that time and then in issue order; an
unstamped one waits for the engine's limit and for every earlier unstamped one (R251). A stamped one that a halt held leaves from the first
cycle after the resume (R42, R45). -/
def copyLeaving (s : State) : Option CopyCmd :=
  let buf := sortBy (fun c => c.eff.toNat) (s.task.copies.filter (fun c => !c.accepted))
  let full := decide (engineLimit ≤ engineHolds s)
  if taskLive s then
    buf.find? (fun c => decide (c.eff.toNat ≤ s.time.toNat) && 
      (if c.stamped then !stampsHeld s && decide (s.core.stampFrom.toNat ≤ s.time.toNat) else !full))
  else none

/-- The task with a copy command changed. -/
def Task.updCopy (t : Task) (id : Nat) (f : CopyCmd → CopyCmd) : Task := { t with copies := updFirst (fun c => c.id == id) f t.copies }

/-- COPY_BUFFER_LEAVE (R251): with nothing ready nothing leaves. -/
def execCopyBufferLeave (s : State) : Out :=
  .next (match copyLeaving s with
    | some c => s.withTask (s.task.updCopy c.id (fun c => { c with accepted := true }))
    | none => s)

/-! ## The copy engine (R253) -/

/-- The engine works for the core's task while it runs, halts or waits to be saved (R44; DESIGN CHOICE, log 11). -/
def engineLive (s : State) : Bool := match s.core.run with | .idle => false | .staging => false | _ => true

/-- The state as the engines see it for a saved task: its image in the core's place (R44). -/
def viewOf (s : State) (im : Image) : State :=
  { s with core := { s.core with task := im.task, coreId := im.core, run := .saved, planes := s.core.planes.set im.task.active im.plane } }

/-- What the engines did for a saved task, put back into its image (R44, R418). -/
def unview (s : State) (im : Image) (v : State) : State :=
  let im' := { im with task := v.core.task, plane := v.core.planes.get im.task.active }
  let s1 : State := { v with core := { v.core with task := s.core.task, coreId := s.core.coreId, run := s.core.run, planes := s.core.planes } }
  (s1.withPkg { s1.pkg with images := updFirst (fun x => decide (x = im)) (fun _ => im') s1.pkg.images }).writeImage im'

/-- The first result, in order. -/
def firstSome {α β : Type} (f : α → Option β) : List α → Option β
  | [] => none
  | a :: t => match f a with
    | some b => some b
    | none => firstSome f t

/-- What an engine does next for one of the saved tasks (R44, R91). -/
def onImages (f : State → Option State) (s : State) : Option State :=
  firstSome (fun im => (f (viewOf s im)).map (unview s im)) s.pkg.images

/-- An engine's next move for the core's task, else for a saved one. -/
def onTasks (f : State → Option State) (s : State) : Option State := (f s).or (onImages f s)

/-- Bytes from `addr` to the end of the 64 KiB page of global memory, or 16 KiB of the other spaces. -/
def chunkTo (sp : BitVec 2) (addr : Nat) : Nat := if sp = 2 then 2 ^ 16 - addr % 2 ^ 16 else 2 ^ 14 - addr % 2 ^ 14

/-- How many of the `n` bytes from a key come before the first unit that fails correction (R254). -/
def cleanBytes (s : State) (k : Nat) : Nat → Nat → Nat
  | _, 0 => 0
  | n, fuel + 1 =>
    let g := if isLoft k then 1024 else 8
    let m := Nat.min n (g - k % g)
    if n = 0 then 0
    else if (readFails s k m).isSome then 0
    else m + cleanBytes s (k + m) (n - m) fuel

/-- One side of a command at element `e`: no memory, a key with its leaf, or why it stops or waits. The handle is checked again
on the first access of each 64 KiB page of its region (R253). -/
inductive Side where
  | none
  | key (addr k : Nat) (leaf : Word64)
  | stall (why : Stall)
  | fault (cause : BitVec 8) (addr : Word64)
  deriving DecidableEq, Repr

/-- Element `e` of a side lies on a page that the command has still to check: its first, or another than the element's before it (R106, R253). -/
def newPage (s : State) (c : CopyCmd) (dst : Bool) (e : Nat) : Bool :=
  let at_ := elemAddr s (if dst then c.dstRegion else c.srcRegion) c.desc.toNat c.fn dst
  match e with
  | 0 => true
  | e' + 1 => match at_ e', at_ e with | .at b, .at a => b / 2 ^ 16 != a / 2 ^ 16 | _, _ => true

/-- The side of a command at element `e`. -/
def sideAt (s : State) (c : CopyCmd) (dst : Bool) (e : Nat) : Side :=
  let n := c.desc.toNat
  let sp := sideSp n dst
  if !sideUsed c.fn dst then .none
  else
    match elemAddr s (if dst then c.dstRegion else c.srcRegion) n c.fn dst e with
    | .stall w => .stall w
    | .fault x a => .fault x a
    | .at addr =>
      let handle := if dst then copyDhe n else copyShe n
      if handle && newPage s c dst e && (handleLive s.mem c.world (if dst then copyDh n else copySh n)).isNone then
        .fault causeHandleStale (faddr 2 (BitVec.ofNat 64 addr))
      else
        match place s sp addr dst with
        | (_, .fault x) => .fault x (faddr sp (BitVec.ofNat 64 addr))
        | (_, .stall w) => .stall w
        | (_, .key k leaf) =>
          if dst && noRoute s k then .fault causeDataUncorrectable (faddr sp (BitVec.ofNat 64 addr))
          else .key addr k leaf

/-- The sixteen words of a descriptor, as a log record carries them (R413). -/
def descWords (d : BitVec 1024) : List Word64 := wordsOf d.toNat 16

/-- The record of a stopped or waiting command (R224, R254). -/
def copyRecord (s : State) (c : CopyCmd) (cause : BitVec 8) (addr : Word64) : FaultRec :=
  asyncRec s c.origin { cause := cause, addr := addr, body := some (c.desc.truncate 256), origin := some c.obj
                        progress := BitVec.ofNat 64 c.moved, desc := descWords c.desc }

/-- A command that cannot touch its next element: at a page that is not present it waits, with one record in the log (R253,
R402); at any other fault it stops, and its record is built and logged then (R224). -/
def copyHalt (s : State) (c : CopyCmd) (cause : BitVec 8) (addr : Word64) : Option State :=
  if cause = causeNotPresent then
    if c.parked then none
    else some ((s.withTask (s.task.updCopy c.id (fun c => { c with parked := true }))).log 2 (copyRecord s c cause addr) (descWords c.desc))
  else
    let r := copyRecord s c cause addr
    some ((s.withTask (s.task.updCopy c.id (fun c => { c with stop := some (cause, r) }))).log 2 r (descWords c.desc))

/-- A page of own scratchpad that an engine needs is brought in; nothing happens while its bank has no frame to give. -/
def refillFor (s : State) (why : Stall) : Option State :=
  match why with
  | .page p => let s1 := refillPage s p.toNat; if resident s1 p.toNat then some s1 else none
  | _ => none

/-- Addresses of the aligned 16 bytes that a row of a side begins and ends in, with the row's first address. -/
def rowStart (s : State) (c : CopyCmd) (dst : Bool) (r : Nat) : Option Nat :=
  match elemAddr s (if dst then c.dstRegion else c.srcRegion) c.desc.toNat c.fn dst (r * copyExt0 c.desc.toNat) with
  | .at a => if sideUsed c.fn dst then some a else none
  | _ => none

/-- The rows of a command: an element's bytes of dimension 0 lie one after the other. -/
def copyRows (c : CopyCmd) : List Nat := upTo (copyTotal c.desc.toNat / copyExt0 c.desc.toNat)

/-- The elements of a side that lie in the 16 bytes at an address. -/
def objectElems (s : State) (c : CopyCmd) (dst : Bool) (a : Nat) : List Nat :=
  let ext := copyExt0 c.desc.toNat
  (copyRows c).flatMap (fun r => match rowStart s c dst r with
    | some b => (upTo 16).filterMap (fun i => if b ≤ a + i ∧ a + i < b + ext then some (r * ext + (a + i - b)) else none)
    | none => [])

/-- The copy's range covers the 16 bytes at an address on a side. -/
def coversObject (s : State) (c : CopyCmd) (dst : Bool) (a : Nat) : Bool :=
  (upTo 16).all (fun i => (copyRows c).any (fun r => match rowStart s c dst r with
    | some b => decide (b ≤ a + i) && decide (a + i < b + copyExt0 c.desc.toNat)
    | none => false))

/-- The aligned 16 bytes at an address of a side hold a frozen object (R102). -/
def frozenAt (s : State) (c : CopyCmd) (dst : Bool) (a : Nat) : Bool :=
  match place s (sideSp c.desc.toNat dst) a dst with
  | (_, .key k _) => let b := Barrier.ofBits (readKey s k 16); b.wc && !b.invalid
  | _ => false

/-- The granule in which a copy reads or writes the byte at an address of a side: a frozen object that it covers is one (R73, R102). -/
def copyGranule (s : State) (c : CopyCmd) (dst : Bool) (a : Nat) : Nat :=
  if frozenAt s c dst (a / 16 * 16) && coversObject s c dst (a / 16 * 16) then 16 else 1

/-- What `n` bytes at a place of the source read as: a byte may be older than a late write that nothing puts before the command (R82, R253). -/
def copyRead (s : State) (c : CopyCmd) (a k n : Nat) : Nat :=
  s.readLate c.origin.q (copyPath c.fn) (fun i => copyGranule s c false (a + i)) k n

/-- The bytes of a fill pattern from element `first` on (R249). -/
def patternBytes (pattern first n : Nat) : Nat := packBits 8 ((upTo n).map (fun i => bitsOf pattern (8 * ((first + i) % 8)) 8))

/-- `n` bytes written at a destination from a place of the source or from the pattern (R249, R253); a byte that a late write gave, or another
element of the command, may keep that value (R82). -/
def moveBytes (s : State) (c : CopyCmd) (src : Option (Nat × Nat)) (dst n : Nat) : State :=
  let p := copyPath c.fn
  let s1 := s.remember none dst n
  match src with
  | some (a, k) =>
    if s.lateOn c.origin.q p k n = [] ∧ s.lateOn c.origin.q p dst n = [] then
      { s1 with mem := cellCopy memDefault s.mem k dst n, bad := badAfterWrite s.bad dst n }
    else s1.store dst n (s.writeLate c.origin.q p dst n (copyRead s c a k n))
  | none => s1.store dst n (s.writeLate c.origin.q p dst n (patternBytes (copySrc c.desc.toNat) c.moved n))

/-- The lines of the index list that `n` elements from `moved` use, as accesses (R249, R407). -/
def listTouch (s : State) (c : CopyCmd) (n : Nat) : State :=
  let d := c.desc.toNat
  if fnIndexed c.fn then
    (upTo ((c.moved + n - 1) / copyExt0 d + 1 - c.moved / copyExt0 d)).foldl (fun s i =>
      match place s (copyXsp d) (copyXaddr d + 4 * (c.moved / copyExt0 d + i)) false with
      | (_, .key k leaf) => touchRange s k 4 leaf false
      | _ => s) s
  else s

/-- `n` elements from the one at `moved` written: into the queue (R249, R254) or into memory. A copy's accesses are of bytes, so the yard
window ignores them (R370). -/
def copyWrite (s : State) (c : CopyCmd) (n : Nat) (src dst : Side) : State :=
  let from_ := match src with | .key a k _ => some (a, k) | _ => none
  let s0 := listTouch s c n
  let s1 := match src with | .key _ k leaf => touchRange s0 k n leaf false | _ => s0
  let done := fun (s : State) (f : CopyCmd → CopyCmd) =>
    s.withTask (s.task.updCopy c.id (fun c => f { c with moved := c.moved + n, parked := false }))
  match dst with
  | .key _ k leaf =>
    if isYard k then done s1 id
    else done (moveBytes (touchRange s1 k n leaf true) c from_ k n) id
  | _ =>
    let part := c.part.toNat + (match from_ with | some (a, k) => copyRead s1 c a k n | none => 0) * 2 ^ (8 * (c.moved % 256))
    if (c.moved + n) % 256 = 0 then
      match c.places with
      | [] => done s1 id
      | id :: rest => done (s1.withTask (fillQ s1.task c.qn id (BitVec.ofNat 2048 part) none [])) (fun c => { c with places := rest, part := 0 })
    else done s1 (fun c => { c with part := BitVec.ofNat 2048 part })

/-- The elements that can move at once: to the end of the row, of each side's page and of a queue entry. -/
def copyChunk (c : CopyCmd) (src dst : Side) : Nat :=
  let n := c.desc.toNat
  let row := copyExt0 n - c.moved % copyExt0 n
  let m1 := match src with | .key a _ _ => Nat.min row (chunkTo (copySsp n) a) | _ => row
  let m2 := match dst with | .key a _ _ => Nat.min m1 (chunkTo (copyDsp n) a) | _ => m1
  if c.fn == fnCpyq then Nat.min m2 (256 - c.moved % 256) else m2

/-- What an engine can do for a command at its next element. -/
inductive CopyMove where
  | wait (why : Stall)
  | halt (cause : BitVec 8) (addr : Word64)
  | moved (s : State)
  deriving DecidableEq, Repr

/-- The cause of a stop at the byte at a key. -/
def copyDataCause (s : State) (k : Nat) : BitVec 8 := engineCause ((readFails s k 1).getD causeDataUncorrectable)

/-- Addresses of the aligned 16 bytes of a side that a copy which stands before element `e` may have begun and not ended: those at the ends of its
rows, and those of `e` itself. -/
def openPlaces (s : State) (c : CopyCmd) (dst : Bool) (e : Nat) : List Nat :=
  let ext := copyExt0 c.desc.toNat
  ((copyRows c).filterMap (rowStart s c dst)).flatMap (fun b => [b / 16 * 16, (b + ext - 1) / 16 * 16]) ++
    (match rowStart s c dst (e / ext) with | some b => [(b + e % ext) / 16 * 16] | none => [])

/-- The element at which a side first meets a frozen object, covered whole by the copy, that a stop before element `e` would leave moved in part
(R102). -/
def frozenStart (s : State) (c : CopyCmd) (dst : Bool) (e : Nat) : Option Nat :=
  firstSome (fun a =>
    if frozenAt s c dst a && coversObject s c dst a then
      let l := objectElems s c dst a
      match l.filter (fun x => decide (x < e)) with
      | b :: t => if l.any (fun x => decide (e ≤ x)) then some (t.foldl Nat.min b) else none
      | [] => none
    else none) (openPlaces s c dst e)

/-- The same for either side. -/
def granuleStart (s : State) (c : CopyCmd) (e : Nat) : Option Nat :=
  if e = 0 ∨ copyTotal c.desc.toNat ≤ e then none else (frozenStart s c false e).or (frozenStart s c true e)

/-- The elements from `moved` that can move at once, or why none can (R253); a frozen object that the copy covers is not begun at the end of
them (R102). -/
def copyMove (s : State) (c : CopyCmd) : CopyMove :=
  match sideAt s c false c.moved, sideAt s c true c.moved with
  | .fault x a, _ => .halt x a
  | .stall w, _ => .wait w
  | _, .fault x a => .halt x a
  | _, .stall w => .wait w
  | src, dst =>
    let m := copyChunk c src dst
    let m1 := match src with | .key _ k _ => cleanBytes s k m (m + 1) | _ => m
    let m2 := match granuleStart s c (c.moved + m1) with | some e => if c.moved < e then e - c.moved else m1 | none => m1
    match src with
    | .key a k _ =>
      if m1 = 0 then .halt (copyDataCause s k) (faddr (copySsp c.desc.toNat) (BitVec.ofNat 64 a))
      else .moved (copyWrite s c m2 src dst)
    | _ => .moved (copyWrite s c m2 src dst)

/-- A move that has begun a frozen object goes on to its end in the same step, or is not made at all (R102). -/
def copyUnit (s : State) (c : CopyCmd) : Nat → State → Option State
  | 0, v => some v
  | fuel + 1, v =>
    match v.task.copies.find? (fun x => x.id == c.id) with
    | none => some v
    | some c1 =>
      if (granuleStart s c c1.moved).isNone then some v
      else
        match copyMove v c1 with
        | .moved w => copyUnit s c fuel w
        | .halt x a => copyHalt s c x a
        | .wait w => refillFor s w

/-- The engine's next move for a command: the elements up to the next page, or a stop, or a wait (R253; DESIGN CHOICE, log 11). -/
def copyStep (s : State) (id : Nat) : Option State :=
  match s.task.copies.find? (fun c => c.id == id) with
  | none => none
  | some c =>
    if !engineLive s || !c.accepted || c.stop.isSome || decide (copyTotal c.desc.toNat ≤ c.moved) then none
    else
      match copyMove s c with
      | .halt x a => copyHalt s c x a
      | .wait w => refillFor s w
      | .moved v => copyUnit s c (copyTotal c.desc.toNat) v

/-- COPY_PAGE_CHECK (R253), for the core's task or a saved one (R44): a command that is not waiting to move stays as it is. -/
def execCopyPageCheck (cmd : Nat) (s : State) : Out := .next (((onTasks (fun v => copyStep v cmd) s).map State.drawn).getD s)

/-! ## Completion (R254) -/

/-- The queue entries that a stopped CPYQ leaves unfilled, poisoned with the cause of the stop (R254). -/
def fillPoisoned (s : State) (c : CopyCmd) (cause : BitVec 8) : State :=
  let n := c.desc.toNat
  let total := copyTotal n / 256
  let firstLeft := total - c.places.length
  let addr := fun (k : Nat) => match elemAddr s c.srcRegion n c.fn false (256 * k) with
    | .at a => faddr (copySsp n) (BitVec.ofNat 64 a)
    | _ => faddr (copySsp n) 0
  let fills := c.places.zip ((upTo c.places.length).map (fun i => addr (firstLeft + i)))
  s.withTask (fills.foldl (fun t p => fillQ t c.qn p.1 0 (some { cause := cause, addr := p.2, word := c.origin.body.truncate 32 }) []) s.task)

/-- A completed copy's byte arrival, or the ERR of a stopped one, at the barrier it names; true when a byte arrival was refused
(R84, R97, R98, R254). The rules do not say what becomes of an arrival whose barrier is misaligned or cannot be reached: the model refuses
it, as at an invalid object (DESIGN CHOICE, log 52). -/
def copyArrive (s : State) (c : CopyCmd) (failed : Bool) : State × Bool :=
  let n := c.desc.toNat
  if !copyBare n then (s, false)
  else
    match checkAccess s (BitVec.ofNat 2 (bitsOf n 376 2)) (bitsOf n 320 56) 16 true with
    | (_, .fault _) => (s, true)
    | (_, .stall _) => (s, true)
    | (s1, .key key leaf) =>
      match (if failed then barCopyFailed (barAt s1 key) else barBytes c.moved (barAt s1 key)) with
      | .ok b => (lostWrite (writeKey s1 key 16 b.toBits leaf) c.origin 6 0 (some c.eslot) key (copyBar n), false)
      | .refused => (s1, true)
      | .errored b =>
        let s2 := lostWrite (writeKey s1 key 16 b.toBits leaf) c.origin 6 0 (some c.eslot) key (copyBar n)
        (if failed then s2 else s2.log 2 { copyRecord s c causeBarrierOverrun (copyBar n) with desc := [] } [], false)
      | .discarded => (s1, false)

/-- The command leaves the engine with its token, for a stopped one with the record of its stop (R83, R224, R252, R254). -/
def copyFinish (s : State) (c : CopyCmd) : State :=
  let (s1, refused) := copyArrive s c c.stop.isSome
  let late : Option FaultRec := if c.stop.isNone && refused then some (copyRecord s c causeCopyError (copyBar c.desc.toNat)) else none
  let rec_ := (c.stop.map Prod.snd).or late
  let s2 := match late with | some r => s1.log 2 r (descWords c.desc) | none => s1
  let s3 := match c.stop with | some (cause, _) => fillPoisoned s2 c cause | none => s2
  let t := s3.task.fillE c.origin.q c.eslot rec_.isNone rec_
  s3.withTask { t with copies := t.copies.filter (fun x => x.id != c.id) }

/-- What an arrival of a copy still waits for: a fence issued before the command, since it is a release (R74, R84), a barrier's page of
own scratchpad that must come in first, or one that is not present, which firmware maps as it does the command's other pages (R253). -/
def barPage (s : State) (c : CopyCmd) : Option Stall :=
  let n := c.desc.toNat
  if copyBare n then
    if fencedBefore s c.origin.q c.id then some .engine
    else
      match checkAccess s (BitVec.ofNat 2 (bitsOf n 376 2)) (bitsOf n 320 56) 16 true with
      | (_, .stall w) => some w
      | (_, .fault f) => if f = causeNotPresent then some .engine else none
      | _ => none
  else none

/-- A command that has written its last element, or stopped, completes. -/
def copyDone (s : State) (id : Nat) : Option State :=
  match s.task.copies.find? (fun c => c.id == id) with
  | none => none
  | some c =>
    if engineLive s && c.accepted && (c.stop.isSome || decide (copyTotal c.desc.toNat ≤ c.moved)) then
      match barPage s c with
      | some w => refillFor s w
      | none => some (copyFinish s c)
    else none

/-- COPY_COMPLETE (R254), for the core's task or a saved one (R44): a command with elements left stays as it is. -/
def execCopyComplete (cmd : Nat) (s : State) : Out := .next ((onTasks (fun v => copyDone v cmd) s).getD s)

end Sys2Proof.Machine
end

