-- ==== Sys2Proof/Machine/Waits.lean ====
section
/-! DEFINITION. How sleeping instructions wake (R90, R99, R100, R104, R217, R218, R237, R256), retirement and the tick (R22, R36). -/

namespace Sys2Proof.Machine

open Sys2Proof

/-- The wait of a sequencer of a task that is not halted. -/
def sleeping (s : State) (q : SeqId) : Option Wait :=
  let sq := s.seq q
  if taskLive s && !sq.halted && !sq.exited then sq.wait else none

/-- A sleeping instruction completes with its destinations (R187: its bound counts from the wake). -/
def wake (s : State) (q : SeqId) (w : Wait) (bound : Nat) (writes : List Write) : State :=
  complete (s.withSeq q { s.seq q with wait := none }) q w.instr bound writes .next w.push

/-- A sleeping instruction faults at its PC. -/
def wakeFault (s : State) (q : SeqId) (w : Wait) (f : FaultInfo) : State := faultPrecise s q w.instr f (s.seq q).popped 0

/-- What follows from the place of an access made at a wake: a page comes in first, a fault is taken, or the access is made; in cluster space its
target stands as it was found at the issue (R50). -/
def wakeAt (s : State) (q : SeqId) (w : Wait) (sp : BitVec 2) (addr size : Nat) (write : Bool)
    (k : State → Nat → Word64 → Option State) : Option State :=
  match checkLater s w.home sp addr size write with
  | (_, .fault c) => some (wakeFault s q w (faultAt c (faddr sp (BitVec.ofNat 64 addr))))
  | (_, .stall why) => refillFor s why
  | (s1, .key key leaf) => k s1 key leaf

/-- A limit of `limit` ticks from `since` has passed; 0 is no limit. -/
def limitPassed (s : State) (limit since : Word64) : Bool := limit != 0 && decide (limit.toNat ≤ (s.time - since).toNat)

/-- WAITM reads its location again: it leaves when the value differs, when the read fails correction, or, at its limit, with the
value it finds (R237). -/
def waitmStep (s : State) (q : SeqId) (atLimit : Bool) : Option State :=
  match sleeping s q with
  | some w =>
    match w.kind with
    | .waitm d sp addr z g cmp limit since =>
      if atLimit && !limitPassed s limit since then none
      else
        wakeAt s q w sp addr.toNat (sizeOf z) false (fun s1 key leaf =>
          let v := readKey s1 key (sizeOf z)
          let bad := readFails s1 key (sizeOf z)
          if atLimit || bad.isSome || v != cmp.toNat % 2 ^ (8 * sizeOf z) then
            some (wake (readTouch s1 key leaf) q w (spaceBound sp)
              [.x d (extendVal g (sizeOf z) v) (bad.map (fun c => poisonOf c sp addr.toNat w.instr))])
          else none)
    | _ => none
  | none => none

/-- WAITM_WAKE (R237). -/
def execWaitmWake (q : SeqId) (s : State) : Out := .next ((waitmStep s q false).getD s)

/-- WAITM_LIMIT (R237). -/
def execWaitmLimit (q : SeqId) (s : State) : Out := .next ((waitmStep s q true).getD s)

/-- The space and address of a legal object address. -/
def objPlace (a : Word64) : BitVec 2 × Nat := (a.extractLsb 57 56, (a.extractLsb 55 0).toNat)

/-- A pending object error of the object that a sleeping BWAIT waits on is delivered to it (R97, R101; DEDUCED, log 17). -/
def objErrWake (s : State) (q : SeqId) (obj : Word64) : Option State :=
  match (s.seq q).objErr with
  | some (o, r) =>
    if sameObj s o obj then some (faultDeliver (s.withSeq q { s.seq q with objErr := none }) q r (s.seq q).popped) else none
  | none => none

/-- A sleeping BWAIT reads its object again (R100). -/
def bwaitStep (s : State) (q : SeqId) : Option State :=
  match sleeping s q with
  | some w =>
    match w.kind with
    | .bwait d obj p _ _ => (objErrWake s q obj).or <|
      wakeAt s q w (objPlace obj).1 (objPlace obj).2 16 false (fun s1 key leaf =>
        let o := barAt s1 key
        if o.err || o.invalid then some (wakeFault s1 q w (faultAt causeBarrierOverrun obj))
        else if o.phase ≠ p.toNat then
          some (wake (readTouch s1 key leaf) q w (spaceBound (objPlace obj).1) [.x d (BitVec.ofNat 64 o.phase) none])
        else none)
    | _ => none
  | none => none

/-- BARRIER_WAIT_WAKE (R100): an object unchanged leaves the waiter asleep. -/
def execBarrierWaitWake (q : SeqId) (s : State) : Out := .next ((bwaitStep s q).getD s)

/-- The limit of a BWAIT has passed (R100). -/
def bwaitExpire (s : State) (q : SeqId) : Option State :=
  match sleeping s q with
  | some w =>
    match w.kind with
    | .bwait _ obj _ limit since =>
      if limitPassed s limit since then some (wakeFault s q w (faultAt causeBarrierTimeout obj)) else none
    | _ => none
  | none => none

/-- BARRIER_TIMEOUT (R100). -/
def execBarrierTimeout (q : SeqId) (s : State) : Out := .next ((bwaitExpire s q).getD s)

/-- A sleeping RWFREE or RWFILL acts as a successful RCLAIM or RTAKE once it can (R104); the sequencer of a held RPUB or RREL
goes on once the home has applied it. -/
def ringStep (s : State) (q : SeqId) : Option State :=
  match sleeping s q with
  | some w =>
    match w.kind with
    | .ring d obj n fill _ _ =>
      wakeAt s q w (objPlace obj).1 (objPlace obj).2 64 true (fun s1 key leaf =>
        let r := ringAt s1 key
        if ringBad r n then some (wakeFault s1 q w (faultAt causeRingProtocol obj))
        else match ringGet r fill n with
          | some (r', start) =>
            some (wake (ringWrite s1 w.home (s.origin q w.instr) obj key r' leaf) q w (spaceBound (objPlace obj).1) [.x d (claimVal start) none])
          | none => none)
    | .held _ id =>
      if s.pkg.heldRings.any (fun h => h.id == id) then none
      else some (s.withSeq q { s.seq q with wait := none })
    | _ => none
  | none => none

/-- RING_WAIT_WAKE (R104). -/
def execRingWaitWake (q : SeqId) (s : State) : Out := .next ((ringStep s q).getD s)

/-- The limit of an RWFREE or RWFILL has passed; the ring is unchanged (R256). -/
def ringExpire (s : State) (q : SeqId) : Option State :=
  match sleeping s q with
  | some w =>
    match w.kind with
    | .ring _ obj _ _ limit since =>
      if limitPassed s limit since then some (wakeFault s q w (faultAt causeBarrierTimeout obj)) else none
    | _ => none
  | none => none

/-- RING_WAIT_TIMEOUT (R256). -/
def execRingWaitTimeout (q : SeqId) (s : State) : Out := .next ((ringExpire s q).getD s)

/-- TWAIT ends: enough tokens are present, or its limit has passed (R218). -/
def twaitStep (s : State) (q : SeqId) (atLimit : Bool) : Option State :=
  match sleeping s q with
  | some w =>
    match w.kind with
    | .twait n d need limit since =>
      let l := fifoByNum s.task q n
      if (if atLimit then limitPassed s limit since else decide (need ≤ tokensIn l)) then some (wake s q w 1 [.x d (tcntVal l) none])
      else none
    | _ => none
  | none => none

/-- TWAIT_WAKE (R218). -/
def execTwaitWake (q : SeqId) (s : State) : Out := .next ((twaitStep s q false).getD s)

/-- TWAIT_LIMIT (R218). -/
def execTwaitLimit (q : SeqId) (s : State) : Out := .next ((twaitStep s q true).getD s)

/-- WAITT wakes in the stamp cycle of its target (R217). -/
def waittStep (s : State) (q : SeqId) : Option State :=
  match sleeping s q with
  | some w =>
    match w.kind with
    | .waitt d target => if stampReached s target then some (wake s q w 1 [.x d (taskTime s) none]) else none
    | _ => none
  | none => none

/-- WAITT_WAKE (R217). -/
def execWaittWake (q : SeqId) (s : State) : Out := .next ((waittStep s q).getD s)

/-! ## Deferred arrivals (R99) -/

/-- The deferred arrival `d` made: the object's rows of R98, with refusals held by the sequencer of its BARD, detected now (R101, R229).
An object in cluster space stands where its BARD found it (R50). R99 does not say what becomes of an arrival whose object cannot be reached
when it is made: the model waits for a page that is not present and refuses the arrival for any other fault (DESIGN CHOICE, log 52). -/
def deferredMake (s : State) (d0 : Deferred) : Option State :=
  let d := { d0 with record := { d0.record with snap := d0.record.snap.set 6 s.time } }
  let gone := fun (s : State) => s.withTask { s.task with deferred := s.task.deferred.filter (fun x => x.id != d.id) }
  match checkLater s d.home (objPlace d.obj).1 (objPlace d.obj).2 16 true with
  | (_, .fault c) => if c = causeNotPresent then none else some (refuse (gone s) d.origin.q d.obj d.record)
  | (_, .stall w) => refillFor s w
  | (s1, .key key leaf) =>
    match barDeferred d.c.toNat (barAt s1 key) with
    | .ok b => some (lostWrite (writeKey (gone s1) key 16 b.toBits leaf) d.origin 6 0 none key d.obj)
    | .refused => some (refuse (gone s1) d.origin.q d.obj d.record)
    | .errored b => some ((lostWrite (writeKey (gone s1) key 16 b.toBits leaf) d.origin 6 0 none key d.obj).log 2 d.record [])
    | .discarded => some (gone s1)

/-- A registered arrival whose earlier commands have all performed (R99). -/
def deferredReady (s : State) (d : Deferred) : Bool :=
  engineLive s && !d.waits.any (fun i => (outstanding s d.origin.q).any (fun p => p.1 == i))

/-- The next deferred arrival that can be made. -/
def deferredStep (s : State) : Option State :=
  match s.task.deferred.find? (fun d => deferredReady s d && (deferredMake s d).isSome) with
  | some d => deferredMake s d
  | none => none

/-- DEFERRED_ARRIVAL (R99), for the core's task or a saved one. -/
def execDeferredArrival (s : State) : Out := .next ((onTasks deferredStep s).getD s)

/-! ## Retirement (R22) -/

/-- INSTRUCTION_RETIRE: an instruction of `q` whose bound has come retires (R22). -/
def execInstructionRetire (q : SeqId) (s : State) : Out := .next (s.retireDue q s.core.cycle)

/-- Every sequencer's instructions that are due retire, in the order S, L, C, W (R321). -/
def retireTick (s : State) : State := allSeqs.foldl (fun s q => s.retireDue q s.core.cycle) s

end Sys2Proof.Machine
end

