-- ==== Sys2Proof/Machine/Masks.lean ====
section
/-! DEFINITION. Token tags and mask programs: their terms and clauses, whether a pair is allowed, how a tile is classed, and the
check of a program at its load (R134 to R148). -/

namespace Sys2Proof.Machine

open Sys2Proof

/-! ## Tags and mask words (R134, R142) -/

def tagPos (t : Word64) : Int := ((t.extractLsb 31 0).toNat : Int)
def tagDoc (t : Word64) : Int := ((t.extractLsb 55 32).toNat : Int)
def tagPad (t : Word64) : Bool := t.getLsbD 56

def maskOp (w : Word64) : Nat := bitsOf w.toNat 0 6
def maskEnd (w : Word64) : Bool := w.getLsbD 6
def maskDeny (w : Word64) : Bool := w.getLsbD 7

/-- LO of a word; none stands for minus infinity. -/
def maskLo (w : Word64) : Option Int := if bitsOf w.toNat 8 28 = 0x8000000 then none else some (toSigned 28 (bitsOf w.toNat 8 28))

/-- HI of a word; none stands for plus infinity. -/
def maskHi (w : Word64) : Option Int := if bitsOf w.toNat 36 28 = 0x7FFFFFF then none else some (toSigned 28 (bitsOf w.toNat 36 28))

/-- LO ≤ v. -/
def loLe (lo : Option Int) (v : Int) : Bool := match lo with | some a => decide (a ≤ v) | none => true

/-- v ≤ HI. -/
def leHi (v : Int) (hi : Option Int) : Bool := match hi with | some a => decide (v ≤ a) | none => true

/-- The clauses of a program, each closed by a word with END = 1 (R142). -/
def clausesOf : List Word64 → List (List Word64)
  | [] => []
  | w :: t =>
    if maskEnd w then [w] :: clausesOf t
    else match clausesOf t with
      | [] => [[w]]
      | c :: cs => (w :: c) :: cs

/-- A clause's last word has DENY = 1. -/
def isDeny (c : List Word64) : Bool := match c.getLast? with | some w => maskDeny w | none => false

/-! ## Pairs (R143, R144) -/

/-- The quantity of a term on a pair (R143). -/
def termVal (op : Nat) (q k : Word64) : Int :=
  match op with
  | 1 => tagPos q
  | 2 => tagPos k
  | 3 => tagPos q - tagPos k
  | 4 => tagDoc q
  | 5 => tagDoc k
  | _ => tagDoc q - tagDoc k

/-- A term holds of a pair. -/
def termHolds (w q k : Word64) : Bool := loLe (maskLo w) (termVal (maskOp w) q k) && leHi (termVal (maskOp w) q k) (maskHi w)

/-- A pair is allowed (R144). -/
def allowedPair (prog : MaskSlot) (q k : Word64) : Bool :=
  let cs := clausesOf prog
  !tagPad q && !tagPad k && cs.any (fun c => !isDeny c && c.all (fun w => termHolds w q k)) &&
    !cs.any (fun c => isDeny c && c.all (fun w => termHolds w q k))

/-! ## Tiles (R146, R147) -/

/-- The status of a term, clause or kind of clause over a tile. -/
inductive Status where
  | all | none | some
  deriving DecidableEq, Repr

/-- Least and greatest POS and DOC of a side of a tile. -/
structure Ranges where
  p0 : Int
  p1 : Int
  d0 : Int
  d1 : Int
  deriving DecidableEq, Repr

/-- The range of a term's quantity over a tile (R143). -/
def termRange (op : Nat) (q k : Ranges) : Int × Int :=
  match op with
  | 1 => (q.p0, q.p1)
  | 2 => (k.p0, k.p1)
  | 3 => (q.p0 - k.p1, q.p1 - k.p0)
  | 4 => (q.d0, q.d1)
  | 5 => (k.d0, k.d1)
  | _ => (q.d0 - k.d1, q.d1 - k.d0)

/-- Status of a term (R147, step 1). -/
def termStatus (w : Word64) (q k : Ranges) : Status :=
  let (lo, hi) := termRange (maskOp w) q k
  if loLe (maskLo w) lo && leHi hi (maskHi w) then .all
  else if !loLe (maskLo w) hi || !leHi lo (maskHi w) then .none
  else .some

/-- Status of a clause (R147, step 2). -/
def clauseStatus (c : List Word64) (q k : Ranges) : Status :=
  let l := c.map (fun w => termStatus w q k)
  if l.contains .none then .none else if l.all (fun x => x == .all) then .all else .some

/-- Status of the clauses of one kind (R147, step 3). -/
def kindStatus (cs : List (List Word64)) (q k : Ranges) : Status :=
  let l := cs.map (fun c => clauseStatus c q k)
  if l.contains .all then .all else if l.all (fun x => x == .none) then .none else .some

/-- The classes of a tile. -/
inductive TileClass where
  | empty | partly | full
  deriving DecidableEq, Repr

/-- The ranges of the tags that are not padding; none when all are (R146). -/
def rangesOf : List Word64 → Option Ranges
  | [] => none
  | t :: l =>
    if tagPad t then rangesOf l
    else
      let p := tagPos t
      let d := tagDoc t
      match rangesOf l with
      | none => some { p0 := p, p1 := p, d0 := d, d1 := d }
      | some r => some { p0 := min p r.p0, p1 := max p r.p1, d0 := min d r.d0, d1 := max d r.d1 }

/-- A tag summary (R138). -/
structure Summary where
  nvalid : Nat
  r : Ranges
  deriving DecidableEq, Repr

/-- The summary that 64 bytes hold; none when invalid (R138). -/
def summaryOf (n : Nat) : Option Summary :=
  let nv := bitsOf n 128 8
  let r : Ranges := { p0 := bitsOf n 0 32, p1 := bitsOf n 32 32, d0 := bitsOf n 64 24, d1 := bitsOf n 96 24 }
  if bitsOf n 88 8 ≠ 0 ∨ bitsOf n 120 8 ≠ 0 ∨ bitsOf n 136 376 ≠ 0 ∨ 128 < nv ∨ (0 < nv ∧ (r.p1 < r.p0 ∨ r.d1 < r.d0)) then none
  else some { nvalid := nv, r := r }

/-- The class of a tile whose list entry is no hole (R147, step 4). `prog` is none for a request without a program, which allows
every pair that padding does not exclude (R159). -/
def classTile (prog : Option MaskSlot) (qtags : List Word64) (k : Summary) : TileClass :=
  match rangesOf qtags with
  | none => .empty
  | some q =>
    let cs := match prog with | some p => clausesOf p | none => []
    let a := match prog with | some _ => kindStatus (cs.filter (fun c => !isDeny c)) q k.r | none => .all
    let d := kindStatus (cs.filter isDeny) q k.r
    if k.nvalid = 0 ∨ a = .none ∨ d = .all then .empty
    else if a = .all ∧ d = .none ∧ k.nvalid = 128 ∧ !qtags.any tagPad then .full
    else .partly

/-! ## The check at load (R145) -/

/-- A reserved OP, or LO above HI. -/
def termBad (w : Word64) : Bool :=
  maskOp w == 0 || decide (6 < maskOp w) ||
    (match maskLo w, maskHi w with | some a, some b => decide (b < a) | _, _ => false)

/-- The fault of a program, in the order of R145; none when it is legal. -/
def programFault (p : List Word64) : Option (BitVec 8) :=
  let cs := clausesOf p
  if 16 < p.length ∨ 8 < cs.length ∨ cs.any (fun c => decide (4 < c.length)) then some causeMaskLimit
  else if p.any termBad || p.any (fun w => maskDeny w && !maskEnd w) ||
      (match p.getLast? with | some w => !maskEnd w | none => true) then some causeMaskIllegal
  else none

/-- The 64-bit elements of an entry (R108). -/
def tagsOf (e : Entry) : List Word64 := (pieces 64 e.toNat 32).map (BitVec.ofNat 64)

end Sys2Proof.Machine
end

