-- ==== Sys2Proof/Machine/MatrixMath.lean ====
section
/-! DEFINITION. Slabs, group sums and accumulators of the matrix engine (R123 to R126, R284 to R288, R298, R299). -/

namespace Sys2Proof.Machine

open Sys2Proof

/-! ## Shapes (R284, R285) -/

/-- The group size: 64 for MMB, 32 for the other kinds. -/
def groupK (t : Template) : Nat := if t.kind = 0x82 then 64 else 32

/-- The columns of the accumulator: 16 residues for MMOD, 32 for the other kinds. -/
def colsN (t : Template) : Nat := if t.kind = 0x83 then 16 else 32

/-- The number of groups G. -/
def groupsOf (t : Template) : Nat := t.k.toNat / groupK t

/-- The width of an element of a source: 4 under SCALE I4 (R285). -/
def elemWidth (t : Template) (ty : BitVec 4) : Nat := if t.scale = 2 then 4 else typeWidth ty

/-- The entries of a slab of `rows` rows. -/
def slabEntries (t : Template) (ty : BitVec 4) (rows : Nat) : Nat := rows * groupK t * elemWidth t ty / 2048

/-- A source that is followed by a scale entry (R285, R308). -/
def hasScale (t : Template) (ty : BitVec 4) : Bool := t.scale == 1 && decide (elemWidth t ty ≤ 8)

/-- The entries of one group of source 1 and of source 2, scale entry included. -/
def need1 (t : Template) : Nat := slabEntries t t.stype1 64 + (hasScale t t.stype1).toNat
def need2 (t : Template) : Nat := slabEntries t t.stype2 (colsN t) + (hasScale t t.stype2).toNat

/-- The rows of a slab, each its k element codes. -/
def slabRows (l : List Entry) (rows k w : Nat) : List (List Nat) :=
  (pieces (w * k) (packBits 2048 (l.map BitVec.toNat)) rows).map (fun r => pieces w r k)

/-- The E8M0 scales of a slab's rows: the bytes of the entry after the slab's `n`. -/
def slabScales (l : List Entry) (n rows : Nat) : List Nat :=
  match l[n]? with
  | some e => pieces 8 e.toNat rows
  | none => []

/-- The values of the rows of a source under the record's scale mode. -/
def slabNums (t : Template) (ty : BitVec 4) (l : List Entry) (rows : Nat) : List (List Num) :=
  let rs := slabRows l rows (groupK t) (elemWidth t ty)
  if hasScale t ty then
    List.zipWith (fun r s => r.map (fun v => mxValue ty s v)) rs (slabScales l (slabEntries t ty rows) rows)
  else rs.map (fun r => r.map (fun v => decodeNum (fmtOf ty) v))

/-- An integer element of a source. -/
def slabInt (t : Template) (ty : BitVec 4) (v : Nat) : Int :=
  if t.kind = 0x82 then (if v % 2 = 1 then 1 else -1)
  else if isSignedT ty then toSigned (elemWidth t ty) v else (v % 2 ^ elemWidth t ty : Nat)

/-! ## Accumulators -/

/-- The 2,048 elements of an accumulator, row by row. -/
def accElems (a : BitVec 65536) : List Nat := pieces 32 a.toNat 2048

/-- The accumulator of 2,048 elements. -/
def accOf (l : List Nat) : BitVec 65536 := BitVec.ofNat 65536 (packBits 32 l)

/-- One group applied to the elements of an accumulator, with the flags raised: `f` takes row, column and element. -/
def eachCell (rows cols : List α) (acc : List Nat) (f : α → α → Nat → Res) : List Res :=
  List.zipWith (fun p a => f p.1 p.2 a) (rows.flatMap (fun r => cols.map (fun c => (r, c)))) acc

/-- The flags of a list of results. -/
def flagsOf (l : List Res) : BitVec 7 := l.foldl (fun f r => f ||| r.2) 0

/-- A floating-point cell after a group (R123 to R125): one rounding. -/
def floatCell (t : Template) (a b : List Num) (v : Nat) : Res :=
  let ps := products a b
  let s := if t.stype1 = 9 ∨ t.stype1 = 10 then truncSum ps else sumAll 0 ps
  let r := addNum 0 (ofF32 v) s.1
  let o := toF32 0 r.1
  (o.1, s.2 ||| r.2 ||| o.2)

/-- An integer or binary cell after a group (R123). -/
def intCell (t : Template) (a b : List Int) (v : Nat) : Res :=
  intTo 32 true (t.sat == 1) (toSigned 32 v + (List.zipWith (· * ·) a b).foldl (· + ·) 0)

/-- A residue cell after a group (R130, R288). -/
def modCell (q : Nat) (mont : Bool) (a b : List Nat) (v : Nat) : Res :=
  let s := (List.zipWith (fun x y => mulMod mont q (x % q) (y % q)) a b).foldl (· + ·) 0
  ((v + s) % q, if a.any (fun x => decide (q ≤ x)) || b.any (fun x => decide (q ≤ x)) then flagMR else 0)

/-- An accumulator after one group of an accumulating kind, and the group's flags (R288). -/
def groupStep (t : Template) (acc : BitVec 65536) (buf1 buf2 : List Entry) : BitVec 65536 × BitVec 7 :=
  if t.kind = 0x83 then
    let q := t.modulus.toNat
    let rs := eachCell (slabRows buf1 64 32 64) (slabRows buf2 16 32 64) (pieces 64 acc.toNat 1024) (modCell q (t.rnd == 1))
    (BitVec.ofNat 65536 (packBits 64 (rs.map Prod.fst)), flagsOf rs)
  else if t.dtype = 8 then
    let rs := eachCell (slabNums t t.stype1 buf1 64) (slabNums t t.stype2 buf2 32) (accElems acc) (floatCell t)
    (accOf (rs.map Prod.fst), flagsOf rs)
  else
    let ints := fun (ty : BitVec 4) (l : List Entry) (rows : Nat) =>
      (slabRows l rows (groupK t) (elemWidth t ty)).map (fun r => r.map (slabInt t ty))
    let rs := eachCell (ints t.stype1 buf1 64) (ints t.stype2 buf2 32) (accElems acc) (intCell t)
    (accOf (rs.map Prod.fst), flagsOf rs)

/-- The start value of an accumulation and its flags (R287): MMOD reduces residues. -/
def startValue (t : Template) (dst src : BitVec 65536) : BitVec 65536 × BitVec 7 :=
  let a := match t.accmode.toNat with | 0 => 0 | 1 => dst | _ => src
  if t.kind = 0x83 then
    let rs := (pieces 64 a.toNat 1024).map (residue t.modulus.toNat)
    (BitVec.ofNat 65536 (packBits 64 (rs.map Prod.fst)), flagsOf rs)
  else (a, 0)

/-! ## Moving and combining (R298, R299) -/

/-- Entries of a list of element codes of width `w`, `n` of them. -/
def entriesOf (w n : Nat) (l : List Nat) : List Entry := (pieces 2048 (packBits w l) n).map (BitVec.ofNat 2048)

/-- One element of MST or MLD converted: they copy .n32 alone, so a NaN of equal floating-point types becomes the canonical one (R110, R119,
R299). -/
def convertBand (d s : BitVec 4) (mode : Nat) (sat : Bool) (draw v : Nat) : Res :=
  if d = s ∧ isFloat s then numToFmt (fmtOf d) mode sat draw (decodeNum (fmtOf s) v) else convert d s 1 mode sat draw v

/-- Band b of an accumulator as MST converts it, with its flags. A draw goes by the element's index in its entry (R117). -/
def bandOut (t : Template) (acc : BitVec 65536) (seed : Word64) : List Entry × BitVec 7 :=
  let w := typeWidth t.dtype
  let xs := pieces 32 (acc.toNat / 2 ^ (8192 * t.k.toNat)) 256
  let rs := xs.zipIdx.map (fun p => convertBand t.dtype t.stype1 t.rnd.toNat (t.sat == 1) (srDraw seed (p.2 % (2048 / w))) p.1)
  (entriesOf w (bandEntries t.dtype) (rs.map Prod.fst), flagsOf rs)

/-- An accumulator with band b replaced by converted source entries (MLD), with the flags. -/
def bandIn (t : Template) (acc : BitVec 65536) (es : List Entry) : BitVec 65536 × BitVec 7 :=
  let w := typeWidth t.stype1
  let rs := (pieces w (packBits 2048 (es.map BitVec.toNat)) 256).map (convertBand t.dtype t.stype1 0 false 0)
  let lo := 8192 * t.k.toNat
  let keep := ~~~((BitVec.ofNat 65536 (2 ^ 8192 - 1)) <<< lo)
  ((acc &&& keep) ||| (BitVec.ofNat 65536 (packBits 32 (rs.map Prod.fst)) <<< lo), flagsOf rs)

/-- MADDA on two accumulators (R298). -/
def addAccs (t : Template) (a b : BitVec 65536) : BitVec 65536 × BitVec 7 :=
  let cell := fun (x y : Nat) =>
    if t.dtype = 8 then
      let r := addNum 0 (ofF32 x) (ofF32 y)
      let o := toF32 0 r.1
      ((o.1, r.2 ||| o.2) : Res)
    else intTo 32 true (t.sat == 1) (toSigned 32 x + toSigned 32 y)
  let rs := List.zipWith cell (accElems a) (accElems b)
  (accOf (rs.map Prod.fst), flagsOf rs)

/-- MTRN: each half of 32 rows transposed (R298). -/
def transposeAcc (a : BitVec 65536) : BitVec 65536 :=
  accOf ((upTo 2048).map (fun e => a.toNat / 2 ^ (32 * (e / 1024 * 1024 + e % 32 * 32 + e / 32 % 32)) % 2 ^ 32))

/-! ## Scout scores (R150, R309) -/

/-- The E2M1 values of a query row of one group, quantised under R122 with RNE. -/
def scoutQuery (vs : List Num) : List Num :=
  let (scale, codes, _) := mxBlock 13 0 (fun _ => 0) vs
  codes.map (fun v => mxValue 13 scale v)

/-- The scores of a SCOUT, row by row, from the slabs of every group (R150). -/
def scoutScores (t : Template) (buf1 buf2 : List Entry) : List Nat :=
  let gs := upTo (groupsOf t)
  let rows := gs.map (fun g => (slabNums t t.stype1 ((buf1.drop (g * need1 t)).take (need1 t)) 64).map scoutQuery)
  let cols := gs.map (fun g => slabNums t t.stype2 ((buf2.drop (g * need2 t)).take (need2 t)) 32)
  (upTo 64).flatMap (fun m => (upTo 32).map (fun n =>
    (toF32 0 (sumAll 0 ((List.zipWith (fun r c => products (r.getD m []) (c.getD n [])) rows cols).flatten)).1).1))

/-- The larger of two binary32 codes; NaN in either gives the canonical NaN. -/
def maxF32 (a b : Nat) : Nat :=
  if (ofF32 a).isNan || (ofF32 b).isNan then canonNan fmtF32 else if lessNum (ofF32 a) (ofF32 b) then b else a

/-- The tile score over the pairs that count (R151, R309). `prog` is the program of a PARTIAL tile under PEN. -/
def scoutReduce (scores : List Nat) (qtags ktags : List Word64) (prog : Option MaskSlot) : Nat :=
  let pairs := qtags.flatMap (fun q => ktags.map (fun k => (q, k)))
  let counts := fun (p : Word64 × Word64) =>
    !tagPad p.1 && !tagPad p.2 && (match prog with | some g => allowedPair g p.1 p.2 | none => true)
  (List.zipWith (fun p v => if counts p then some v else none) pairs scores).foldl
    (fun acc v => match v with | some x => maxF32 acc x | none => acc) (infCode fmtF32 true)

end Sys2Proof.Machine
end

