-- ==== Sys2Proof/Machine/Matrix.lean ====
section
/-! DEFINITION. The matrix engine: legality of the matrix kinds and of SCOUT and MSCR, their issue with stamps and keep-masks,
and the engine's progress group by group (R283, R286 to R299, R308 to R310). -/

namespace Sys2Proof.Machine

open Sys2Proof

/-! ## Legality (R286, R289, R292 to R294, R298, R299, R308, R310) -/

def isLoftSrc (c : BitVec 8) : Bool := c == 0x38
def isRemote (c : BitVec 8) : Bool := c == 0x39

/-- The record has a remote source. -/
def hasRemote (t : Template) : Bool := isRemote t.src1 || isRemote t.src2

/-- The record names a keep-mask. -/
def hasKm (t : Template) : Bool := t.kmsel.getLsbD 3

/-- BASE and STRIDES: bits for sources that the operation does not have are zero; a keep-mask takes STRIDES[8:0] and excludes
loft and remote sources (R289, R293). -/
def addrOk (t : Template) : Bool :=
  (isLoftSrc t.src2 || t.base.extractLsb 19 0 == 0) && (hasRemote t || t.base.extractLsb 31 20 == 0) &&
    (if hasKm t then !isLoftSrc t.src2 && !hasRemote t && t.strides.extractLsb 31 9 == 0
     else (isLoftSrc t.src2 || t.strides.extractLsb 15 0 == 0) && (hasRemote t || t.strides.extractLsb 31 16 == 0))

/-- STAMPMODE and STAMPREG (R294), and a multicast group only on a stamped remote read (R292). -/
def stampOk (t : Template) : Bool :=
  ((t.stampmode == 0 && t.stampreg == 0) || (t.stampmode == 1 && t.stampreg != 0)) &&
    (t.mcgroup == 0 || (hasRemote t && t.stampmode == 1))

/-- K of an accumulating kind (R123, R284). -/
def lengthOk (t : Template) : Bool := t.k.toNat % groupK t == 0 && decide (groupK t ≤ t.k.toNat) && decide (t.k.toNat ≤ 8192)

/-- What every accumulating kind checks (R286, R287). -/
def accumOk (t : Template) : Bool :=
  selectsOk t && reservedOk t && isAcc t.dst && (isPop t.src1 || isRemote t.src1) && (isPop t.src2 || isLoftSrc t.src2 || isRemote t.src2) &&
    !(isRemote t.src1 && isRemote t.src2) && (if t.accmode = 2 then isAcc t.src3 else t.src3 == 0xFF) && t.accmode != 3 &&
    t.lmsel == 0 && t.stype3 == 0 && addrOk t && stampOk t && lengthOk t

/-- MMA's types (R286). -/
def mmaLegal (t : Template) : Bool :=
  let f8 := isF8
  let small := fun (s : BitVec 4) => isF8 s || s == 13
  let i8 := fun (s : BitVec 4) => s == 0 || s == 4
  accumOk t && t.rnd == 0 && t.modulus == 0 &&
    ((t.dtype == 8 && t.scale == 0 && t.sat == 0 &&
        ((f8 t.stype1 && f8 t.stype2) || (small t.stype1 && small t.stype2) || (t.stype1 == 9 && t.stype2 == 9) ||
          (t.stype1 == 10 && t.stype2 == 10))) ||
      (t.dtype == 2 && (t.scale == 0 || t.scale == 2) && i8 t.stype1 && i8 t.stype2))

/-- MMAX's types (R286). -/
def mmaxLegal (t : Template) : Bool :=
  let mx := fun (s : BitVec 4) => s == 11 || s == 13
  accumOk t && t.rnd == 0 && t.sat == 0 && t.modulus == 0 && t.dtype == 8 && t.scale == 1 &&
    ((t.stype1 == 0 && t.stype2 == 0) || (mx t.stype1 && mx t.stype2))

/-- MMB's types (R286). -/
def mmbLegal (t : Template) : Bool :=
  accumOk t && t.rnd == 0 && t.modulus == 0 && t.dtype == 2 && t.scale == 0 && t.stype1 == 14 && t.stype2 == 14

/-- MMOD's types, modulus and convention; no keep-mask (R129, R130, R286, R293). -/
def mmodLegal (t : Template) : Bool :=
  accumOk t && decide (t.rnd.toNat ≤ 1) && t.sat == 0 && t.dtype == 15 && t.scale == 0 && t.stype1 == 15 && t.stype2 == 15 &&
    modulusOk t.modulus.toNat && !hasKm t

/-- The fields that no moving or combining kind uses; a keep-mask takes STRIDES[8:0] (R293, R298). -/
def moverOk (t : Template) : Bool :=
  selectsOk t && reservedOk t && t.lmsel == 0 && t.stampmode == 0 && t.stampreg == 0 && t.mcgroup == 0 && t.accmode == 0 && t.scale == 0 &&
    t.base == 0 && t.modulus == 0 && t.stype3 == 0 && t.src3 == 0xFF && (if hasKm t then t.strides.extractLsb 31 9 == 0 else t.strides == 0)

/-- MZERO (R298). -/
def mzeroLegal (t : Template) : Bool :=
  moverOk t && isAcc t.dst && (t.dtype == 8 || t.dtype == 2 || t.dtype == 6) && noSrc1 t && noSrc2 t && t.rnd == 0 && t.sat == 0 && t.k == 0

/-- A band number, and a range of v registers that does not pass v15 (R298, R299). -/
def bandOk (t : Template) : Bool := decide (t.k.toNat < 8)
def rangeOk (c : BitVec 8) (n : Nat) : Bool := decide (c.toNat + n ≤ 16)

/-- MST's conversions (R299). -/
def mstTypes (t : Template) : Bool :=
  (t.stype1 == 8 && isFloat t.dtype && rounds t) || (t.stype1 == 2 && isInt t.dtype && t.rnd == 0) ||
    (t.stype1 == 6 && t.dtype == 6 && t.rnd == 0 && t.sat == 0)

/-- MST (R298, R299). -/
def mstLegal (t : Template) : Bool :=
  moverOk t && isAcc t.src1 && t.stype2 == 0 && bandOk t && mstTypes t &&
    ((isV t.dst && rangeOk t.dst (bandEntries t.dtype) && t.src2 == 0xFF) || (isO t.dst && t.src2 == 0xFF) || (t.dst == 0x4C && isPop t.src2))

/-- MLD's conversions (R299). -/
def mldTypes (t : Template) : Bool :=
  (t.dtype == 8 && isFloat t.stype1) || (t.dtype == 2 && [0, 1, 2, 4, 5].contains t.stype1.toNat) || (t.dtype == 6 && t.stype1 == 6)

/-- MLD (R298, R299). -/
def mldLegal (t : Template) : Bool :=
  moverOk t && isAcc t.dst && noSrc2 t && bandOk t && mldTypes t && t.rnd == 0 && t.sat == 0 &&
    ((isV t.src1 && rangeOk t.src1 (bandEntries t.stype1)) || isPop t.src1)

/-- MADDA (R298). -/
def maddaLegal (t : Template) : Bool :=
  moverOk t && isAcc t.dst && isAcc t.src1 && isAcc t.src2 && t.stype1 == t.dtype && t.stype2 == t.dtype && t.rnd == 0 && t.k == 0 &&
    ((t.dtype == 8 && t.sat == 0) || t.dtype == 2)

/-- MTRN (R298). -/
def mtrnLegal (t : Template) : Bool :=
  moverOk t && isAcc t.dst && isAcc t.src1 && noSrc2 t && t.dtype == 6 && t.stype1 == 6 && t.rnd == 0 && t.sat == 0 && t.k == 0

/-- SCOUT (R308). -/
def scoutLegal (t : Template) : Bool :=
  selectsOk t && reservedOk t && t.dtype == 8 && isF t.stype1 && isPop t.src1 && t.stype2 == 13 && isPop t.src2 && t.stype3 == 7 &&
    isPop t.src3 && t.dst == 0xFF && t.scale == 1 && (t.k == 64 || t.k == 128 || t.k == 256) && (t.accmode == 0 || t.accmode == 1) &&
    t.base.extractLsb 31 9 == 0 && t.base.extractLsb 3 0 != 15 && t.strides.extractLsb 31 11 == 0 && t.rnd == 0 && t.sat == 0 &&
    t.lmsel == 0 && t.stampmode == 0 && t.stampreg == 0 && t.mcgroup == 0 && t.modulus == 0

/-- MSCR in either direction (R310). -/
def mscrLegal (t : Template) : Bool :=
  vectorOk t && noScale t && noMod t && bandOk t && t.rnd == 0 && t.sat == 0 && noSrc2 t && noSrc3 t &&
    ((t.dtype == 8 && t.stype1 == 0 && isVecDst t.dst && t.src1 == 0xFF) ||
      (t.dtype == 0 && t.stype1 == 8 && t.dst == 0xFF && (isV t.src1 || isT t.src1 || isPop t.src1 || isPeek t.src1 || t.src1 == 0x3A)))

/-! ## Loft and remote operands (R67, R289, R290) -/

/-- Bytes of one group of source 1 or 2. -/
def groupBytes (t : Template) (second : Bool) : Nat := 256 * (if second then need2 t else need1 t)

/-- The code of source 1 or 2. -/
def srcCode (t : Template) (second : Bool) : BitVec 8 := if second then t.src2 else t.src1

/-- Where group `g` starts from the operand's base: in the bank of the loft, or from the remote cluster address. -/
def groupOffset (t : Template) (second : Bool) (g : Nat) : Nat :=
  let step := if isLoftSrc (srcCode t second) then (t.strides.extractLsb 15 0).toNat * 1024 else (t.strides.extractLsb 31 16).toNat * 256
  g * (if step = 0 then groupBytes t second else step)

/-- The bank of the core's own column (R67). -/
def ownBank (s : State) : Nat := (columnOf s.core.coreId).toNat

/-- Space and address of group `g` of a loft or remote source. -/
def groupAddr (s : State) (t : Template) (second : Bool) (g : Nat) : BitVec 2 × Nat :=
  if isLoftSrc (srcCode t second) then (3, ownBank s * 2 ^ 30 + (t.base.extractLsb 19 0).toNat * 1024 + groupOffset t second g)
  else (1, (t.base.extractLsb 31 20).toNat * 512 + groupOffset t second g)

/-- The first cause with which the bytes of a group cannot be read (R290). -/
def groupCheck (s : State) (t : Template) (second : Bool) (g : Nat) : Option (BitVec 8 × Word64) :=
  let (sp, a) := groupAddr s t second g
  let n := groupBytes t second
  let past := if sp = 3 then decide (2 ^ 30 < (t.base.extractLsb 19 0).toNat * 1024 + groupOffset t second g + n)
    else decide (2 ^ 16 < (t.base.extractLsb 31 20).toNat * 512 % 2 ^ 16 + groupOffset t second g + n)
  if past then some (if sp = 3 then causePermission else causeScratchRange, faddr sp (BitVec.ofNat 64 a))
  else
    match (place s sp a false).2, (place s sp (a + n - 1) false).2 with
    | .fault c, _ => some (c, faddr sp (BitVec.ofNat 64 a))
    | _, .fault c => some (c, faddr sp (BitVec.ofNat 64 (a + n - 1)))
    | _, _ => none

/-- The checks at issue of every group of a loft or remote source (R290). -/
def operandFault (s : State) (t : Template) : Option (BitVec 8 × Word64) :=
  let side := fun (second : Bool) =>
    if isLoftSrc (srcCode t second) || isRemote (srcCode t second) then
      ((upTo (groupsOf t)).filterMap (groupCheck s t second)).head?
    else none
  match side false with
  | some f => some f
  | none => side true

/-- The scratchpad page at a cluster address is pinned at its owning core (R56, R295). The instructions of other cores are outside the model,
so whether a peer has pinned a page since its dispatch is a free value (DESIGN CHOICE, log 54). -/
def pinnedAt (s : State) (a : Nat) : Bool :=
  let page : BitVec 7 := BitVec.ofNat 7 (a % 2 ^ 16 / 2 ^ 14)
  match clusterTarget s (a / 2 ^ 16) with
  | some (.inl ()) => s.task.pins.contains page
  | some (.inr p) => p.pins.contains page || (Config.freeWord s.freeCtr (2000 + page.toNat)).getLsbD 0
  | none => false

/-- Every page of a remote source's range is pinned (R295). -/
def remotePinned (s : State) (t : Template) : Bool :=
  let side := fun (second : Bool) =>
    !isRemote (srcCode t second) || (upTo (groupsOf t)).all (fun g =>
      let a := (groupAddr s t second g).2
      pinnedAt s a && pinnedAt s (a + groupBytes t second - 1))
  side false && side true

/-- The entries of queue `n` that group 0 takes. -/
def group0Need (t : Template) (n : BitVec 3) : Nat :=
  (if isPop t.src1 && t.src1.truncate 3 == n then need1 t else 0) + (if isPop t.src2 && t.src2.truncate 3 == n then need2 t else 0)

/-- The entries of queue `n` that group `g` takes, before the first group of a SCOUT its tag entry with them (R309). -/
def groupNeed (t : Template) (g : Nat) (n : BitVec 3) : Nat :=
  group0Need t n + (if t.kind == 0xC0 && g == 0 && t.src3.truncate 3 == n then 1 else 0)

/-- Each queue source holds every entry of group `g` (R295, R297). -/
def queuesReady (s : State) (t : Template) (g : Nat) : Bool :=
  [0#3, 1#3, 2#3, 3#3, 4#3, 5#3, 6#3, 7#3].all (fun n =>
    decide (groupNeed t g n ≤ ((s.task.q.get n).takeWhile QEntry.filled).length))

/-- Each queue source holds every entry of group 0 (R295). -/
def group0Ready (s : State) (t : Template) : Bool := queuesReady s t 0

/-- What a stamped operation needs at its stamp cycle (R295). -/
def stampReady (s : State) (t : Template) : Bool :=
  s.task.mats.isEmpty && group0Ready s t && !(isLoftSrc t.src2 && bankHeld s (ownBank s)) && remotePinned s t

/-! ## Issue -/

/-- The bit of the keep-mask for the operation's tile (R155, R293). -/
def kmBit (s : State) (t : Template) : Bool := (s.readKm (t.kmsel.truncate 2) 12).getLsbD (t.strides.extractLsb 8 0).toNat

/-- The most operations that the engine holds (R416). -/
def engineDepth : Nat := 16

/-- An operation as it enters the engine's queue. -/
def newMat (s : State) (q : SeqId) (mk : Instr) (i : TplIssue) : MatCmd where
  id := s.nextId
  origin := s.origin q mk
  issue := i
  done := 0
  started := false
  stamped := i.tpl.stampmode == 1
  eff := match s.task.hold with | some h => h.2 | none => s.time
  eslot := none
  tag := []
  buf1 := []
  buf2 := []
  flags := 0
  regs := []
  partialMask := 0
  prog := []
  entry := 0
  entryDue := 0
  entryAfter := []
  places := []
  seed := s.task.seed
  stopped := false

/-- An operation enters the engine: it retires at its bound or, where the engine cannot meet it, later (R22, R283). -/
def matEnter (s : State) (m : MatCmd) : Effect :=
  .done ((s.withTask { s.task with mats := s.task.mats ++ [m], hold := none }).fresh) (classBound m.issue.tpl) [] (.queued m.id)

/-- A skipped operation, or the operation itself: the keep-mask is read at issue (R155, R293). -/
def whenKept (s : State) (t : Template) (k : Effect) : Effect :=
  if hasKm t && !kmBit s t then .done (s.withTask { s.task with hold := none }) (classBound t) [.acct 7 1] .next else k

/-- The engine has room for one more operation (R416). -/
def whenRoom (s : State) (k : Effect) : Effect := if engineDepth ≤ s.task.mats.length then .stall .bound else k

/-- The stamp of an operation (R38, R42, R294): held before its stamp cycle or while a pre-emption holds it, issued in it, missed
after it. -/
def whenStamp (s : State) (q : SeqId) (i : TplIssue) (k : State → Effect) : Effect :=
  if i.tpl.stampmode = 0 then k s
  else
    let at_ := fun (e : Word64) =>
      let s1 := s.withTask { s.task with hold := some (i, e) }
      let held := match s.core.run with | .halting tp => decide (tp.toNat ≤ e.toNat) | _ => false
      if held || decide (s.time.toNat < e.toNat) then .holdAt s1 .stamp
      else if s.time.toNat = e.toNat then k s1
      else .fail causeScheduleMiss 0
    match s.task.hold with
    | some h => at_ h.2
    | none => withX s q i.tpl.stampreg 13 (fun v => at_ (v + s.task.tofs))

/-- The issue of an accumulating kind (R286 to R295). A stamped one with a remote source that finds C's E FIFO full in its stamp cycle stalls there
(R93), and so misses it and faults in the next cycle: R38 and R295 do not count the E slot among its operands (DESIGN CHOICE, log 30). -/
def accumEffect (mk : Instr) (i : TplIssue) (s : State) (q : SeqId) : Effect :=
  let t := i.tpl
  whenStamp s q i (fun s1 => whenKept s1 t (
    match operandFault s1 t with
    | some (c, a) => .fail c a
    | none =>
      if t.stampmode = 1 && !stampReady s1 t then .fail causeScheduleMiss 0
      else if hasRemote t && fenced s1 q 3 then .stall .engine
      else if hasRemote t && decide (eDepth ≤ (s1.seq q).e.length) then .stall .eFifo
      else whenRoom s1 (
        if hasRemote t then
          let (s2, slot) := reserveE (s1.ordered q 3) q
          matEnter s2 { newMat s2 q mk i with eslot := some slot }
        else matEnter s1 (newMat s1 q mk i))))

/-- MMA (R286, R288). -/
def execMma (i : TplIssue) (s : State) : Out := issueTpl (.mma i) (mmaLegal i.tpl) (accumEffect (.mma i) i) s

/-- MMAX (R286, R288). -/
def execMmax (i : TplIssue) (s : State) : Out := issueTpl (.mmax i) (mmaxLegal i.tpl) (accumEffect (.mmax i) i) s

/-- MMB (R286, R288). -/
def execMmb (i : TplIssue) (s : State) : Out := issueTpl (.mmb i) (mmbLegal i.tpl) (accumEffect (.mmb i) i) s

/-- MMOD (R286, R288). -/
def execMmod (i : TplIssue) (s : State) : Out := issueTpl (.mmod i) (mmodLegal i.tpl) (accumEffect (.mmod i) i) s

/-- The issue of a kind that only works on accumulators (R298). -/
def moverEffect (mk : Instr) (i : TplIssue) (s : State) (q : SeqId) : Effect :=
  whenKept s i.tpl (whenRoom s (matEnter s (newMat s q mk i)))

/-- MZERO (R298). -/
def execMzero (i : TplIssue) (s : State) : Out := issueTpl (.mzero i) (mzeroLegal i.tpl) (moverEffect (.mzero i) i) s

/-- MADDA (R298). -/
def execMadda (i : TplIssue) (s : State) : Out := issueTpl (.madda i) (maddaLegal i.tpl) (moverEffect (.madda i) i) s

/-- MTRN (R298). -/
def execMtrn (i : TplIssue) (s : State) : Out := issueTpl (.mtrn i) (mtrnLegal i.tpl) (moverEffect (.mtrn i) i) s

/-- `k` places of an output queue reserved. -/
def reserveOs (n : BitVec 2) : Nat → State → State × List Nat
  | 0, s => (s, [])
  | k + 1, s =>
    let (s1, id) := reserveO s n
    let (s2, ids) := reserveOs n k s1
    (s2, id :: ids)

/-- The issue of MST: the generator steps, of a skipped operation too (R117, R155); o and queue places are reserved, all of them or the issue
stalls (R299). -/
def mstEffect (i : TplIssue) (s : State) (q : SeqId) : Effect :=
  let t := i.tpl
  let n := bandEntries t.dtype
  let s1 := s.withTask { s.task with seed := if t.rnd = 5 then srStep s.task.seed else s.task.seed }
  whenKept s1 t (whenRoom s (
    if isO t.dst then
      if oRoom s (t.dst.truncate 2) < n then .stall (.queueFull (8 + (t.dst.truncate 2 : BitVec 2).zeroExtend 4) n)
      else
        let (s2, ids) := reserveOs (t.dst.truncate 2) n s1
        matEnter s2 { newMat s2 q (.mst i) i with places := ids }
    else if t.dst = 0x4C then
      let k : BitVec 3 := t.src2.truncate 3
      if sldnPending s k ∨ qRoom s k < n then .stall (.queueFull (k.zeroExtend 4) n)
      else
        let s2 := { s1 with nextId := s1.nextId + n }
        matEnter s2 { newMat s2 q (.mst i) i with places := (upTo n).map (fun j => s1.nextId + j) }
    else matEnter s1 (newMat s1 q (.mst i) i)))

/-- MST (R298, R299). -/
def execMst (i : TplIssue) (s : State) : Out := issueTpl (.mst i) (mstLegal i.tpl) (mstEffect i) s

/-- The codes of consecutive v registers. -/
def vRange (c : BitVec 8) (n : Nat) : List (BitVec 8) := (upTo n).map (fun j => c + BitVec.ofNat 8 j)

/-- Poison in any lane of some v registers (R226). -/
def whenClean (s : State) (codes : List (BitVec 8)) (k : Effect) : Effect :=
  match ((upTo codes.length).filterMap (fun j => sourcePoison s codes j allLanes)).head? with
  | some p => .fault { cause := p.cause, addr := p.addr, body := some (p.word.zeroExtend 256), origin := none, progress := 0 }
  | none => k

/-- The issue of MLD: v sources are read at issue, queue entries are popped during the run (R283, R299). -/
def mldEffect (i : TplIssue) (s : State) (q : SeqId) : Effect :=
  let t := i.tpl
  let codes := if isV t.src1 then vRange t.src1 (bandEntries t.stype1) else []
  whenKept s t (whenClean s codes (whenRoom s (
    matEnter s { newMat s q (.mld i) i with regs := codes.zipIdx.map (fun p => s.readV (p.1.truncate 4) (20 + p.2)) })))

/-- MLD (R298, R299). -/
def execMld (i : TplIssue) (s : State) : Out := issueTpl (.mld i) (mldLegal i.tpl) (mldEffect i) s

/-- Fields of BASE in a SCOUT (R308). -/
def scoutVq (t : Template) : BitVec 4 := t.base.extractLsb 3 0
def scoutSlot (t : Template) : BitVec 2 := t.base.extractLsb 5 4
def scoutPkm (t : Template) : BitVec 2 := t.base.extractLsb 7 6
def scoutPen (t : Template) : Bool := t.base.getLsbD 8
def scoutTile (t : Template) : BitVec 9 := t.strides.extractLsb 8 0

/-- The engine operations issued before an instruction in flight. -/
def opsBefore (l : List Pending) (p : Pending) : List Nat := (l.takeWhile (fun x => !decide (x = p))).filterMap Pending.op

/-- An entry of the score buffer as every write so far leaves it, with the cycle of that write and the engine operations issued before it
(R204, R309). -/
def entryNow (s : State) (e : BitVec 9) : BitVec 32 × Nat × List Nat :=
  let l := (s.seq .C).pend
  (sortBy Pending.due l).foldl (fun a p => p.writes.foldl (fun a w =>
    match scoutLate e w with | some v => (v, p.due, opsBefore l p) | none => a) a) (scoutEntry s.task.scout e.toNat, 0, [])

/-- The issue of SCOUT: an empty SLOT that PEN needs faults first (R308); what is no queue entry is read now (R309). -/
def scoutEffect (i : TplIssue) (s : State) (q : SeqId) : Effect :=
  let t := i.tpl
  let prog := s.readMask (scoutSlot t) 14
  let codes := vRange ((scoutVq t).zeroExtend 8) 2
  if scoutPen t && prog.isEmpty then .fail causeMaskIllegal 0
  else
    whenKept s t (whenClean s codes (whenRoom s (
      let now := entryNow s (scoutTile t)
      matEnter s { newMat s q (.scout i) i with
        regs := [s.readV (scoutVq t) 15, s.readV (scoutVq t + 1) 16]
        partialMask := s.readKm (scoutPkm t) 17
        prog := prog, entry := now.1, entryDue := now.2.1, entryAfter := now.2.2 })))

/-- SCOUT (R308, R309). -/
def execScout (i : TplIssue) (s : State) : Out := issueTpl (.scout i) (scoutLegal i.tpl) (scoutEffect i) s

/-- The entries of the score buffer that block b holds. -/
def blockEntries (t : Template) : List (BitVec 9) := (upTo 64).map (fun j => BitVec.ofNat 9 (64 * t.k.toNat + j))

/-- MSCR out of the buffer: lane i takes entry 64b + i, read under R23 (R310). -/
def mscrRead (i : TplIssue) (s : State) (_q : SeqId) : Effect :=
  let t := i.tpl
  let mask := laneMaskOf s t
  if isO t.dst && oRoom s (t.dst.truncate 2) == 0 then .stall (.queueFull (8 + (t.dst.truncate 2 : BitVec 2).zeroExtend 4) 1)
  else
    let d := entryOfLanes ((blockEntries t).zipIdx.map (fun p => if mask.getLsbD p.2 then s.readScout p.1 (100 + p.2) else 0))
    let (s1, id) := if isO t.dst then reserveO s (t.dst.truncate 2) else (s, 0)
    .write s1 (classBound t) (vecWrite t id { d := d, lanes := mask, flags := 0 })

/-- MSCR into the buffer: active lanes replace their entries (R310). -/
def mscrWrite (i : TplIssue) (s : State) (_q : SeqId) : Effect :=
  let t := i.tpl
  let codes := [t.src1]
  match queueLacking s codes with
  | some n => .stall (.queueEmpty (n.zeroExtend 4) (needOf codes n))
  | none =>
    let mask := laneMaskOf s t
    match sourcePoison s codes 0 mask with
    | some p => .fault { cause := p.cause, addr := p.addr, body := some (p.word.zeroExtend 256), origin := none, progress := 0 }
    | none =>
      let v := BitVec.ofNat 2048 (sourceVal s i codes 0)
      let es := (blockEntries t).zipIdx.filterMap (fun p => if mask.getLsbD p.2 then some (p.1, laneOf v p.2) else none)
      .write (popSources s codes) (classBound t) [.scout es]

/-- MSCR (R310). -/
def execMscr (i : TplIssue) (s : State) : Out :=
  issueTpl (.mscr i) (mscrLegal i.tpl) (if i.tpl.dst = 0xFF then mscrWrite i else mscrRead i) s

/-! ## The engine (R283, R288, R295 to R297) -/

/-- What a gathering of operands came to. -/
inductive Gather where
  | ready
  | waiting
  | failed (f : FaultInfo)
  deriving DecidableEq, Repr

/-- Up to `k` entries popped from an operand queue (R283). -/
def gatherQ : Nat → State → BitVec 3 → List Entry → State × List Entry × Gather
  | 0, s, _, buf => (s, buf, .ready)
  | k + 1, s, n, buf =>
    match s.task.q.get n with
    | [] => (s, buf, .waiting)
    | hd :: _ =>
      if !hd.filled then (s, buf, .waiting)
      else
        match hd.poison with
        | some p => (s, buf, .failed { cause := p.cause, addr := p.addr, body := some (p.word.zeroExtend 256), origin := none, progress := 0 })
        | none => gatherQ k (popQ s n) n (buf ++ [hd.data])

/-- Up to `k` entries read from an address of a space (R289, R296); a page of this core that is not resident comes in first. Each aligned 8 bytes
of a remote operand may be older than a late write that nothing puts before the operation (R73, R82). -/
def gatherMem : Nat → State → BitVec 2 → Nat → List Entry → State × List Entry × Gather
  | 0, s, _, _, buf => (s, buf, .ready)
  | k + 1, s, sp, a, buf =>
    let bad := fun (c : BitVec 8) => Gather.failed (faultAt c (faddr sp (BitVec.ofNat 64 a)))
    let read := fun (s : State) (key : Nat) (leaf : Word64) =>
      match readFails s key entryBytes with
      | some c => ((s, buf, bad (engineCause c)) : State × List Entry × Gather)
      | none => gatherMem k (touchRange s key entryBytes leaf false) sp (a + entryBytes)
          (buf ++ [BitVec.ofNat 2048 (s.readLate .C 3 (fun _ => 8) key entryBytes)])
    match place s sp a false with
    | (_, .fault c) => (s, buf, bad c)
    | (s1, .key key leaf) => read s1 key leaf
    | (s1, .stall why) =>
      match refillFor s1 why with
      | none => (s1, buf, .waiting)
      | some s2 =>
        match place s2 sp a false with
        | (s3, .key key leaf) => read s3 key leaf
        | (s3, _) => (s3, buf, .waiting)

/-- Source 1 or 2 of the group under way, as far as it is present. -/
def gatherSrc (s : State) (m : MatCmd) (second : Bool) : State × List Entry × Gather :=
  let t := m.issue.tpl
  let c := srcCode t second
  let all := if second then m.buf2 else m.buf1
  let need := if second then need2 t else need1 t
  let have_ := if t.kind = 0xC0 then all.length - m.done * need else all.length
  let missing := need - have_
  if isPop c then gatherQ missing s (c.truncate 3) all
  else if missing = 0 then (s, all, .ready)
  else if isLoftSrc c && bankHeld s (ownBank s) then (s, all, .waiting)
  else
    let (sp, a) := groupAddr s t second m.done
    gatherMem missing s sp (a + have_ * entryBytes) all

/-- The tag entry of a SCOUT (R309). -/
def gatherTag (s : State) (m : MatCmd) : State × List Entry × Gather :=
  if m.issue.tpl.kind = 0xC0 then gatherQ (1 - m.tag.length) s (m.issue.tpl.src3.truncate 3) m.tag else (s, [], .ready)

/-- No queue has to give more entries of a group than it can hold. -/
def groupFits (t : Template) (g : Nat) : Bool := (upTo 8).all (fun n => decide (groupNeed t g (BitVec.ofNat 3 n) ≤ queueDepth))

/-- The operation has begun a group and not ended it: it has taken entries of it (R288, R297). -/
def MatCmd.midGroup (m : MatCmd) : Bool :=
  let t := m.issue.tpl
  if t.kind = 0xC0 then
    m.buf1.length != m.done * need1 t || m.buf2.length != m.done * need2 t || (m.done == 0 && !m.tag.isEmpty)
  else !m.buf1.isEmpty || !m.buf2.isEmpty

/-- The operands of the group under way: the tag entry first, then both sources; source 2 waits behind source 1 on a queue that
both pop. The entries of a group are popped together, so that a halt finds the operation at a K-group boundary (R297); a group that
fills a queue more than once comes in as its entries do, and a halt waits for its end (DESIGN CHOICE, log 30). -/
def gatherGroup (s : State) (m : MatCmd) : State × MatCmd × Gather :=
  if groupFits m.issue.tpl m.done ∧ !m.midGroup ∧ !queuesReady s m.issue.tpl m.done then (s, m, .waiting)
  else
  let (s1, tag, g0) := gatherTag s m
  let m1 := { m with tag := tag }
  match g0 with
  | .ready =>
    let (s2, b1, g1) := gatherSrc s1 m1 false
    let m2 := { m1 with buf1 := b1 }
    match g1 with
    | .failed f => (s2, m2, .failed f)
    | .ready =>
      let (s3, b2, g2) := gatherSrc s2 m2 true
      (s3, { m2 with buf2 := b2 }, g2)
    | .waiting =>
      if m.issue.tpl.src1 = m.issue.tpl.src2 then (s2, m2, .waiting)
      else
        let (s3, b2, g2) := gatherSrc s2 m2 true
        (s3, { m2 with buf2 := b2 }, match g2 with | .failed f => .failed f | _ => .waiting)
  | g => (s1, m1, g)

/-- The task with an operation changed. -/
def Task.updMat (t : Task) (m : MatCmd) : Task := { t with mats := updFirst (fun x => x.id == m.id) (fun _ => m) t.mats }

/-- A run fault (R296): the flags of completed groups are raised, the operation stops with its progress, and the task stops with
a record that names the operation itself. -/
def matFault (s : State) (m : MatCmd) (f : FaultInfo) : State :=
  let body := m.issue.tpl.toBits
  let r := asyncRec s m.origin { f with
    body := some (f.body.getD body), origin := some (instrOrigin (.mma m.issue)), progress := BitVec.ofNat 64 m.done }
  let popped := m.issue.patch.getLsbD 22
  let r1 : FaultRec :=
    { r with
      cause := if popped then r.cause ||| (1#64 <<< 18) else r.cause
      snap := r.snap.set 7 (frec7Of m.origin.seqNum false .C m.origin.plane m.origin.pc) }
  takeFault (s.withTask (s.task.updMat { m with stopped := true })) r1

/-- An operation has finished: its destinations wait for the retire cycle, a remote source's token enters E, and a later SCOUT
of the same tile sees a new score, unless what it has was written after this one by R204 (R283, R291, R309). -/
def matFinish (s : State) (m : MatCmd) (flags : BitVec 7) (writes : List Write) : State :=
  let ws := writes ++ (if flags ||| m.flags = 0 then [] else [.fflags (flags ||| m.flags)]) ++
    (if hasKm m.issue.tpl then [.acct 8 1] else [])
  let sq := s.seq .C
  let due := match sq.pend.find? (fun p => p.op == some m.id) with | some p => Nat.max p.due s.core.cycle | none => s.core.cycle
  let s1 := s.withSeq .C { sq with pend := sq.pend.map (fun p => if p.op = some m.id then { p with writes := ws, op := none, due := due } else p) }
  let t := s1.task
  let t1 := { t with mats := t.mats.filter (fun x => x.id != m.id) }
  let scored := writes.filterMap (scoutLate (scoutTile m.issue.tpl))
  let late := fun (v : BitVec 32) (x : MatCmd) =>
    if x.issue.tpl.kind = 0xC0 ∧ scoutTile x.issue.tpl = scoutTile m.issue.tpl ∧ (x.entryDue < due ∨ (x.entryDue = due ∧ !x.entryAfter.contains m.id)) then
      { x with entry := v, entryDue := due, entryAfter := [] } else x
  let t2 := match scored with
    | v :: _ => if m.issue.tpl.kind = 0xC0 then { t1 with mats := t1.mats.map (late v) } else t1
    | [] => t1
  match m.eslot with
  | some e => s1.withTask (t2.fillE .C e true none)
  | none => s1.withTask t2

/-- The accumulator number of an operand code. -/
def accNum (c : BitVec 8) : BitVec 2 := c.truncate 2

/-- A group of an accumulating kind (R288): the start value before the first, then the group, at whose boundary the destination
holds the value so far. -/
def accumGroup (s : State) (m : MatCmd) : State :=
  let t := m.issue.tpl
  let dst := s.task.acc.get (accNum t.dst)
  let a0 := if m.started then (dst, 0) else startValue t dst (s.task.acc.get (accNum t.src3))
  let a := groupStep t a0.1 m.buf1 m.buf2
  let m1 := { m with started := true, done := m.done + 1, buf1 := [], buf2 := [], flags := m.flags ||| a0.2 ||| a.2 }
  let s1 := s.withTask { s.task with acc := s.task.acc.set (accNum t.dst) a.1 }
  if groupsOf t ≤ m1.done then matFinish s1 m1 0 [] else s1.withTask (s1.task.updMat m1)

/-- The result of a SCOUT once every group is in (R309). -/
def scoutResult (m : MatCmd) : BitVec 32 :=
  let t := m.issue.tpl
  let qtags := m.regs.flatMap tagsOf
  let ktags := m.tag.flatMap tagsOf
  let prog := if scoutPen t && m.partialMask.getLsbD (scoutTile t).toNat then some m.prog else none
  let r := scoutReduce (scoutScores t m.buf1 m.buf2) qtags ktags prog
  BitVec.ofNat 32 (if t.accmode = 0 then r else maxF32 m.entry.toNat r)

/-- A group of a SCOUT: its slabs are kept until the last, then the tile is scored (R309). -/
def scoutGroup (s : State) (m : MatCmd) : State :=
  let t := m.issue.tpl
  let m1 := { m with started := true, done := m.done + 1 }
  if groupsOf t ≤ m1.done then
    matFinish s m1 0 ([.scout [(scoutTile t, scoutResult m1)]] ++ (if t.accmode = 0 then [.acct 4 1] else []))
  else s.withTask (s.task.updMat m1)

/-- The destinations of an MST (R299). -/
def mstWrites (m : MatCmd) (es : List Entry) : List Write :=
  let t := m.issue.tpl
  if isV t.dst then es.zipIdx.map (fun p => .v (t.dst.truncate 4 + BitVec.ofNat 4 p.2) p.1 allLanes)
  else if isO t.dst then List.zipWith (fun id e => .o (t.dst.truncate 2) id e) m.places es
  else [.q (t.src2.truncate 3) (m.places.zip es)]

/-- A moving or combining kind done (R298, R299). -/
def moverRun (s : State) (m : MatCmd) : State :=
  let t := m.issue.tpl
  let put := fun (a : BitVec 65536) => s.withTask { s.task with acc := s.task.acc.set (accNum t.dst) a }
  let src := s.task.acc.get (accNum t.src1)
  match t.kind.toNat with
  | 0x84 => matFinish (put 0) m 0 []
  | 0x85 =>
    let r := bandOut t src m.seed
    matFinish s m r.2 (mstWrites m r.1)
  | 0x86 =>
    let r := bandIn t (s.task.acc.get (accNum t.dst)) m.buf1
    matFinish (put r.1) m r.2 []
  | 0x87 =>
    let r := addAccs t src (s.task.acc.get (accNum t.src2))
    matFinish (put r.1) m r.2 []
  | _ => matFinish (put (transposeAcc src)) m 0 []

/-- The engine on the operation at its head: operands are taken as they come and a group is done when they are all there. None
when nothing can move (DESIGN CHOICE, log 30). -/
def matStep (s : State) : Option State :=
  match s.task.mats with
  | [] => none
  | m :: _ =>
    if !taskLive s || m.stopped then none
    else
      let t := m.issue.tpl
      let accum := decide (t.kind.toNat < 0x84)
      if accum || t.kind == 0xC0 then
        match gatherGroup s m with
        | (s1, m1, .failed f) => some (matFault s1 m1 f)
        | (s1, m1, .ready) => some (if accum then accumGroup s1 m1 else scoutGroup s1 m1)
        | (s1, m1, .waiting) => if m1 = m then none else some (s1.withTask (s1.task.updMat m1))
      else if t.kind = 0x86 then
        if isPop t.src1 then
          if ((s.task.q.get (t.src1.truncate 3)).takeWhile QEntry.filled).length < bandEntries t.stype1 then none
          else
            match gatherQ (bandEntries t.stype1) s (t.src1.truncate 3) [] with
            | (s1, b, .failed f) => some (matFault s1 { m with buf1 := b } f)
            | (s1, b, _) => some (moverRun s1 { m with buf1 := b })
        else some (moverRun s { m with buf1 := m.regs })
      else some (moverRun s m)

/-- MATRIX_GROUP_BOUNDARY (R288, R296): without operands nothing moves. -/
def execMatrixGroupBoundary (s : State) : Out := .next ((matStep s).getD s)

end Sys2Proof.Machine
end

