-- ==== Sys2Proof/Machine/Patch.lean ====
section
/-! DEFINITION. Patch words (R180, R181): the record as amended, its literals and the issue of its kind on C; and the stamped
operation that C holds until its stamp cycle (R38, R294, R295). -/

namespace Sys2Proof.Machine

open Sys2Proof

/-- The issue of a template on C by its KIND (R186); none for a code that names no kind. -/
def issueKind (i : TplIssue) (s : State) : Option Out :=
  match i.tpl.kind.toNat with
  | 0x00 => some (execVmov i s)
  | 0x01 => some (execVadd i s)
  | 0x02 => some (execVsub i s)
  | 0x03 => some (execVmul i s)
  | 0x04 => some (execVfma i s)
  | 0x05 => some (execVfms i s)
  | 0x06 => some (execVfnma i s)
  | 0x07 => some (execVmin i s)
  | 0x08 => some (execVmax i s)
  | 0x09 => some (execVabs i s)
  | 0x0A => some (execVneg i s)
  | 0x0B => some (execVcmp i s)
  | 0x0C => some (execVsel i s)
  | 0x0D => some (execVand i s)
  | 0x0E => some (execVor i s)
  | 0x0F => some (execVxor i s)
  | 0x10 => some (execVnot i s)
  | 0x11 => some (execVshl i s)
  | 0x12 => some (execVshr i s)
  | 0x13 => some (execVsra i s)
  | 0x14 => some (execVcvt i s)
  | 0x15 => some (execVqnt i s)
  | 0x16 => some (execVdqnt i s)
  | 0x17 => some (execVexp2 i s)
  | 0x18 => some (execVlog2 i s)
  | 0x19 => some (execVrcp i s)
  | 0x1A => some (execVrsq i s)
  | 0x1B => some (execVsqrt i s)
  | 0x1C => some (execVrope i s)
  | 0x1D => some (execVred i s)
  | 0x1E => some (execVscan i s)
  | 0x1F => some (execVperm i s)
  | 0x20 => some (execVbcast i s)
  | 0x21 => some (execVsplat i s)
  | 0x22 => some (execViota i s)
  | 0x23 => some (execVpopc i s)
  | 0x24 => some (execVmlog i s)
  | 0x25 => some (execVsmx i s)
  | 0x26 => some (execVmrg i s)
  | 0x27 => some (execVmadd i s)
  | 0x28 => some (execVmsub i s)
  | 0x29 => some (execVmmul i s)
  | 0x2A => some (execVntt i s)
  | 0x2B => some (execVintt i s)
  | 0x2C => some (execVmred i s)
  | 0x2D => some (execVclamp i s)
  | 0x2E => some (execVpack i s)
  | 0x2F => some (execVunpk i s)
  | 0x30 => some (execVdot4 i s)
  | 0x80 => some (execMma i s)
  | 0x81 => some (execMmax i s)
  | 0x82 => some (execMmb i s)
  | 0x83 => some (execMmod i s)
  | 0x84 => some (execMzero i s)
  | 0x85 => some (execMst i s)
  | 0x86 => some (execMld i s)
  | 0x87 => some (execMadda i s)
  | 0x88 => some (execMtrn i s)
  | 0xC0 => some (execScout i s)
  | 0xC1 => some (execMscr i s)
  | _ => none

/-- The record as amended for an issue, with LATCLASS (R180, R184, R282). -/
def patchRecord (s : State) (i : BitVec 6) (f : BitVec 6) (v : BitVec 16) (lits : List Word32) : Template :=
  Template.ofBits (withLatClass (amend (s.readTpl i 9999) f v lits))

/-- How many literal words an issue takes (R181). -/
def patchWords (f : BitVec 6) (t : Template) : Nat :=
  amendWords f + splatWords t.src1 + splatWords t.src2 + splatWords t.src3

/-- A fault of a patch word at decode (R167, R229). -/
def patchFault (s : State) (mk : Instr) (ti : TplIssue) (cause : BitVec 8) : State :=
  faultPrecise s .C mk { cause := cause, addr := 0, body := some ti.tpl.toBits, origin := some (instrOrigin (.mma ti)), progress := 0 }
    (s.seq .C).popped 0

/-- The body of the record of a patch word whose amendment is refused: R229 gives the amended record, which there is none of, so the
value is free (DESIGN CHOICE, log 3). -/
def refusedBody (s : State) : BitVec 256 :=
  Config.freeWord s.freeCtr 10003 ++ Config.freeWord s.freeCtr 10002 ++ Config.freeWord s.freeCtr 10001 ++ Config.freeWord s.freeCtr 10000

/-- The fault of a patch word whose amendment is not legal (R180, R229). -/
def amendmentFault (s : State) (mk : Instr) (w : Word32) (f : BitVec 6) (lits : List Word32) : State :=
  let ti : TplIssue := { patch := w, lits := lits.take (amendWords f), tpl := Template.ofBits (refusedBody s) }
  { patchFault s mk ti causeIllegalInstr with freeCtr := s.freeCtr + 1 }

/-- The literal words of a patch word at `pc` that takes `n` of them pass the end of instruction memory, of which at most four are at hand
(R16, R166). -/
def pastMemory (pc n have_ : Nat) : Bool := if n ≤ 4 then decide (have_ < n) else decide (0x7FFC < pc + 4 * n)

/-- A patch word on C with the words after it: a record that a covered write has still to reach stalls it; then its literals
must lie in memory (R16), its push must be legal, its literals at most four and its KIND one of R186. -/
def patchIssue (s : State) (mk : Instr) (w : Word32) (i : BitVec 6) (f : BitVec 6) (v : BitVec 16) (lits : List Word32) : State ⊕ TplIssue :=
  if !canIssue s .C || boundMissed s .C || (heldFault s .C (ordersWrite s.task .C mk)).isSome then
    .inl (issueOn .C mk true (fun _ _ => .stall .pending) s)
  else if !mk.wellFormed then .inl (amendmentFault s mk w f lits)
  else
    let s1 := s.withSeq .C (armIf (s.seq .C))
    if coveredHit s1.task .C [.tpl i] then .inl (stalled s1 .C .pending)
    else
      let t := patchRecord s i f v lits
      let n := patchWords f t
      let ti : TplIssue := { patch := w, lits := lits.take n, tpl := t }
      if pastMemory (s.seq .C).pc.toNat n lits.length then .inl (patchFault s mk ti causeIllegalInstr)
      else if w.getLsbD 23 ∧ t.peer = 3 then .inl (patchFault s mk ti causeIllegalInstr)
      else if 4 < n then .inl (patchFault s mk ti causeIllegalTemplate)
      else .inr ti

/-- PATCH_WORD (R180): issues the template; on S, L or W it is SEQ_ILLEGAL. While C holds a stamped operation the record stays the
one of its first issue. -/
def execPatchWord (i : BitVec 6) (t : BitVec 2) (f : BitVec 6) (v : BitVec 16) (lits : List Word32) (s : State) : Out :=
  let mk := Instr.patchWord i t f v lits
  if s.cur ≠ .C then issue mk (fun _ _ => .stall .pending) s
  else
    let ti : State ⊕ TplIssue := match s.task.hold with
      | some h => .inr h.1
      | none => patchIssue s mk (3#2 ++ i ++ t ++ f ++ v) i f v lits
    match ti with
    | .inl s1 => .next s1
    | .inr ti =>
      match issueKind ti s with
      | some o => o
      | none => .next (patchFault s mk ti causeIllegalTemplate)

/-- The outcome's state, or the one before. -/
def outState (o : Option Out) (s : State) : State :=
  match o with
  | some (.next s1) => s1
  | _ => s

/-- A held operation whose stamp cycle has come, or that a pre-emption no longer holds (R294, R295). -/
def stampedStep (s : State) : Option State :=
  match s.task.hold with
  | some (ti, e) =>
    if canIssue s .C && decide (e.toNat ≤ s.time.toNat) && !stampsHeld s then
      let s1 := outState (issueKind ti { s with cur := .C }) s
      if s1.task.hold.isNone ∨ s1.core.run ≠ s.core.run then some s1 else none
    else none
  | none => none

/-- STAMPED_MATRIX_ISSUE (R295): before the stamp cycle nothing issues. -/
def execStampedMatrixIssue (s : State) : Out := .next ((stampedStep s).getD s)

end Sys2Proof.Machine
end

