-- ==== Sys2Proof/Machine/Attention.lean ====
section
/-! DEFINITION. The MASK and ATTN groups on the core: mask programs, classification, element masks, the threshold unit, keep-mask
operations and the counters (R145 to R158, R302 to R307, R311 to R314, R320, R321). -/

namespace Sys2Proof.Machine

open Sys2Proof

/-! ## Reads of a span of bytes -/

/-- How a span is read: at an instruction's issue, or by an engine, for which pages of own scratchpad come in first (R44, R55); for an attention
request, on path 4 for its sequencer (R80). -/
inductive Reach where
  | issue
  | engine
  | request (q : SeqId)
  deriving DecidableEq, Repr

/-- The value of `n` bytes at a key as such a read finds it: each aligned 8 bytes of a request's may be older than a late write that nothing puts
before it (R73, R82). -/
def Reach.value (r : Reach) (s : State) (k n : Nat) : Nat :=
  match r with
  | .request q => s.readLate q 4 (fun _ => 8) k n
  | _ => readKey s k n

/-- What reading a span came to. -/
inductive Got where
  | ok (s : State) (v : Nat)
  | stall (why : Stall)
  | fault (cause : BitVec 8) (addr : Word64)
  deriving DecidableEq, Repr

/-- The place of bytes at an address; an engine has a page of own scratchpad brought in first (R55). -/
def reachPlace (r : Reach) (s : State) (sp : BitVec 2) (addr : Nat) (write : Bool) : State × Place :=
  match place s sp addr write with
  | (s1, .stall (.page p)) =>
    (match r with
     | .issue => (s1, .stall (.page p))
     | _ =>
       (match refillFor s1 (.page p) with
        | some s2 => place s2 sp addr write
        | none => (s1, .stall (.page p))))
  | x => x

/-- `n` bytes from an address, page by page, with the fault of the first page or datum that fails (R226, R234). -/
def readSpan (r : Reach) (sp : BitVec 2) : Nat → State → Nat → Nat → Got
  | 0, s, _, _ => .ok s 0
  | fuel + 1, s, addr, n =>
    let m := Nat.min n (chunkTo sp addr)
    match reachPlace r s sp addr false with
    | (_, .fault c) => .fault c (faddr sp (BitVec.ofNat 64 addr))
    | (_, .stall w) => .stall w
    | (s1, .key key leaf) =>
      match readFails s1 key m with
      | some c => .fault c (faddr sp (BitVec.ofNat 64 addr))
      | none =>
        let s2 := touchRange s1 key m leaf false
        if n ≤ m then .ok s2 (r.value s1 key m)
        else
          match readSpan r sp fuel s2 (addr + m) (n - m) with
          | .ok s3 v => .ok s3 (r.value s1 key m + v * 2 ^ (8 * m))
          | x => x

/-! ## MKLD (R303) -/

/-- MKLD: the counts are checked before any read, the program before it is stored. -/
def execMkld (k : Tok) (slot : BitVec 2) (a : BitVec 4) (b : Src) (s : State) : Out :=
  issue (.mkld k slot a b) (fun s q => withX s q a 0 (fun obj => withSrcVal s q b 1 (fun n =>
    match objAddr obj with
    | none => .fail causeIllegalInstr 0
    | some (sp, addr) =>
      if addr % 8 ≠ 0 then .fail causeMisaligned obj
      else if 16 < n.toNat then .fail causeMaskLimit 0
      else if n = 0 then .fail causeMaskIllegal 0
      else if fenced s q 0 then .stall .engine
      else
        match readSpan .issue sp 3 s addr (8 * n.toNat) with
        | .fault c x => .fail c x
        | .stall w => .stall w
        | .ok s1 v =>
          let prog := wordsOf v n.toNat
          match programFault prog with
          | some c => .fail c 0
          | none => .write s1 64 [.mask slot prog]))) s

/-! ## MKEV (R304, R305) -/

/-- A block reference (R140). -/
inductive BlockRef where
  | hole
  | bad
  | block (shadow blk : Nat)
  deriving DecidableEq, Repr

/-- The block reference that 16 bytes hold. -/
def blockRef (n : Nat) : BlockRef :=
  let b := bitsOf n 0 40
  let sh := bitsOf n 64 40
  if bitsOf n 40 24 ≠ 0 ∨ bitsOf n 104 24 ≠ 0 then .bad
  else if b = 0 ∧ sh = 0 then .hole
  else if b = 0 ∨ sh = 0 then .bad
  else .block (sh * 2 ^ 16) (b * 2 ^ 16)

/-- Fields of a classification descriptor (R304). -/
def mkevTags (n : Nat) : BitVec 2 × Nat := (BitVec.ofNat 2 (bitsOf n 56 2), bitsOf n 0 56)
def mkevList (n : Nat) : BitVec 2 × Nat := (BitVec.ofNat 2 (bitsOf n 120 2), bitsOf n 64 56)
def mkevTiles (n : Nat) : Nat := bitsOf n 128 10
def mkevSlot (n : Nat) : BitVec 2 := BitVec.ofNat 2 (bitsOf n 144 2)

/-- A descriptor that ATTN_ERROR refuses (R305). -/
def mkevBad (n : Nat) : Bool :=
  bitsOf n 58 6 != 0 || bitsOf n 122 6 != 0 || bitsOf n 138 6 != 0 || bitsOf n 146 46 != 0 || bitsOf n 192 64 != 0 ||
    (mkevTags n).1 == 3 || (mkevList n).1 == 3 || decide (mkevTiles n = 0) || decide (512 < mkevTiles n) ||
    (mkevTags n).2 % 8 != 0 || (mkevList n).2 % 16 != 0

/-- The descriptor at `obj` and the program of its slot, checked as at issue (R304, R305). -/
def mkevRead (s : State) (q : SeqId) (obj : Word64) (k : State → Nat → MaskSlot → Effect) : Effect :=
  if fenced s q 0 ∨ fenced s q 5 then .stall .engine
  else withObj s obj 32 false (fun s1 key leaf _ =>
    match readFails s1 key 32 with
    | some c => .fail c obj
    | none =>
      let d := readKey s1 key 32
      if mkevBad d then .fail causeAttnError obj
      else if coveredHit s1.task q [.mask (mkevSlot d)] then .stall .pending
      else
        let prog := s1.readMask (mkevSlot d) 30
        if prog.isEmpty then .fail causeMaskIllegal 0 else k (readTouch s1 key leaf) d prog)

/-- MKEV at issue: descriptor, checks, the program of its slot and the reserved entry (R304). -/
def execMkev (k : Tok) (n : BitVec 3) (a : BitVec 4) (s : State) : Out :=
  let i := Instr.mkev k n a
  issue i (fun s q => withX s q a 0 (fun obj => mkevRead s q obj (fun s1 d prog =>
    if sldnPending s1 n || decide (qRoom s1 n = 0) then .stall (.queueFull (n.zeroExtend 4) 1)
    else
      let (s2, ids) := reserveQ s1 n 1
      let j : MkevJob := { id := s2.nextId, origin := s.origin q i, qn := n, place := ids.headD 0, desc := BitVec.ofNat 256 d
                           obj := obj, prog := prog, tiles := 0, live := 0, part := 0, counts := (0, 0, 0), stopped := false }
      .done (s2.withTask { s2.task with mkevs := s2.task.mkevs ++ [j] }).fresh 1024 [] (.queued j.id)))) s

/-- The class of one tile from its reference and its summary (R147). -/
inductive Classed where
  | ok (s : State) (c : TileClass)
  | wait
  | fault (cause : BitVec 8) (addr : Word64)
  deriving DecidableEq, Repr

/-- The class of a block of the list for some query tags (R146, R147). -/
def classBlock (r : Reach) (s : State) (prog : Option MaskSlot) (qtags : List Word64) (ref : Nat) (refAddr : Word64) : Classed :=
  match blockRef ref with
  | .hole => .ok s .empty
  | .bad => .fault causeAttnError refAddr
  | .block sh _ =>
    match readSpan r 2 2 s (sh + 0x9400) 64 with
    | .stall _ => .wait
    | .fault c x => .fault c x
    | .ok s1 v =>
      match summaryOf v with
      | none => .fault causeAttnError (faddr 2 (BitVec.ofNat 64 (sh + 0x9400)))
      | some sm => .ok s1 (classTile prog qtags sm)

/-- The task with a classification changed. -/
def Task.updMkev (t : Task) (j : MkevJob) : Task := { t with mkevs := updFirst (fun x => x.id == j.id) (fun _ => j) t.mkevs }

/-- A classification with the class of its next tile (R148). -/
def MkevJob.add (j : MkevJob) (c : TileClass) : MkevJob :=
  let bit : BitVec 512 := 1#512 <<< j.tiles
  { j with
    tiles := j.tiles + 1
    live := if c = .empty then j.live else j.live ||| bit
    part := if c = .partly then j.part ||| bit else j.part
    counts := match c with
      | .empty => (j.counts.1 + 1, j.counts.2.1, j.counts.2.2)
      | .partly => (j.counts.1, j.counts.2.1 + 1, j.counts.2.2)
      | .full => (j.counts.1, j.counts.2.1, j.counts.2.2 + 1) }

/-- A fault during the run: taken in the manner of R296, with nothing pushed or counted (R305). One that is met when the MKEV is issued again
is precise. -/
def mkevFault (s : State) (j : MkevJob) (f : FaultInfo) : State :=
  let r := asyncRec s j.origin f
  let c := if j.stopped then r.cause &&& ~~~(1#64 <<< 16) else r.cause
  let r1 : FaultRec :=
    { r with
      cause := if j.origin.body.getLsbD 24 then c ||| (1#64 <<< 18) else c
      snap := r.snap.set 7 (frec7Of j.origin.seqNum false j.origin.q j.origin.plane j.origin.pc) }
  takeFault (s.withTask (s.task.updMkev { j with tiles := 0, live := 0, part := 0, counts := (0, 0, 0), stopped := true })) r1

/-- A fault found while the task is stopped already is found again after its resume (R223). -/
def mkevStop (s : State) (j : MkevJob) (f : FaultInfo) : Option State := if taskLive s then some (mkevFault s j f) else none

/-- The entry that MKEV pushes (R304). -/
def mkevEntry (j : MkevJob) : Entry :=
  BitVec.ofNat 2048 (j.live.toNat + j.part.toNat * 2 ^ 512 + mkevTiles j.desc.toNat * 2 ^ 1024)

/-- Every tile is classed: the entry and the counts wait for the retire cycle (R158, R304). -/
def mkevFinish (s : State) (j : MkevJob) : State :=
  let n := mkevTiles j.desc.toNat
  let ws : List Write := [.fill j.qn j.place (mkevEntry j), .acct 0 n, .acct 1 j.counts.1, .acct 2 j.counts.2.1, .acct 3 j.counts.2.2]
  let sq := s.seq j.origin.q
  let s1 := s.withSeq j.origin.q { sq with pend := sq.pend.map (fun p => if p.op = some j.id then { p with writes := ws, op := none } else p) }
  s1.withTask { s1.task with mkevs := s1.task.mkevs.filter (fun x => x.id != j.id) }

/-- The mask unit on a classification: the query tags, then the next tile's reference and summary (R146 to R148). -/
def mkevTile (s : State) (j : MkevJob) : Option State :=
  let d := j.desc.toNat
  let ra := (mkevList d).2 + 16 * j.tiles
  match readSpan .engine (mkevTags d).1 2 s (mkevTags d).2 512 with
  | .stall _ => none
  | .fault c x => mkevStop s j (faultAt c x)
  | .ok s1 v =>
    match readSpan .engine (mkevList d).1 2 s1 ra 16 with
    | .stall _ => none
    | .fault c x => mkevStop s1 j (faultAt c x)
    | .ok s2 ref =>
      match classBlock .engine s2 (some j.prog) (wordsOf v 64) ref (faddr (mkevList d).1 (BitVec.ofNat 64 ra)) with
      | .wait => none
      | .fault c x => mkevStop s2 j (faultAt c x)
      | .ok s3 c => some (s3.withTask (s3.task.updMkev (j.add c)))

/-- After a resume the MKEV that faulted is issued again, ahead of its sequencer's PC: its operand, its descriptor and its program are taken
anew, and the entry that it reserved is kept (R230, R305). -/
def mkevAgain (s : State) (j : MkevJob) : Option State :=
  match decodeWord (j.origin.body.truncate 32) [] with
  | some (.mkev _ _ a, _) =>
    (match withX s j.origin.q a 0 (fun obj => mkevRead s j.origin.q obj (fun s1 d prog =>
        .act (s1.withTask (s1.task.updMkev { j with desc := BitVec.ofNat 256 d, obj := obj, prog := prog, stopped := false })))) with
     | .done s1 _ _ _ => some s1
     | .fault f => some (mkevFault s j f)
     | .stall w => refillFor s w
     | _ => none)
  | _ => none

/-- The next work of the mask unit; a classification under way at a halt is finished (R43). -/
def mkevStep (s : State) : Option State :=
  if !engineLive s then none
  else
    match s.task.mkevs with
    | [] => none
    | j :: _ =>
      if j.stopped then (if taskLive s then mkevAgain s j else none)
      else if mkevTiles j.desc.toNat ≤ j.tiles then some (mkevFinish s j)
      else mkevTile s j

/-- The mask unit for up to `n` more tiles of the classification at its head, and then its end. -/
def mkevRun : Nat → State → Option State
  | 0, s => mkevStep s
  | n + 1, s =>
    match mkevStep s with
    | none => none
    | some s1 => if s1.task.mkevs.length = s.task.mkevs.length ∧ s1.core.run = s.core.run then (match mkevRun n s1 with | some s2 => some s2 | none => some s1) else some s1

/-- MKEV_RETIRE (R304): classes what is left of the list and pushes the entry; with nothing to class nothing happens. -/
def execMkevRetire (s : State) : Out := .next ((mkevRun 512 s).getD s)

/-! ## MKEL and MKCT (R306, R307) -/

/-- The bits of MKEL's control value. -/
def mkelBits : Word64 := 0xF1FF1F7F#64

/-- The element mask of two query rows against 32 key slots (R306). -/
def elementMask (prog : MaskSlot) (qtags ktags : List Word64) (row : Nat) : BitVec 64 :=
  BitVec.ofNat 64 (packBits 1 ((upTo 64).map (fun i =>
    (allowedPair prog (qtags.getD (2 * row + i / 32) 0) (ktags.getD (i % 32) 0)).toNat)))

/-- MKEL (R306): an empty slot faults first; a gated tile writes nothing; a full tile gives all ones. -/
def execMkel (k : Tok) (d : BitVec 3) (vk : BitVec 4) (b : Src) (s : State) : Out :=
  issue (.mkel k d vk b) (fun s q => withSrcVal s q b 0 (fun c =>
    let vq : BitVec 4 := c.extractLsb 31 28
    let tile := bitsOf c.toNat 16 9
    let slot : BitVec 2 := c.truncate 2
    let pkm : BitVec 2 := c.extractLsb 3 2
    let kkm : BitVec 2 := c.extractLsb 6 5
    if c &&& ~~~mkelBits ≠ 0 ∨ vq = 15 then .fail causeIllegalInstr 0
    else if coveredHit s.task q ([.mask slot, .km pkm, .v vq, .v (vq + 1)] ++ (if c.getLsbD 4 then [.km kkm] else [])) then .stall .pending
    else
      let prog := s.readMask slot 31
      if prog.isEmpty then .fail causeMaskIllegal 0
      else if c.getLsbD 4 && !(s.readKm kkm 32).getLsbD tile then .write s 4 []
      else if !(s.readKm pkm 33).getLsbD tile then .write s 4 [.m d (BitVec.allOnes 64) (BitVec.allOnes 64)]
      else whenClean s [vq.zeroExtend 8, vq.zeroExtend 8 + 1, vk.zeroExtend 8] (
        let m := elementMask prog (tagsOf (s.readV vq 34) ++ tagsOf (s.readV (vq + 1) 35)) (tagsOf (s.readV vk 36)) (bitsOf c.toNat 8 5)
        .write s 4 [.m d m (BitVec.allOnes 64), .acct 9 (countOf (fun i => !m.getLsbD i) (upTo 64))]))) s

/-- The lowest set bit at or above `t` among `n` more; 512 if there is none (R307). -/
def nextSet (m : BitVec 512) : Nat → Nat → Nat
  | _, 0 => 512
  | t, n + 1 => if m.getLsbD t then t else nextSet m (t + 1) n

/-- Set bits at or above `t` (R307). -/
def countFrom (m : BitVec 512) (t : Nat) : Nat := countOf (fun i => m.getLsbD i && decide (t ≤ i)) (upTo 512)

/-- MKCT (R307). -/
def execMkct (k : Tok) (d : BitVec 4) (mode : BitVec 1) (a : BitVec 2) (b : Src) (s : State) : Out :=
  issue (.mkct k d mode a b) (fun s q => withSrcVal s q b 0 (fun v =>
    if 512 ≤ v.toNat then .fail causeIllegalInstr 0
    else
      let m := s.readKm a 32
      .write s 2 [.x d (BitVec.ofNat 64 (if mode = 0 then nextSet m v.toNat (512 - v.toNat) else countFrom m v.toNat)) none])) s

/-! ## THR (R153, R154, R312) -/

/-- `a` ranks before `b` under TOPK: NaN above everything, then the larger score, then the lower tile (R153). -/
def ranksBefore (a b : Nat × Num) : Bool :=
  if a.2.isNan && b.2.isNan then decide (a.1 < b.1)
  else if a.2.isNan then true
  else if b.2.isNan then false
  else
    let c := cmpNum a.2 b.2
    decide (0 < c) || (c == 0 && decide (a.1 < b.1))

/-- The largest score that is not NaN (R153). -/
def topScore (l : List (Nat × Num)) : Num :=
  l.foldl (fun m p => if !p.2.isNan && decide (0 < cmpNum p.2 m) then p.2 else m) (.inf true)

/-- The tiles that a mode selects; none where the parameter is refused (R153). -/
def selected (mode param : Nat) (l : List (Nat × Num)) : Option (List Nat) :=
  let p := ofF32 param
  match mode with
  | 0 =>
    if p.isNan || p.isInf || (p.isNeg && !p.isZero) then none
    else
      let m := topScore l
      some ((l.filter (fun x => x.2.isNan ||
        (x.2 != .inf true && decide (0 ≤ cmpNum (addNum 0 x.2 p).1 m)))).map Prod.fst)
  | 1 =>
    if param = 0 ∨ 512 < param then none
    else some ((l.filter (fun x => decide (countOf (fun y => ranksBefore y x) l < param))).map Prod.fst)
  | _ =>
    if p.isNan then none
    else some ((l.filter (fun x => x.2.isNan || decide (0 ≤ cmpNum x.2 p))).map Prod.fst)

/-- The tiles of a mask. -/
def tilesOf (m : BitVec 512) : List Nat := (upTo 512).filter (fun t => m.getLsbD t)

/-- The mask of some tiles. -/
def maskOfTiles (l : List Nat) : BitVec 512 := l.foldl (fun m t => m ||| (1#512 <<< t)) 0

/-- The tiles forced by FF and FL (R154). -/
def forcedTiles (ff fl : Bool) (lv : List Nat) : List Nat :=
  (if ff then lv.take 1 else []) ++ (if fl then (match lv.getLast? with | some t => [t] | none => []) else [])

/-- THR (R312). -/
def execThr (k : Tok) (d a : BitVec 2) (b : Src) (s : State) : Out :=
  issue (.thr k d a b) (fun s q => withSrcVal s q b 0 (fun c =>
    if c.extractLsb 1 0 = 3#2 ∨ c.extractLsb 31 4 ≠ 0 then .fail causeIllegalInstr 0
    else
      let live := tilesOf (s.readKm a 32)
      let scores := live.map (fun t => (t, ofF32 (s.readScout (BitVec.ofNat 9 t) (1000 + t)).toNat))
      match selected (bitsOf c.toNat 0 2) (bitsOf c.toNat 32 32) scores with
      | none => .fail causeAttnError 0
      | some sel =>
        let m := maskOfTiles sel ||| maskOfTiles (forcedTiles (c.getLsbD 2) (c.getLsbD 3) live)
        let kept := countFrom m 0
        .write s 16 [.km d m, .acct 5 (live.length - kept), .acct 6 (kept - sel.length)])) s

/-! ## KMOP and KMIO (R313, R314) -/

/-- The bits of KMOP's control value that each operation uses. -/
def kmopBits (op : Nat) : Word64 :=
  match op with
  | 0 => 0x37#64
  | 1 => 0x37#64
  | 2 => 0x1FF01FF0007#64
  | 3 => 0x1FF0007#64
  | _ => 0x3FF00000007#64

/-- The `n` lowest set bits. -/
def lowestSet (m : BitVec 512) (n : Nat) : BitVec 512 := maskOfTiles ((tilesOf m).take n)

/-- KMOP (R313). -/
def execKmop (k : Tok) (d a : BitVec 2) (b : Src) (s : State) : Out :=
  issue (.kmop k d a b) (fun s q => withSrcVal s q b 0 (fun c =>
    let op := bitsOf c.toNat 0 3
    let other : BitVec 2 := c.extractLsb 5 4
    if 4 < op ∨ c &&& ~~~(kmopBits op) ≠ 0 ∨ (op = 4 ∧ 512 < bitsOf c.toNat 32 10) then .fail causeIllegalInstr 0
    else if op < 2 && coveredHit s.task q [.km other] then .stall .pending
    else
      let m := s.readKm a 32
      let o := s.readKm other 33
      let lo := bitsOf c.toNat 16 9
      let r := match op with
        | 0 => m &&& o
        | 1 => m &&& ~~~o
        | 2 => maskOfTiles ((tilesOf m).filter (fun t => decide (lo ≤ t) && decide (t ≤ bitsOf c.toNat 32 9)))
        | 3 => m &&& ~~~(1#512 <<< lo)
        | _ => lowestSet m (bitsOf c.toNat 32 10)
      .write s 2 [.km d r])) s

/-- KMIO in (R314): part p of a queue head. -/
def execKmioIn (k : Tok) (p kk : BitVec 2) (pop : BitVec 1) (n : BitVec 3) (s : State) : Out :=
  issue (.kmioIn k p kk pop n) (fun s _ => withQ s n (pop == 1) (fun s1 e =>
    .write s1 2 [.km kk (BitVec.ofNat 512 (e.toNat / 2 ^ (512 * p.toNat)))])) s

/-- KMIO out (R314): an entry of an output queue. -/
def execKmioOut (k : Tok) (o kk : BitVec 2) (s : State) : Out :=
  issue (.kmioOut k o kk) (fun s _ =>
    if oRoom s o = 0 then .stall (.queueFull (8 + o.zeroExtend 4) 1)
    else
      let m := s.readKm kk 32
      let (s1, id) := reserveO s o
      .write s1 2 [.o o id (m.zeroExtend 2048)]) s

/-! ## The counters (R157, R320) -/

/-- The counters as ACCT writes them. -/
def acctBytes (t : Task) : Nat := packBits 64 (t.acct.toList.map BitVec.toNat)

/-- ACCT (R320): counts of instructions that retire in this cycle are not yet in it (DESIGN CHOICE, log 8). -/
def execAcct (k : Tok) (a : BitVec 4) (b : Src) (s : State) : Out :=
  let i := Instr.acct k a b
  issue i (fun s q => withX s q a 0 (fun obj => withSrcVal s q b 1 (fun c =>
    if 32 ≤ c.toNat then .fail causeIllegalInstr 0
    else if fenced s q 0 || (c.getLsbD 4 && fencedPoint s q) then .stall .engine
    else withObj s obj 128 true (fun s1 key leaf _ =>
      match (if c.getLsbD 4 then (s1.seq q).writeErr.find? (fun w => w.path == 0) else none) with
      | some w => .deliver (s1.withSeq q { s1.seq q with writeErr := (s1.seq q).writeErr.erase w }) w.record true
      | none => .act (lostWrite (writeKeyBy s1 (some (q, c.extractLsb 3 0)) key 128 (acctBytes s1.task) leaf) (s.origin q i) 0 (c.extractLsb 3 0) none key obj))))) s

/-- ACCTZ (R320). -/
def execAcctz (k : Tok) (b : Src) (s : State) : Out :=
  issue (.acctz k b) (fun s q => withSrcVal s q b 0 (fun c =>
    if 2 ^ 16 ≤ c.toNat then .fail causeIllegalInstr 0
    else .act (s.withTask { s.task with
      acct := Vector.ofFn (fun i => if c.getLsbD i.val then 0 else s.task.acct.get (BitVec.ofNat 4 i.val)) }))) s

end Sys2Proof.Machine
end

