-- ==== Sys2Proof/Machine/SliceAttention.lean ====
section
/-! DEFINITION. Slice attention requests: ATTQ and ATTW, the pages of a request, its deadline and its completion (R136 to R141,
R158 to R166, R315 to R319). -/

namespace Sys2Proof.Machine

open Sys2Proof

/-! ## The descriptor (R315) -/

def attSp (n w : Nat) : BitVec 2 := BitVec.ofNat 2 (bitsOf n (64 * w + 56) 2)
def attAddr (n w : Nat) : Nat := bitsOf n (64 * w) 56
def attPages (n : Nat) : Nat := bitsOf n 192 10
def attRows (n : Nat) : Nat := bitsOf n 208 4
def attDsel (n : Nat) : Nat := bitsOf n 212 2
def attDim (n : Nat) : Nat := 64 * 2 ^ attDsel n
def attType (n : Nat) : Nat := bitsOf n 216 2
def attSlot (n : Nat) : BitVec 2 := BitVec.ofNat 2 (bitsOf n 220 2)
def attMen (n : Nat) : Bool := bitAt n 222
def attKmen (n : Nat) : Bool := bitAt n 223
def attFb (n : Nat) : Nat := bitsOf n 224 2
def attDeadline (n : Nat) : Nat := bitsOf n 320 64

/-- An address word with a reserved bit or space 11. -/
def attWordBad (n w : Nat) : Bool := bitsOf n (64 * w + 58) 6 != 0 || attSp n w == 3

/-- A descriptor that ATTN_ERROR refuses (R136, R315, R316) (DEDUCED, log 36). R315 has software write zero into word 7, the STATUS, and R316
names reserved bits alone: the model accepts any value there (DESIGN CHOICE, log 36). -/
def attBad (n : Nat) : Bool :=
  [0, 1, 2, 4, 6].any (attWordBad n) || attAddr n 0 % 64 != 0 || attAddr n 1 % 8 != 0 || attAddr n 2 % 16 != 0 || attAddr n 6 % 64 != 0 ||
    attPages n == 0 || decide (512 < attPages n) || attRows n == 0 || decide (8 < attRows n) || attDsel n == 3 ||
    (attType n == 3 && attDsel n == 2) || attFb n == 3 || (!attKmen n && bitsOf n 256 64 != 0) ||
    bitsOf n 202 6 != 0 || bitsOf n 214 2 != 0 || bitsOf n 218 2 != 0 || bitsOf n 226 30 != 0 || bitsOf n 512 512 != 0

/-! ## ATTQ and ATTW (R316, R317, R319) -/

/-- The first idle entry of a table. -/
def idleReq (sq : SeqState) : Option (BitVec 3) := (findFrom (fun r => decide (r.state = .idle)) 0 sq.reqs.toList).map (BitVec.ofNat 3)

/-- A request accepted (R316, R317): its E slot, its entry, its program and its effective deadline (R163). -/
def attEnter (s : State) (q : SeqId) (i : Instr) (n : Nat) (obj : Word64) (idx : BitVec 3) (prog : Option MaskSlot) : State :=
  let (s1, slot) := reserveE s q
  let sq := s1.seq q
  let s2 := s1.withSeq q { sq with reqs := sq.reqs.set idx { Req.idle with state := .busy, obj := obj, eslot := slot } }
  let a : AttReq := { id := s2.nextId, origin := s.origin q i, idx := idx, desc := BitVec.ofNat 1024 n, obj := obj, eslot := slot
                      deadline := BitVec.ofNat 64 (attDeadline n) + s.task.tofs, prog := prog, leaves := [], consumed := []
                      shadowed := [], dropped := [], skipped := [], asked := [], stop := none }
  ((s2.withTask { s2.task with atts := s2.task.atts ++ [a] }).ordered q 4).fresh

/-- ATTQ (R316). -/
def execAttq (k : Tok) (d a : BitVec 4) (s : State) : Out :=
  let i := Instr.attq k d a
  issue i (fun s q => withX s q a 0 (fun obj =>
    if fenced s q 0 ∨ fenced s q 4 then .stall .engine
    else withObj s obj 128 false (fun s1 key leaf _ =>
      match readFails s1 key 128 with
      | some c => .fail c obj
      | none =>
        let n := readKey s1 key 128
        if attBad n then descFault n obj causeAttnError obj
        else if attMen n && coveredHit s1.task q [.mask (attSlot n)] then .stall .pending
        else
          let prog := s1.readMask (attSlot n) 30
          if attMen n && prog.isEmpty then descFault n obj causeMaskIllegal 0
          else if eDepth ≤ (s1.seq q).e.length then .stall .eFifo
          else match idleReq (s1.seq q) with
            | none => .stall .copyBuffer
            | some idx =>
              .write (attEnter (readTouch s1 key leaf) q i n obj idx (if attMen n then some prog else none)) 1
                [.x d (idx.zeroExtend 64) none]))) s

/-- An entry of a table whose record has been delivered. -/
def deliverReq (s : State) (q : SeqId) (tag : BitVec 3) : State :=
  let sq := s.seq q
  s.withSeq q { sq with reqs := sq.reqs.set tag { sq.reqs.get tag with delivered := true } }

/-- ATTW (R319): a record is delivered with POPPED = 0, whatever the ATTW has popped itself. -/
def execAttw (k : Tok) (d a : BitVec 4) (s : State) : Out :=
  issue (.attw k d a) (fun s q => withX s q a 0 (fun v =>
    let tag : BitVec 3 := v.truncate 3
    let r := (s.seq q).reqs.get tag
    if 8 ≤ v.toNat then .fail causeIllegalInstr 0
    else match r.state with
      | .idle => .write s 1 [.x d 0 none]
      | .busy => .done s 1 [] (.sleep (.attw d tag))
      | .completed => .write s 1 [.x d r.status none]
      | .failed => if r.delivered then .write s 1 [.x d r.status none] else .deliver (deliverReq s q tag) (r.record.getD FaultRec.none) false)) s

/-- A sleeping ATTW whose request is no longer running completes, or takes the request's record (R319). -/
def attwWake (s : State) (q : SeqId) : State :=
  match sleeping s q with
  | some w =>
    (match w.kind with
     | .attw d tag =>
       let r := (s.seq q).reqs.get tag
       (match r.state with
        | .busy => s
        | .idle => wake s q w 1 [.x d 0 none]
        | .completed => wake s q w 1 [.x d r.status none]
        | .failed =>
          if r.delivered then wake s q w 1 [.x d r.status none]
          else
            let s1 := deliverReq s q tag
            takeFault s1 (deliverRec s1 q (r.record.getD FaultRec.none) false false))
     | _ => s)
  | none => s

/-! ## Where a request runs (R44, R165) -/

/-- A change of a request, made on the running task or, for a saved task, on its image, as the slice units see it: their
translations do not use the core's cache (R397). -/
def onRequest (s : State) (id : Nat) (f : Reach → State → AttReq → Option State) : Option State :=
  match (if engineLive s then s.task.atts.find? (fun a => a.id == id) else none) with
  | some a =>
    (f (.request a.origin.q) { s with core := { s.core with tlb := [] } } a).map (fun t => { t with core := { t.core with tlb := s.core.tlb } })
  | none =>
    match s.pkg.images.find? (fun i => i.valid && i.task.atts.any (fun a => a.id == id)) with
    | none => none
    | some img =>
      match img.task.atts.find? (fun a => a.id == id) with
      | none => none
      | some a =>
        let v := viewOf s img
        (f (.request a.origin.q) { v with core := { v.core with tlb := [] } } a).map (fun t =>
          unview s img { t with core := { t.core with tlb := s.core.tlb } })

/-- The request changed. -/
def setReq (s : State) (a : AttReq) : State :=
  s.withTask { s.task with atts := updFirst (fun x => x.id == a.id) (fun _ => a) s.task.atts }

/-- The record of a request (R224, R229). -/
def attRecord (s : State) (a : AttReq) (cause : BitVec 8) (addr : Word64) : FaultRec :=
  asyncRec s a.origin { cause := cause, addr := addr, body := some (a.desc.truncate 256), origin := some a.obj
                        progress := BitVec.ofNat 64 a.consumed.length, desc := descWords a.desc }

/-- A request fails: its record is built and logged at once (R224). -/
def attStop (s : State) (a : AttReq) (cause : BitVec 8) (addr : Word64) : State :=
  let r := attRecord s a cause addr
  (setReq s { a with stop := some r }).log 2 r (descWords a.desc)

/-- Who is asked for an absent page: the firmware, by a record, or the tier engine; nobody where a migration already brings it (R162, R402,
R410). -/
inductive Ask where
  | firmware
  | tier (frame : Nat)
  | nobody
  deriving DecidableEq, Repr

/-- A COLD page is asked for at once (R410). -/
def wantPage (s : State) (frame : Nat) : State :=
  s.withPkg { s.pkg with tiers := s.pkg.tiers.map (fun e =>
    { e with pages := updFirst (fun p => p.frame == frame) (fun p => { p with wanted := true }) e.pages }) }

/-- The request with a question noted for one of its pages in place of an earlier one: pages are numbered as the list has them, shadows from
1024, and 512 stands for the operands; a question to the tier engine counts 4096 more. -/
def AttReq.ask (a : AttReq) (code : Nat) : AttReq := { a with asked := code :: a.asked.filter (fun c => c % 4096 != code % 4096) }

/-- A request waits for something not present: whoever brings it is asked once (R162, R402). -/
def attAsk (s : State) (a : AttReq) (page : Nat) (who : Ask) (addr : Word64) : Option State :=
  match who with
  | .nobody => none
  | .firmware =>
    if a.asked.contains page then none
    else some ((setReq s (a.ask page)).log 2 (attRecord s a causeNotPresent addr) (descWords a.desc))
  | .tier f => if a.asked.contains (4096 + page) then none else some (setReq (wantPage s f) (a.ask (4096 + page)))

/-! ## Rows and leaves (R136, R137, R159, R160) -/

/-- The values of `d` elements of a row with its scales (R136, R137): type 4 stands for shadows. -/
def rowNums (etype d v scales : Nat) : List Num :=
  match etype with
  | 0 => (pieces 8 v d).map (decodeNum fmtE4m3)
  | 1 => (pieces 8 v d).map (decodeNum fmtE5m2)
  | 2 => (pieces 8 v d).zipIdx.map (fun p => mxValue 0 (scales / 2 ^ (8 * (p.2 / 32)) % 256) p.1)
  | 3 => (pieces 16 v d).map (decodeNum fmtBf16)
  | _ => (pieces 4 v d).zipIdx.map (fun p => mxValue 13 (scales / 2 ^ (8 * (p.2 / 32)) % 256) p.1)

/-- Bytes of a row. -/
def rowBytes (etype d : Nat) : Nat := match etype with | 3 => 2 * d | 4 => d / 2 | _ => d

/-- The 128 key or value rows at a key, with the scales at another (R136, R137). -/
def rowsAt (r : Reach) (s : State) (etype d base scales : Nat) : List (List Num) :=
  (upTo 128).map (fun j =>
    rowNums etype d (r.value s (base + j * rowBytes etype d) (rowBytes etype d))
      (if etype = 2 ∨ etype = 4 then r.value s (scales + j * (d / 32)) (d / 32) else 0))

/-- binary32 of an exact sum. -/
def sumF32 (l : List (Num × BitVec 7)) : Nat := (toF32 0 (sumAll 0 l).1).1

/-- The identity of merges (R160). -/
def tripleNone (d : Nat) : List Nat := infCode fmtF32 true :: List.replicate (d + 1) 0

/-- The leaf triple of a query row over the allowed slots: m, s and w (R159). -/
def leafTriple (d : Nat) (q : List Num) (slots : List (List Num × List Num)) : List Nat :=
  let scores := slots.map (fun p => sumF32 (products q p.1))
  let nums := scores.map ofF32
  if slots = [] then tripleNone d
  else if nums.any (fun x => x.isNan || x == .inf false) then List.replicate (d + 2) (canonNan fmtF32)
  else
    let m := nums.foldl maxNum (.inf true)
    let ps := nums.map (fun x => ofF32 (toF32 0 (exp2Num (addNum 0 x m.negate).1)).1)
    (toF32 0 m).1 :: sumF32 (ps.map (fun p => (p, 0))) ::
      (upTo d).map (fun i => sumF32 (List.zipWith (fun p y => mulNum p (y.2.getD i (.exact false 0 0))) ps slots))

/-- The merged maximum (R160). -/
def mergeMax (a b : Num) : Nat :=
  if a.isNan || b.isNan || a == .inf false || b == .inf false then canonNan fmtF32 else (toF32 0 (maxNum a b)).1

/-- Merge of two triples (R160). -/
def mergeTriple (a b : List Nat) : List Nat :=
  let am := ofF32 (a.headD 0)
  let bm := ofF32 (b.headD 0)
  mergeMax am bm :: List.zipWith (fun x y => (mergeComp am bm x y).1) a.tail b.tail

/-- The exact quotient of finite values, to enough bits for one rounding. -/
def quotient (neg : Bool) (m1 m2 : Nat) (e : Int) : Num :=
  let k := Nat.log2 m2 + 100
  .fin neg (m1 * 2 ^ k / m2) (e - k) (m1 * 2 ^ k % m2 != 0)

/-- w / s rounded to binary32; +0 when s is zero (R161). -/
def divF32 (w s : Nat) : Nat :=
  match ofF32 w, ofF32 s with
  | _, .fin _ 0 _ _ => 0
  | .nan _, _ => canonNan fmtF32
  | _, .nan _ => canonNan fmtF32
  | .inf _, .inf _ => canonNan fmtF32
  | .inf a, .fin b _ _ _ => infCode fmtF32 (a != b)
  | .fin a _ _ _, .inf b => if a != b then 2 ^ 31 else 0
  | .fin a m1 e1 _, .fin b m2 e2 _ => (toF32 0 (quotient (a != b) m1 m2 (e1 - e2))).1

/-! ## Pages (R161 to R163) -/

/-- A page that a slice unit looks up (R162): present at a key, absent, or refused. -/
inductive PageAt where
  | here (key : Nat) (leaf : Word64)
  | absent (who : Ask)
  | refused
  deriving DecidableEq, Repr

/-- The tier state of a frame, where a tier engine manages it. -/
def tierStateOf (s : State) (frame : Nat) : Option TierState :=
  ((s.pkg.tiers.toList.flatMap TierEngine.pages).find? (fun p => p.frame == frame)).map TierPage.state

/-- The page at a VA for reading (R162). -/
def pageAt (s : State) (va : Nat) : PageAt :=
  let id := s.task.ident
  match translateWalk s id.die id.queue id.world va false with
  | .fail c => if c = causeNotPresent then .absent .firmware else .refused
  | .ok pa leaf =>
    match tierStateOf s (pa / 2 ^ 16) with
    | some .cold => .absent (.tier (pa / 2 ^ 16))
    | some .moving => .absent .nobody
    | _ => .here (keyOf s pa) leaf

/-- What becomes of a page (R161, R162). `absent` carries the key and leaf of a shadow page that is present, with the class of the page, for use at the deadline, and the number of what is absent. -/
inductive PageFate where
  | leaf (s : State) (l : List (List Nat))
  | skip (s : State)
  | absent (shadow : Option (Nat × Word64 × TileClass)) (num : Nat) (who : Ask) (addr : Word64)
  | wait (cause : BitVec 8) (addr : Word64)
  | busy
  | fail (cause : BitVec 8) (addr : Word64)
  deriving DecidableEq, Repr

/-- A span of the request's operands: not present makes the request wait (R402). -/
def attRead (r : Reach) (s : State) (n w off len : Nat) (k : State → Nat → PageFate) : PageFate :=
  match readSpan r (attSp n w) 3 s (attAddr n w + off) len with
  | .stall _ => .busy
  | .fault c x => if c = causeNotPresent then .wait c x else .fail c x
  | .ok s1 v => k s1 v

/-- The query rows of a request (R315). -/
def queryRows (n v : Nat) : List (List Num) :=
  (upTo (attRows n)).map (fun r => (pieces 32 (v / 2 ^ (32 * attDim n * r)) (attDim n)).map ofF32)

/-- The leaf triples of a page for every row (R159): rows at `base`, with scales and tags on the shadow page. -/
def pageLeaves (r : Reach) (s : State) (a : AttReq) (etype keys vals kscale vscale shadow : Nat) (full : Bool) (rows : List (List Num))
    (qtags : List Word64) : List (List Nat) :=
  let d := attDim a.desc.toNat
  let ktags := wordsOf (r.value s (shadow + 0x9000) 1024) 128
  let slots := (rowsAt r s etype d keys kscale).zip (rowsAt r s etype d vals vscale)
  List.zipWith (fun q qt =>
    leafTriple d q (((slots.zip ktags).filter (fun p =>
      full || (!tagPad p.2 && !tagPad qt && (match a.prog with | some g => allowedPair g qt p.2 | none => true)))).map Prod.fst))
    rows qtags

/-- The first failing span among those of a page that a leaf reads (R226). -/
def spanFails (s : State) : List (Nat × Nat) → Option (BitVec 8)
  | [] => none
  | (k, n) :: t => match readFails s k n with | some c => some c | none => spanFails s t

/-- Every span of a page that has been read, touched. -/
def touchSpans (s : State) (leaf : Word64) (spans : List (Nat × Nat)) : State := spans.foldl (fun s p => touchRange s p.1 p.2 leaf false) s

/-- Page `i` of a request as a slice unit meets it (R161, R162) (DEDUCED, log 36). A block page mapped without a tier hint breaks R140, which
gives the fault of its chapter (R4). -/
def pageFate (r : Reach) (s : State) (a : AttReq) (i : Nat) : PageFate :=
  let n := a.desc.toNat
  let d := attDim n
  let dropped := fun (s : State) (k : State → Bool → PageFate) =>
    if attKmen n then attRead r s n 4 0 64 (fun s1 v => k s1 (!bitAt v i)) else k s false
  dropped s (fun s0 skip =>
    if skip then .skip s0
    else attRead r s0 n 2 (16 * i) 16 (fun s1 ref =>
      match blockRef ref with
      | .hole => .skip s1
      | .bad => .fail causeAttnError (faddr (attSp n 2) (BitVec.ofNat 64 (attAddr n 2 + 16 * i)))
      | .block sh blk =>
        let at_ := fun (va : Nat) => faddr 2 (BitVec.ofNat 64 va)
        match pageAt s1 sh with
        | .refused => .fail causeAttnError (at_ sh)
        | .absent who => .absent none (1024 + i) who (at_ sh)
        | .here sk sleaf =>
          match readFails s1 (sk + 0x9400) 64, summaryOf (r.value s1 (sk + 0x9400) 64) with
          | some c, _ => .fail c (at_ (sh + 0x9400))
          | none, none => .fail causeAttnError (at_ (sh + 0x9400))
          | none, some sm =>
            attRead r s1 n 1 0 (8 * attRows n) (fun s2 tv =>
              let qtags := wordsOf tv (attRows n)
              let cls := classTile a.prog qtags sm
              if cls = .empty then .skip s2
              else match pageAt s2 blk with
                | .refused => .fail causeAttnError (at_ blk)
                | .absent who => .absent (some (sk, sleaf, cls)) i who (at_ blk)
                | .here bk bleaf =>
                  if bleaf.extractLsb 7 6 = 0 then .fail causeAttnError (at_ blk) else
                  attRead r s2 n 0 0 (4 * d * attRows n) (fun s3 qv =>
                    let rb := rowBytes (attType n) d
                    let mx := if attType n = 2 then [(sk + 0x8800, 128 * (d / 32)), (sk + 0x8C00, 128 * (d / 32))] else []
                    match spanFails s3 ([(bk, 128 * rb), (bk + 0x8000, 128 * rb)] ++ mx) with
                    | some c => .fail c (at_ blk)
                    | none =>
                      match readFails s3 (sk + 0x9000) 1024 with
                      | some c => .fail c (at_ (sh + 0x9000))
                      | none =>
                        let l := pageLeaves r s3 a (attType n) bk (bk + 0x8000) (sk + 0x8800) (sk + 0x8C00) sk (cls == .full)
                          (queryRows n qv) qtags
                        .leaf (touchSpans (touchSpans s3 sleaf ((sk + 0x9000, 1088) :: mx)) bleaf [(bk, 128 * rb), (bk + 0x8000, 128 * rb)]) l))))

/-- The leaf triples of a page from its shadow (R163) (DEDUCED, log 36). -/
def shadowFate (r : Reach) (s : State) (a : AttReq) (sk : Nat) (sleaf : Word64) (cls : TileClass) (addr : Word64) : PageFate :=
  let n := a.desc.toNat
  let d := attDim n
  attRead r s n 1 0 (8 * attRows n) (fun s1 tv => attRead r s1 n 0 0 (4 * d * attRows n) (fun s2 qv =>
    let spans := [(sk, 64 * d), (sk + 0x4000, 64 * d), (sk + 0x8000, 4 * d), (sk + 0x8400, 4 * d), (sk + 0x9000, 1088)]
    match spanFails s2 spans with
    | some c => .fail c addr
    | none =>
      .leaf (touchSpans s2 sleaf spans)
        (pageLeaves r s2 a 4 sk (sk + 0x4000) (sk + 0x8000) (sk + 0x8400) sk (cls == .full) (queryRows n qv) (wordsOf tv (attRows n)))))

/-- A page that still has to be dealt with. -/
def pageOpen (a : AttReq) (i : Nat) : Bool :=
  decide (i < attPages a.desc.toNat) && !(a.consumed.contains i || a.shadowed.contains i || a.dropped.contains i || a.skipped.contains i)

/-- A page consumed, skipped, asked for or failed (R161, R162). -/
def consumeStep (r : Reach) (s : State) (a : AttReq) (i : Nat) : Option State :=
  if a.stop.isSome || !pageOpen a i then none
  else
    match pageFate r s a i with
    | .leaf s1 l => some (setReq s1 { a with leaves := a.leaves ++ [(i, l)], consumed := a.consumed ++ [i] })
    | .skip s1 => some (setReq s1 { a with skipped := a.skipped ++ [i] })
    | .fail c x => some (attStop s a c x)
    | .wait _ x => attAsk s a 512 .firmware x
    | .busy => none
    | .absent _ k who x => attAsk s a k who x

/-- ATTQ_PAGE_CONSUME (R162): a page that is absent and asked for already leaves the request as it is. -/
def attqConsume (s : State) (req page : Nat) : Option State := onRequest s req (fun r s a => consumeStep r s a page)

def execAttqPageConsume (req page : Nat) (s : State) : Out := .next ((attqConsume s req page).getD s)

/-! ## The deadline (R163, R318) -/

/-- An open page at the deadline: consumed if present, else as FB says. None while an operand is missing. -/
def lateStep (r : Reach) (s : State) (a : AttReq) (i : Nat) : Option (State × AttReq) :=
  match pageFate r s a i with
  | .leaf s1 l => some (s1, { a with leaves := a.leaves ++ [(i, l)], consumed := a.consumed ++ [i] })
  | .skip s1 => some (s1, { a with skipped := a.skipped ++ [i] })
  | .fail c x => let s1 := attStop s a c x; some (s1, { a with stop := some (attRecord s a c x) })
  | .wait _ _ => none
  | .busy => none
  | .absent shadow _ _ x =>
    match attFb a.desc.toNat, shadow with
    | 2, _ => let s1 := attStop s a causeAttnError x; some (s1, { a with stop := some (attRecord s a causeAttnError x) })
    | 0, some (sk, sleaf, cls) =>
      (match shadowFate r s a sk sleaf cls x with
       | .leaf s1 l => some (s1, { a with leaves := a.leaves ++ [(i, l)], shadowed := a.shadowed ++ [i] })
       | .fail c y => let s1 := attStop s a c y; some (s1, { a with stop := some (attRecord s a c y) })
       | _ => none)
    | _, _ => some (s, { a with dropped := a.dropped ++ [i] })

/-- Every open page from `i` at the deadline. -/
def lateAll (r : Reach) : Nat → State → AttReq → Nat → State
  | 0, s, a, _ => setReq s a
  | k + 1, s, a, i =>
    if a.stop.isSome then setReq s a
    else if pageOpen a i then
      match lateStep r s a i with
      | some (s1, a1) => lateAll r k s1 a1 (i + 1)
      | none => lateAll r k s a (i + 1)
    else lateAll r k s a (i + 1)

/-- ATTQ_DEADLINE (R163): a request without a deadline, or before it, or with no page left, stays as it is. -/
def attqLate (s : State) (req : Nat) : Option State :=
  onRequest s req (fun r s a =>
    if attDeadline a.desc.toNat != 0 && decide (a.deadline.toNat ≤ s.time.toNat) && a.stop.isNone &&
        (upTo (attPages a.desc.toNat)).any (pageOpen a) then
      let s1 := lateAll r 512 s a 0
      if s1 = setReq s a then none else some s1
    else none)

def execAttqDeadline (req : Nat) (s : State) : Out := .next ((attqLate s req).getD s)

/-! ## Completion (R161, R164, R318) -/

/-- The root of the tree for a row (R161). -/
def rootOf (a : AttReq) (row : Nat) : List Nat :=
  let n := a.desc.toNat
  let leaf := fun (i : Nat) => match a.leaves.find? (fun p => p.1 == i) with
    | some p => p.2.getD row (tripleNone (attDim n))
    | none => tripleNone (attDim n)
  (reduceTree mergeTriple 10 ((upTo (attPages n)).map leaf)).headD (tripleNone (attDim n))

/-- Bytes written by a request at an address of a space, page by page, on path 4 (R89, R318). -/
def writeSpan (r : Reach) (a : AttReq) (sp : BitVec 2) : Nat → State → Nat → Nat → Nat → Got
  | 0, s, _, _, _ => .ok s 0
  | fuel + 1, s, addr, n, v =>
    let m := Nat.min n (chunkTo sp addr)
    match reachPlace r s sp addr true with
    | (_, .fault c) => .fault c (faddr sp (BitVec.ofNat 64 addr))
    | (_, .stall w) => .stall w
    | (s1, .key key leaf) =>
      let s2 := lostWrite (putBytes s1 key m (s1.writeLate a.origin.q 4 key m (v % 2 ^ (8 * m))) leaf) a.origin 4 0 (some a.eslot) key (faddr sp (BitVec.ofNat 64 addr))
      if n ≤ m then .ok s2 0 else writeSpan r a sp fuel s2 (addr + m) (n - m) (v / 2 ^ (8 * m))

/-- A list of writes (offset, bytes, value) from OUT. -/
def writeAll (r : Reach) (a : AttReq) (sp : BitVec 2) (base : Nat) : State → List (Nat × Nat × Nat) → Got
  | s, [] => .ok s 0
  | s, (off, n, v) :: t =>
    match writeSpan r a sp 3 s ((base + off) % 2 ^ 56) n v with
    | .ok s1 _ => writeAll r a sp base s1 t
    | x => x

/-- The writes of a request that has not failed (R318). -/
def resultWrites (a : AttReq) : List (Nat × Nat × Nat) :=
  let n := a.desc.toNat
  let d := attDim n
  (upTo (attRows n)).flatMap (fun r =>
    let t := rootOf a r
    let sm := t.getD 1 0
    let w := t.drop 2
    [(0x1000 * r, 4 * d, packBits 32 (w.map (fun x => divF32 x sm))), (0x1000 * r + 0x400, 4 * d, packBits 32 w),
     (0x1000 * r + 0x800, 4, t.getD 0 0), (0x1000 * r + 0x804, 4, sm)]) ++
    [(0x8000, 64, (maskOfTiles a.shadowed).toNat), (0x8040, 64, (maskOfTiles a.dropped).toNat)]

/-- Pages replaced or dropped make the request degraded (R164). -/
def attDegraded (a : AttReq) : Bool := !a.shadowed.isEmpty || !a.dropped.isEmpty

/-- The status word (R318). -/
def attStatus (a : AttReq) (stop : Option FaultRec) : Word64 :=
  let failed := stop.isSome
  BitVec.ofNat 64 (1 + failed.toNat * 2 + (!failed && attDegraded a).toNat * 4 +
    (match stop with | some r => bitsOf r.cause.toNat 0 8 | none => 0) * 2 ^ 8 +
    a.consumed.length * 2 ^ 16 + a.shadowed.length * 2 ^ 26 + a.dropped.length * 2 ^ 36 + a.skipped.length * 2 ^ 46)

/-- Rows that end with s = 0 (R161). -/
def noKeyRows (a : AttReq) : Nat :=
  countOf (fun r => match ofF32 ((rootOf a r).getD 1 0) with | .fin _ 0 _ _ => true | _ => false) (upTo (attRows a.desc.toNat))

/-- The counts of a request, added when its token is pushed (R158). -/
def attCounts (t : Task) (a : AttReq) (failed : Bool) : Task :=
  let t1 := (((t.count 10 a.consumed.length).count 11 a.skipped.length).count 12 a.shadowed.length).count 13 a.dropped.length
  if failed then t1 else (t1.count 14 (noKeyRows a)).count 15 (attDegraded a).toNat

/-- The request ends: its status, its counts, its token and its entry (R317, R318); `s` holds its results, `s0` the memory without them. A page of
the status that is not present makes it wait, as one of its results does; a status that cannot be written for another reason fails the request,
none of whose results is then written, and of a failed one it is dropped (DEDUCED, log 36). -/
def attEnd (r : Reach) (s0 s : State) (a : AttReq) (stop : Option FaultRec) : Option State :=
  let status := attStatus a stop
  let sp : BitVec 2 := a.obj.extractLsb 57 56
  let addr := (a.obj.extractLsb 55 0).toNat + 56
  let close := fun (s1 : State) =>
    let t := attCounts s1.task a stop.isSome
    let q := a.origin.q
    let t1 := t.fillE q a.eslot stop.isNone stop
    let sq := t1.seqs.get q.num
    let done := { sq.reqs.get a.idx with state := if stop.isSome then .failed else .completed, status := status, record := stop }
    let t2 := t1.withSeq q { sq with reqs := sq.reqs.set a.idx done }
    attwWake (s1.withTask { t2 with atts := t2.atts.filter (fun x => x.id != a.id) }) q
  match writeSpan r a sp 1 s addr 8 status.toNat with
  | .ok s1 _ => some (close s1)
  | .stall _ => none
  | .fault c x =>
    if c = causeNotPresent then attAsk s0 a 513 .firmware x
    else if stop.isSome then some (close s)
    else some (attStop s0 a c x)

/-- ATTQ_COMPLETE (R318): a request with pages left stays as it is; one whose results cannot be written fails. -/
def attqDone (s : State) (req : Nat) : Option State :=
  onRequest s req (fun r s a =>
    match a.stop with
    | some x => attEnd r s s a (some x)
    | none =>
      if (upTo (attPages a.desc.toNat)).any (pageOpen a) then none
      else
        match writeAll r a (attSp a.desc.toNat 6) (attAddr a.desc.toNat 6) s (resultWrites a) with
        | .ok s1 _ => attEnd r s s1 a none
        | .stall _ => none
        | .fault c x => if c = causeNotPresent then attAsk s a 512 .firmware x else some (attStop s a c x))

def execAttqComplete (req : Nat) (s : State) : Out := .next ((attqDone s req).getD s)

end Sys2Proof.Machine
end

