-- ==== Sys2Proof/Machine/Yards.lean ====
section
/-! DEFINITION. What a yard reads and decides: memory through a queue's tables (R369), the level table (R24 to R27), placement
(R27, R386), launch records (R380) and plane images (R382). -/

namespace Sys2Proof.Machine

open Sys2Proof

/-! ## Memory through a queue's tables (R369) -/

/-- WORLD of a queue entry (R373). -/
def Queue.world (x : Queue) : BitVec 6 := x.entry.extractLsb 133 128

/-- The world of a queue. -/
def queueWorld (s : State) (die : BitVec 2) (queue : BitVec 10) : BitVec 6 :=
  match queueOf s die queue with
  | some x => x.world
  | none => 0

/-- A VA in a queue's tables, checked against the queue's world. -/
def yardXlate (s : State) (die : BitVec 2) (queue : BitVec 10) (va : Nat) (write : Bool) : Xlate :=
  if 2 ^ 56 ≤ va then .fail causePermission else translateWalk s die queue (queueWorld s die queue) va write

/-- The value of `n` bytes that the yard reads at a VA, if the read succeeds. -/
def yardRead (s : State) (die : BitVec 2) (queue : BitVec 10) (va n : Nat) : Option Nat :=
  match yardXlate s die queue va false with
  | .ok pa _ => if (readFails s (keyOf s pa) n).isSome then none else some (readKey s (keyOf s pa) n)
  | .fail _ => none

/-- The lines of `n` bytes that the yard has read at a VA, as accesses (R407). -/
def yardTouch (s : State) (die : BitVec 2) (queue : BitVec 10) (va n : Nat) : State :=
  (upTo ((va + n + 127) / 128 - va / 128)).foldl (fun s i =>
    match yardXlate s die queue ((va / 128 + i) * 128) false with
    | .ok pa leaf => touch s (keyOf s pa) (queueWorld s die queue) leaf false
    | .fail _ => s) s

/-- A write of `n` bytes at a memory key by a party of a world. -/
def partyWrite (s : State) (world : BitVec 6) (key n v : Nat) (leaf : Word64) : State :=
  if isYard key then yardStore s key n
  else if noRoute s key then s
  else (touch s key world leaf true).store key n v

/-- The yard writes `n` bytes at a VA; a VA that it cannot write takes nothing (DEDUCED, log 48). -/
def yardWrite (s : State) (die : BitVec 2) (queue : BitVec 10) (va n v : Nat) : State :=
  match yardXlate s die queue va true with
  | .ok pa leaf => partyWrite s (queueWorld s die queue) (keyOf s pa) n v leaf
  | .fail _ => s

/-- A completion signal decremented by 1 at its home (R379). -/
def yardDecrement (s : State) (die : BitVec 2) (queue : BitVec 10) (va : Nat) : State :=
  match yardRead s die queue va 8 with
  | some v => yardWrite s die queue va 8 ((v + 2 ^ 64 - 1) % 2 ^ 64)
  | none => s

/-! ## The level table (R24 to R26) -/

def levelExtent (e : Word64) : Nat := bitsOf e.toNat 0 24
def levelDomain (e : Word64) : Nat := bitsOf e.toNat 24 3
def levelScope (e : Word64) : Nat := bitsOf e.toNat 27 3
def levelGang (e : Word64) : Bool := e.getLsbD 30
def levelPlace (e : Word64) : Nat := bitsOf e.toNat 31 3

/-- The declared levels, level 0 first (R24). -/
def declared (t : RegFile 3 Word64) : List Word64 := t.toList.takeWhile (fun e => levelExtent e != 0)

/-- The product of the extents. -/
def groupSizeOf (l : List Word64) : Nat := (l.map levelExtent).foldl (· * ·) 1

/-- Cores of one instance of a domain (R25). -/
def domainCores (d : Nat) : Nat := match d with | 0 => 1 | 1 => 4 | 2 => 32 | 3 => 512 | _ => 2048

/-- The levels up to the highest one that is a gang (R30). -/
def gangLevels (l : List Word64) : List Word64 :=
  match l with
  | [] => []
  | e :: t => match gangLevels t with
    | [] => if levelGang e then [e] else []
    | u => e :: u

/-- A level of a placement: extent, domain, placement rule, whether it is a gang, size of one member and of one group, in tasks. -/
structure LevelShape where
  extent : Nat
  domain : Nat
  rule : Nat
  gang : Bool
  member : Nat
  size : Nat
  deriving DecidableEq, Repr

/-- The levels with their sizes, level 0 first; `below` is the size of a member of the first. -/
def shapesOf (below : Nat) : List Word64 → List LevelShape
  | [] => []
  | e :: t =>
    { extent := levelExtent e, domain := levelDomain e, rule := levelPlace e, gang := levelGang e, member := below, size := below * levelExtent e } ::
      shapesOf (below * levelExtent e) t

/-! ## Placement (R27, R386; DESIGN CHOICE, log 14) -/

/-- Column and floor of a core, counted over the package (R2). -/
def columnIdx (c : Nat) : Nat := c / 4
def floorIdx (c : Nat) : Nat := c % 4

/-- Cores left for the next member after `used` are taken; under SPREAD their columns are taken too. -/
def leftOver (spread : Bool) (avail used : List Nat) : List Nat :=
  avail.filter (fun c => !used.any (fun u => if spread then columnIdx u == columnIdx c else u == c))

/-- The core for one task as the yard chooses it among those available, a free value: a core of the package's first die that has one where
the tasks are unbound (R27, R386, log 3). -/
def chooseCore (ctr : Nat) (unbound _ : Bool) (avail : List Nat) : Option Nat :=
  let near := if unbound then avail.filter (fun c => c / 512 == avail.headD 0 / 512) else avail
  match near with
  | [] => none
  | [c] => some c
  | _ => near[Config.pick ctr (2 ^ 50 + 4096 * avail.length + avail.headD 0) near.length % near.length]?

/-- The core for one task where the yard's own choice leaves no room for the rest of the group: the lowest, or under SPREAD the lowest of
the column with the most cores left. -/
def pickCore (spread : Bool) (avail : List Nat) : Option Nat :=
  if spread then
    let n := fun (c : Nat) => countOf (fun x => columnIdx x == columnIdx c) avail
    avail.foldl (fun b c => match b with | none => some c | some y => if n y < n c then some c else some y) none
  else avail.head?

/-- Cores for `k` members of `m` tasks in turn; `old` are the cores that their tasks had, if any. -/
def placeMembers (m : Nat) (spread : Bool) (member : List Nat → Bool → List Nat → Option (List Nat)) :
    Nat → List Nat → List Nat → Option (List Nat)
  | 0, _, _ => some []
  | k + 1, old, avail =>
    match member (old.take m) spread avail with
    | none => none
    | some used => (placeMembers m spread member k (old.drop m) (leftOver spread avail used)).map (fun l => used ++ l)

/-- Cores for the members of a FILL level from a base (R27): member j in the j-th range of `m` positions. -/
def placeFill (m : Nat) (spread : Bool) (member : List Nat → Bool → List Nat → Option (List Nat)) :
    Nat → Nat → List Nat → List Nat → Option (List Nat)
  | 0, _, _, _ => some []
  | k + 1, base, old, avail =>
    let range := avail.filter (fun c => decide (base ≤ c) && decide (c < base + m))
    match member (old.take m) spread range with
    | none => none
    | some used => (placeFill m spread member k (base + m) (old.drop m) (leftOver spread avail used)).map (fun l => used ++ l)

/-- The instances of a domain, as numbers, that a list of cores touches. -/
def instancesIn (d : Nat) (avail : List Nat) : List Nat := (upTo (2048 / domainCores d)).filter (fun k => avail.any (fun c => c / domainCores d == k))

/-- A list turned by a number of places. -/
def turned (k : Nat) (l : List Nat) : List Nat := l.drop (k % l.length) ++ l.take (k % l.length)

/-- The ways to choose a core for one task, each with those that are tried after it. -/
def fromEach {α : Type} : List α → List (List α)
  | [] => []
  | a :: t => (a :: t) :: fromEach t

/-- Cores for one group of the given levels, outermost level first, in TASKID order, from the cores available (R27, R386): the lowest
instance of each level's domain in which its rule can be met by one of the `picks`, which give the core for one task and are tried in turn in
each instance; the bases of a FILL level are tried from the one that `turn` names. For a saved group `old` gives the cores that its tasks had:
a gang level stays in the instance that it had (R14), and the task that had the core `own` has it again, no other task taking it (log 14). -/
def assign (turn : Nat) (own : Option Nat) :
    List LevelShape → List (Bool → List Nat → Option Nat) → List Nat → Bool → List Nat → Option (List Nat)
  | [], picks, old, spread, avail =>
    if own.isSome ∧ old.head? = own then (avail.find? (fun c => decide (some c = own))).map (fun c => [c])
    else (firstSome (fun p => p spread (avail.filter (fun c => !decide (some c = own)))) picks).map (fun c => [c])
  | t :: rest, picks, old, spread, avail =>
    firstSome (fun k =>
      let cand := avail.filter (fun c => c / domainCores t.domain == k)
      if cand.length < t.size then none
      else firstSome (fun ps => match t.rule with
        | 1 => firstSome (fun b => placeFill t.member spread (assign turn own rest ps) t.extent (k * domainCores t.domain + b * t.size) old cand)
                 (turned turn (upTo (domainCores t.domain / t.size)))
        | 2 => placeMembers t.member true (assign turn own rest ps) t.extent old cand
        | 3 => firstSome (fun f => placeMembers t.member spread (assign turn own rest ps) t.extent old (cand.filter (fun c => floorIdx c == f))) (upTo 4)
        | _ => placeMembers t.member spread (assign turn own rest ps) t.extent old cand) (fromEach picks))
      (match old with | c :: _ => if t.gang then [c / domainCores t.domain] else instancesIn t.domain avail | [] => instancesIn t.domain avail)

/-- The cores that each level outside the gang leaves to a group that begins at task `t0` (R25, R27), as alternatives in order:
its instance where siblings already run, else any; then what its rule leaves. A level with DOMAIN 5 has no domain instance inside which
its PLACE could arrange members; R27 does not say what it asks there, and the model ignores it (DESIGN CHOICE, log 14). -/
def outerChoices (t0 : Nat) (placed : List (Nat × Nat)) : List LevelShape → List Nat → List (List Nat)
  | [], avail => [avail]
  | t :: rest, avail =>
    if t.domain = 5 then outerChoices t0 placed rest avail
    else
      let sibs := placed.filter (fun p => p.1 / t.size == t0 / t.size)
      let w := domainCores t.domain
      let inst := match sibs with | [] => instancesIn t.domain avail | p :: _ => [p.2 / w]
      let alts := inst.flatMap (fun k =>
        let cand := avail.filter (fun c => c / w == k)
        match t.rule with
        | 1 =>
          let bases := match sibs with | [] => upTo (w / t.size) | p :: _ => [p.2 % w / t.size]
          bases.map (fun b =>
            let lo := k * w + b * t.size + (t0 % t.size) / t.member * t.member
            cand.filter (fun c => decide (lo ≤ c) && decide (c < lo + t.member)))
        | 2 => [cand.filter (fun c => !sibs.any (fun p => columnIdx p.2 == columnIdx c))]
        | 3 => (match sibs with | [] => upTo 4 | p :: _ => [floorIdx p.2]).map (fun f => cand.filter (fun c => floorIdx c == f))
        | _ => [cand])
      alts.flatMap (outerChoices t0 placed rest)

/-- Cores for the gang group that begins at task `t0` of a launch with these levels, from the cores available in order: as the yard
chooses by the free value of `ctr`, and in the lowest instances in which its tasks fit at all; for a saved group in the instances that it had
(R14, R386). -/
def assignGroup (ctr : Nat) (levels : List Word64) (t0 : Nat) (placed : List (Nat × Nat)) (own : Option Nat) (old avail : List Nat) :
    Option (List Nat) :=
  let inner := gangLevels levels
  let outer := shapesOf (groupSizeOf inner) (levels.drop inner.length)
  let spread := outer.any (fun t => t.domain != 5 && t.rule == 2)
  let unbound := match levels with | e :: _ => levelDomain e == 5 | [] => false
  firstSome (assign (Config.pick ctr (2 ^ 51) 2048) own (shapesOf 1 inner).reverse [chooseCore ctr unbound, pickCore] old spread)
    (outerChoices t0 placed outer.reverse avail)

/-- Conditions of R26 on a level, above a level of domain `below`; `size` is the size of its group. -/
def levelOk (below size : Nat) (e : Word64) : Bool :=
  let d := levelDomain e
  decide (d ≤ 5) && decide (below ≤ d) && decide (levelScope e ≤ 5) &&
    (if d = 5 then decide (4 ≤ levelScope e) else decide (d ≤ levelScope e) && decide (size ≤ domainCores d)) &&
    !(levelGang e && d == 5) && decide (levelPlace e ≤ 3)

/-- The conditions on every declared level (R26). -/
def levelsOk : Nat → Nat → List Word64 → Bool
  | _, _, [] => true
  | below, size, e :: t => levelOk below (size * levelExtent e) e && levelsOk (levelDomain e) (size * levelExtent e) t

/-- The bound levels can be placed in one empty instance of the outermost one's domain (R26). -/
def satisfiable (l : List Word64) : Bool :=
  let shapes := (shapesOf 1 (l.takeWhile (fun e => levelDomain e != 5))).reverse
  match shapes with
  | [] => true
  | t :: _ => (assign 0 none shapes [pickCore] [] false (upTo (domainCores t.domain))).isSome

/-- A level table is valid (R24, R26). -/
def levelTableOk (t : RegFile 3 Word64) : Bool :=
  let l := declared t
  !l.isEmpty && (t.toList.drop l.length).all (fun e => e == 0) && t.toList.all (fun e => bitsOf e.toNat 34 30 == 0) &&
    levelsOk 0 1 l && satisfiable l

/-! ## Launch records (R380) -/

def recPresent (r : RegFile 6 Word64) : BitVec 4 := BitVec.ofNat 4 (r.get 0).toNat
def recWorld (r : RegFile 6 Word64) : BitVec 6 := BitVec.ofNat 6 (bitsOf (r.get 0).toNat 24 6)
def recSplit (r : RegFile 6 Word64) : BitVec 4 := if (r.get 0).getLsbD 8 then BitVec.ofNat 4 (bitsOf (r.get 0).toNat 4 4) else 2
def recStack (r : RegFile 6 Word64) (q : SeqId) : Word64 := r.get (4 + q.num.zeroExtend 6)
def recEntry (r : RegFile 6 Word64) (q : SeqId) : BitVec 16 := BitVec.ofNat 16 (bitsOf (r.get 8).toNat (16 * q.num.toNat) 16)
def recLevels (r : RegFile 6 Word64) : RegFile 3 Word64 := Vector.ofFn (fun i => r.get (BitVec.ofNat 6 (32 + i.val)))
def recHandler (r : RegFile 6 Word64) : Nat := (r.get 12).toNat

/-- Bits of each word that a record may set (R380); words of the level table have their own checks. -/
def recMask (i : Nat) : Nat :=
  if i = 0 then 0x3F0F01FF
  else if i = 6 ∨ i = 14 ∨ i = 15 ∨ 40 ≤ i then 0
  else if i = 4 ∨ i = 5 ∨ i = 7 then 2 ^ 58 - 1
  else if i = 8 ∨ i = 9 ∨ i = 11 then 2 ^ 64 - 1
  else if i = 13 then 0x1FF
  else if 16 ≤ i ∧ i < 32 then (if i % 2 = 0 then 2 ^ 56 - 1 else 2 ^ 32 - 1)
  else if 32 ≤ i then 2 ^ 64 - 1
  else 2 ^ 56 - 1

/-- The addresses of a record that the yard translates when it checks it (R380): ARGS, PLANE, SCRBASE, the stacks that lie in global
memory, and where given SUCCREC and HANDLER (DEDUCED, log 38). -/
def recAddrs (r : RegFile 6 Word64) : List Nat :=
  [1#6, 2#6, 3#6].map (fun i => (r.get i).toNat) ++ ([10#6, 12#6].map (fun i => (r.get i).toNat)).filter (fun a => a != 0) ++
    ([4#6, 5#6, 7#6].filter (fun i => (r.get i).getLsbD 57)).map (fun i => ((r.get i).extractLsb 55 0).toNat)

/-- A record is valid for a queue (R380), but for its plane image. -/
def recordOk (s : State) (die : BitVec 2) (queue : BitVec 10) (r : RegFile 6 Word64) : Bool :=
  let w0 := (r.get 0).toNat
  let qprio := match queueOf s die queue with | some x => bitsOf x.entry.toNat 136 4 | none => 0
  (upTo 64).all (fun i => (r.get (BitVec.ofNat 6 i)).toNat &&& recMask i == (r.get (BitVec.ofNat 6 i)).toNat) &&
    recPresent r != 0 && decide (bitsOf w0 4 4 ≤ 8) && decide (bitsOf w0 16 4 ≤ qprio) && recWorld r == queueWorld s die queue &&
    (r.get 2).toNat % 64 == 0 && (r.get 3).toNat % 2 ^ 21 == 0 && (r.get 10).toNat % 512 == 0 &&
    [4#6, 5#6, 7#6].all (fun i => (r.get i).toNat % 16 == 0 && !(r.get i).getLsbD 56) &&
    [SeqId.S, .L, .C, .W].all (fun q => (recEntry r q).toNat % 4 == 0 && decide ((recEntry r q).toNat < 0x8000)) &&
    ((r.get 10) == 0 || (r.get 11) != 0) && levelTableOk (recLevels r) &&
    (recAddrs r).all (fun a => match yardXlate s die queue a false with | .ok _ _ => true | .fail _ => false)

/-- The 64 words of a value. -/
def recordOfNat (v : Nat) : RegFile 6 Word64 := Vector.ofFn (fun i => BitVec.ofNat 64 (v / 2 ^ (64 * i.val)))

/-! ## Plane images (R382) -/

/-- A word of an instruction memory that no image gives (R382). -/
def imFill : Word32 := 0x7C000000#32

/-- A plane without a word of code, as an empty image leaves it (R382). -/
def Plane.blank : Plane := { Plane.clear with fill := imFill }

/-- An 8-byte word of an image, from a page with CODE = 1 (R396). -/
def imageWord (s : State) (die : BitVec 2) (queue : BitVec 10) (va : Nat) : Option Nat :=
  match yardXlate s die queue va false with
  | .ok pa leaf => if leaf.getLsbD 3 && (readFails s (keyOf s pa) 8).isNone then some (readKey s (keyOf s pa) 8) else none
  | .fail _ => none

/-- `n` words of an image. -/
def imageWords (rd : Nat → Option Nat) (va : Nat) : Nat → Option (List Word64)
  | 0 => some []
  | n + 1 =>
    match rd va with
    | none => none
    | some w => (imageWords rd (va + 8) n).map (fun l => BitVec.ofNat 64 w :: l)

/-- The words of code of one sequencer, as instruction memory lists them. -/
def codeCells (k : Nat) : List Word32 → List (Nat × Word32)
  | [] => []
  | w :: t => if w = imFill then codeCells (k + 1) t else (k, w) :: codeCells (k + 1) t

/-- Two instruction words of each 8-byte word. -/
def halves (l : List Word64) : List Word32 := l.flatMap (fun w => [w.truncate 32, w.extractLsb 63 32])

/-- The length of a section rounded up to 64 bytes (R382). -/
def sectionLen (n : Nat) : Nat := (n + 63) / 64 * 64

/-- The four code sections from an address, and the address after them. -/
def imageCode (rd : Nat → Option Nat) (counts : Nat) : List SeqId → Nat → Plane → Option (Plane × Nat)
  | [], va, p => some (p, va)
  | q :: t, va, p =>
    let n := bitsOf counts (16 * q.num.toNat) 16
    match imageWords rd va ((n + 1) / 2) with
    | none => none
    | some l => imageCode rd counts t (va + sectionLen (4 * n)) { p with im := p.im.set q.num (codeCells 0 ((halves l).take n)) }

/-- Template records, each with its latency class computed (R184, R382). -/
def imageTemplates (rd : Nat → Option Nat) : Nat → Nat → Nat → Plane → Option Plane
  | 0, _, _, p => some p
  | n + 1, k, va, p =>
    match imageWords rd va 4 with
    | none => none
    | some l => imageTemplates rd n (k + 1) (va + 32)
        { p with tpl := p.tpl.set (BitVec.ofNat 6 k) (withLatClass (BitVec.ofNat 256 (packBits 64 (l.map BitVec.toNat)))) }

/-- Mask programs of the present slots; an illegal one makes the image invalid (R145, R382). -/
def imageMasks (rd : Nat → Option Nat) : List (BitVec 2) → Nat → Plane → Option Plane
  | [], _, p => some p
  | m :: t, va, p =>
    match imageWords rd va 17 with
    | some (n :: ws) =>
      let prog := ws.take n.toNat
      if 16 < n.toNat ∨ (programFault prog).isSome then none
      else imageMasks rd t (va + 136) { p with masks := p.masks.set m prog }
    | _ => none

/-- Stream descriptors; an invalid one makes the image invalid (R243, R382). -/
def imageStreams (rd : Nat → Option Nat) : Nat → Nat → Nat → Plane → Option Plane
  | 0, _, _, p => some p
  | n + 1, k, va, p =>
    match imageWords rd va 8 with
    | none => none
    | some l =>
      let d := packBits 64 (l.map BitVec.toNat)
      if streamValid d then
        imageStreams rd n (k + 1) (va + 64)
          { p with streams := p.streams.set (BitVec.ofNat 4 k) { desc := BitVec.ofNat 512 d, valid := true, pend := 0 } }
      else none

/-- The plane that an image at a VA gives; none where it is invalid or cannot be read (R382). -/
def loadImage (rd : Nat → Option Nat) (va : Nat) : Option Plane :=
  match imageWords rd va 8 with
  | some (w0 :: w1 :: rest) =>
    let ntpl := bitsOf w1.toNat 0 7
    let maskv := bitsOf w1.toNat 8 4
    let nstream := bitsOf w1.toNat 16 5
    let slots := [0#2, 1#2, 2#2, 3#2].filter (fun m => bitAt maskv m.toNat)
    if rest.any (fun w => w != 0) ∨ w1.toNat &&& 0x1F0F7F ≠ w1.toNat ∨ 64 < ntpl ∨ 16 < nstream ∨
        allSeqs.any (fun q => decide (8192 < bitsOf w0.toNat (16 * q.num.toNat) 16)) then none
    else
      (imageCode rd w0.toNat allSeqs (va + 64) Plane.blank).bind (fun (p, a1) =>
        (imageTemplates rd ntpl 0 a1 p).bind (fun p =>
          let a2 := a1 + sectionLen (32 * ntpl)
          (imageMasks rd slots a2 p).bind (fun p => imageStreams rd nstream 0 (a2 + sectionLen (136 * slots.length)) p)))
  | _ => none

/-- The plane of a record's image (R382). -/
def planeOf (s : State) (die : BitVec 2) (queue : BitVec 10) (r : RegFile 6 Word64) : Option Plane :=
  loadImage (imageWord s die queue) (r.get 2).toNat

/-- The bytes of an image whose header gives the counts (R382). -/
def imageLen (w0 w1 : Nat) : Nat :=
  let masks := countOf (fun m => bitAt w1 (8 + m)) (upTo 4)
  64 + (allSeqs.map (fun q => sectionLen (4 * bitsOf w0 (16 * q.num.toNat) 16))).foldl (· + ·) 0 + sectionLen (32 * bitsOf w1 0 7) +
    sectionLen (136 * masks) + 64 * bitsOf w1 16 5

/-- The lines of a record's image that the yard or the loader has read, as accesses (R382, R407). -/
def imageTouch (s : State) (die : BitVec 2) (queue : BitVec 10) (r : RegFile 6 Word64) : State :=
  let va := (r.get 2).toNat
  match imageWord s die queue va, imageWord s die queue (va + 8) with
  | some w0, some w1 => yardTouch s die queue va (imageLen w0 w1)
  | _, _ => s

/-- The record at a VA, if it can be read. -/
def recordAt (s : State) (die : BitVec 2) (queue : BitVec 10) (va : Nat) : Option (RegFile 6 Word64) :=
  if va % 512 ≠ 0 then none else (yardRead s die queue va 512).map recordOfNat

end Sys2Proof.Machine
end

