-- ==== Sys2Proof/Machine/Groups.lean ====
section
/-! DEFINITION. Launches and gang groups as a yard moves them (R30, R42, R44, R378, R386, R391, R411, R415): what runs where,
halting a group, ending a launch, and what follows from a task that has drained or been saved. -/

namespace Sys2Proof.Machine

open Sys2Proof

/-! ## Who runs where -/

/-- The launch's queue entry names its world (R373). -/
def Launch.world (s : State) (l : Launch) : BitVec 6 := queueWorld s l.queueDie l.queue

/-- A group of a launch that has been dispatched. -/
def Launch.group (l : Launch) (g : Nat) : Option Group := l.groups.find? (fun x => x.num == g)

/-- The core runs, or is about to run, a task of the group. -/
def ownInGroup (s : State) (lid : BitVec 14) (g : Nat) : Bool :=
  match s.core.run with
  | .idle => false
  | .staging =>
    (match s.core.next with
     | some i => i.lid == lid && i.group == g
     | none => s.task.ident.lid == lid && s.task.ident.group == g)
  | _ => s.task.ident.lid == lid && s.task.ident.group == g

/-- Peers of a group. -/
def peersIn (s : State) (lid : BitVec 14) (g : Nat) : List Peer := s.pkg.peers.filter (fun p => p.lid == lid && p.group == g)

/-- Images of a group. -/
def imagesIn (s : State) (lid : BitVec 14) (g : Nat) : List Image :=
  s.pkg.images.filter (fun i => i.task.ident.lid == lid && i.task.ident.group == g)

/-- A column has been retired, its die has failed, or the yard has marked the core failed (R392, R414, R461). -/
def coreLost (s : State) (c : Nat) : Bool :=
  s.pkg.farrier.retired.contains (c / 4) || s.pkg.failedCores.contains c || (s.pkg.yards.get (BitVec.ofNat 2 (c / 512))).failed

/-- The island of a core's floor (R454). -/
def islandOf (c : Nat) : Nat := 5 * (c / 512) + c % 4

/-- A core is idle: no task is placed on it (R14), and its island does not wait to be lowered for the cap (R455). -/
def coreIdle (s : State) (c : Nat) : Bool :=
  !coreLost s c && !s.pkg.power.lowering.contains (islandOf c) && !(c == s.core.coreId.toNat && decide (s.core.run ≠ .idle)) &&
    !s.pkg.peers.any (fun p => p.placed && p.core.toNat == c)

/-- Cores and tasks of a launch that hold a core now, as task number and core. -/
def placedTasks (s : State) (lid : BitVec 14) : List (Nat × Nat) :=
  let own := match s.core.run with
    | .idle => []
    | .staging => (match s.core.next with | some i => [(i, s.core.coreId.toNat)] | none => [(s.task.ident, s.core.coreId.toNat)])
    | _ => [(s.task.ident, s.core.coreId.toNat)]
  (own.filter (fun p => p.1.lid == lid)).map (fun p => (p.1.taskId.toNat, p.2)) ++
    (s.pkg.peers.filter (fun p => p.placed && p.lid == lid)).map (fun p => (p.task.toNat, p.core.toNat))

/-- Every core, the queue's die first where tasks are unbound (R386). -/
def coreOrder (levels : List Word64) (die : BitVec 2) : List Nat :=
  let all := upTo 2048
  match levels with
  | e :: _ =>
    if levelDomain e = 5 then all.filter (fun c => c / 512 == die.toNat) ++ all.filter (fun c => c / 512 != die.toNat) else all
  | [] => all

/-- The state with a group of a launch changed. -/
def updGroup (s : State) (lid : BitVec 14) (g : Nat) (f : Group → Group) : State := updLaunch s lid (fun l => l.updGroup g f)

/-! ## Halting a group (R42, R222, R415, R440) -/

/-- The dies of the cores that a group's tasks hold. -/
def groupDies (s : State) (lid : BitVec 14) (g : Nat) : List (BitVec 2) :=
  (if ownInGroup s lid g then [dieOf s.core.coreId] else []) ++ ((peersIn s lid g).filter Peer.placed).map (fun p => dieOf p.core)

/-- The time from the sending of a halt request to Tp: 200 ticks for a group on one die, else 400 (R415). -/
def haltDelay (s : State) (lid : BitVec 14) (g : Nat) : Nat := if (groupDies s lid g).eraseDups.length ≤ 1 then 200 else 400

/-- The entry of the ownership table for a frame (R424): OWNER, KIND and MAPS. -/
def frameEntry (d p : Nat) : Nat := 0x8000000 + 4 * (d * 6291456 + p)

/-- KIND, OWNER of the frame at a PA (R424); the reserve has KIND 4 from cold start. -/
def frameKind (s : State) (pa : Nat) : Nat × Nat :=
  let e := s.load (frameEntry (pa / 2 ^ 40) (pa % 2 ^ 40 / 2 ^ 16)) 4
  if pa < 2 ^ 30 then (4, 0) else (bitsOf e 8 3, bitsOf e 0 6)

/-- The PAs of the save frames of a world in the LPDDR-6 of a die, as the ownership table lists them (R424, R440). -/
def saveFrames (s : State) (die : BitVec 2) (world : BitVec 6) : List Nat :=
  let lo := frameEntry die.toNat 0
  let hi := lo + 4 * 6291456
  let ks := ((s.mem.filter (fun c => decide (lo ≤ c.1) && decide (c.1 < hi))).map (fun c => (c.1 - lo) / 4)).eraseDups
  let pas := ks.map (fun f => die.toNat * 2 ^ 40 + f * 2 ^ 16)
  pas.filter (fun pa => frameKind s pa == (3, world.toNat))

/-- The five frames of a save area. -/
def areaFrames (a : Nat) : List Nat := (upTo 5).map (fun k => a + k * 2 ^ 16)

/-- Frames that images hold, of this core's tasks and of peers (R440). -/
def imageFrames (s : State) : List Nat :=
  (s.pkg.images.filterMap Image.area ++ s.pkg.peers.filterMap Peer.area).flatMap areaFrames

/-- The first five consecutive free save frames of a world on a die, but for some that are spoken for (R415, R440). -/
def saveArea (s : State) (die : BitVec 2) (world : BitVec 6) (used : List Nat) : Option Nat :=
  let free := (saveFrames s die world).filter (fun pa => !(imageFrames s).contains pa && !used.contains pa)
  free.find? (fun pa => (areaFrames pa).all free.contains)

/-- The world has a save area for a task on each of the dies (R440). -/
def areasFor (s : State) (world : BitVec 6) : List (BitVec 2) → List Nat → Bool
  | [], _ => true
  | d :: t, used =>
    match saveArea s d world used with
    | some a => areasFor s world t (used ++ areaFrames a)
    | none => false

/-- A group is on its way to its halt (R415). -/
def groupHalting (s : State) (lid : BitVec 14) (g : Nat) : Bool :=
  match (launchOf s lid).bind (fun l => l.group g) with
  | some x => decide (x.state = .halting)
  | none => false

/-- The dies of the tasks of a world that are to be saved already (R440). -/
def pendingSaves (s : State) (world : BitVec 6) : List (BitVec 2) :=
  let own := match s.core.run with
    | .halting _ => s.task.ident.world == world
    | .stopped => s.task.ident.world == world
    | _ => false
  (if own then [dieOf s.core.coreId] else []) ++
    (s.pkg.peers.filter (fun p => p.placed && p.world == world && groupHalting s p.lid p.group)).map (fun p => dieOf p.core)

/-- The world has save frames for the image of each task of the group, on the die of its core, beside those of the tasks that are to be saved
already (R415, R440). -/
def saveRoom (s : State) (world : BitVec 6) (lid : BitVec 14) (g : Nat) : Bool :=
  let own := if ownInGroup s lid g then [dieOf s.core.coreId] else []
  areasFor s world (pendingSaves s world ++ own ++ (peersIn s lid g).map (fun p => dieOf p.core)) []

/-- This core's task of the group is on its way in: its first dispatch or its resume is not complete, so it cannot be halted. -/
def groupStaging (s : State) (lid : BitVec 14) (g : Nat) : Bool := ownInGroup s lid g && decide (s.core.run = .staging)

/-- An engine has work for a saved task that it will bring to an end by itself (R44): a copy it accepted, a request, or an arrival that
such a command was the last to hold up (R99). -/
def imageOwed (s : State) (im : Image) : Bool :=
  im.task.copies.any CopyCmd.accepted || !im.task.atts.isEmpty || (deferredStep (viewOf s im)).isSome

/-- The task of this core as an image, for the engines that still have work for it (R44). -/
def ownImage (s : State) (area : Option Nat) (tp : Word64) : Image :=
  { task := s.task, plane := s.plane, core := s.core.coreId, tp := tp, valid := true, enc := s.task.ident.world != 0, hold := .preempted
    area := area }

/-- The halt request to every core of a running group, with Tp (R415); after a fault of its only task Tp is now (R222). Where this core's
task of the group is still on its way in, only the end of the launch stops it: its core is free at once, and a loaded image is kept while
an engine has work for it (R44). -/
def haltGroup (s : State) (lid : BitVec 14) (g : Nat) : State :=
  let ending := match launchOf s lid with | some l => l.code.isSome | none => true
  if groupStaging s lid g && !ending then s
  else
  let alone := decide (s.core.run = .stopped) && (peersIn s lid g).isEmpty
  let tp := s.time + BitVec.ofNat 64 (if alone then 0 else haltDelay s lid g)
  let s1 := updGroup s lid g (fun x => { x with state := .halting, tp := tp, yieldTo := false })
  if ownInGroup s lid g then
    match s1.core.run with
    | .running => { s1 with core := { s1.core with run := .halting tp } }
    | .staging =>
      let im := ownImage s1 none s1.time
      let s2 := if s1.core.next.isNone && imageOwed s1 im then s1.withPkg { s1.pkg with images := s1.pkg.images ++ [im] } else s1
      { s2 with core := { s2.core with run := .idle, next := none, firmware := false } }
    | _ => s1
  else s1

/-! ## The end of a launch (R378, R391) -/

/-- Pages of a launch that has ended leave this core's frames (DESIGN CHOICE, log 51). -/
def evictLaunch (s : State) (lid : BitVec 14) : State := (s.core.resident.filter (fun r => r.owner.lid == lid)).foldl evictFrame s

/-- A launch ends with a code: nothing more of it is dispatched, what runs is stopped as for pre-emption, and the state of its saved tasks
is discarded, but where an engine that accepted a command of theirs has still to complete it (R378). The first end stands. -/
def endLaunch (s : State) (lid : BitVec 14) (code : BitVec 8) (cause : BitVec 8) (user : BitVec 32) : State :=
  match launchOf s lid with
  | none => s
  | some l =>
    if l.code.isSome ∨ l.state = .finished then s
    else
      let s1 := updLaunch s lid (fun x => { x with code := some code, cause := cause, userCode := user })
      let s2 := ((l.groups.filter (fun x => decide (x.state = .running))).map Group.num).foldl (fun s g => haltGroup s lid g) s1
      s2.withPkg { s2.pkg with images := s2.pkg.images.filter (fun i => i.task.ident.lid != lid || imageOwed s2 i) }

/-- No task of the launch holds a core, and no engine has work left for it (R378). -/
def launchOff (s : State) (lid : BitVec 14) : Bool :=
  (placedTasks s lid).isEmpty && !s.pkg.images.any (fun i => i.task.ident.lid == lid && imageOwed s i)

/-- A launch cut short (R391): it completes with ABORTED, or when restartable returns to READY and is run again from its first
dispatch, the commands of the cut run going with it (DESIGN CHOICE, log 40), and with its entries the locks that they held in L1 (R58 does not
say; DESIGN CHOICE, log 13). -/
def cutShort (s : State) (lid : BitVec 14) : State :=
  match launchOf s lid with
  | none => s
  | some l =>
    if l.code.isSome ∨ l.state = .finished then s
    else if (l.packet.get 0).getLsbD 5 then
      let s0 := evictLaunch s lid
      let s1 := s0.withPkg { s0.pkg with
        images := s.pkg.images.filter (fun i => i.task.ident.lid != lid)
        peers := s.pkg.peers.filter (fun p => p.lid != lid)
        gangGone := s.pkg.gangGone.filter (fun x => x.1 != lid) }
      let s2 := updLaunch s1 lid (fun x => { x with state := .ready, since := s.time, groups := [], fresh := 0, freshAging := 0, tasksDone := 0
                                                    restarted := true, succRef := false })
      if (placedTasks s lid).any (fun p => p.2 == s.core.coreId.toNat) then
        { s2 with core := { s2.core with run := .idle, next := none, firmware := false, l1 := s2.core.l1.map (fun l => { l with locks := 0 }) } }
      else s2
    else endLaunch s lid 2 0 0

/-- The yard marks this core failed, and what it was about to run is cut short (R391, R414). -/
def failCore (s : State) : State :=
  let s1 := s.withPkg { s.pkg with failedCores := s.core.coreId.toNat :: s.pkg.failedCores }
  let s2 := cutShort s1 s.task.ident.lid
  { s2 with core := { s2.core with run := .idle, next := none, firmware := false, fw := { s2.core.fw with pc := 0 } } }

/-- A SYS word with FN 0x09, whatever its other fields (R414). -/
def eretLike (w : Word32) : Bool := w.extractLsb 31 26 == 0 && w.extractLsb 7 0 == 9

/-- What the firmware context does once an image is loaded (R414): it goes through its instruction memory to an ERET, which starts the task, or,
with a field that is not zero, has the core marked failed. The effects of its other words are given by no rule, and a word that its
memory does not list stands for ERET (DESIGN CHOICE, log 49). -/
def firmwareStep (s : State) : Option State :=
  if !s.core.firmware || decide (s.core.run ≠ .staging) || s.core.next.isSome then none
  else
    some (match assoc s.core.fw.im s.core.fw.pc with
      | none => returnFromFault s
      | some w =>
        if !eretLike w then { s with core := { s.core with fw := { s.core.fw with pc := s.core.fw.pc + 1 } } }
        else if w = 9 then returnFromFault s
        else failCore s)

/-! ## Tasks that leave their core -/

/-- A group after a task of it has left its core: pre-empted once every task is saved and none is held for a service, held while
one is, drained once all have drained (R30, R403). -/
def settleGroup (s : State) (lid : BitVec 14) (g : Nat) : State :=
  match launchOf s lid with
  | none => s
  | some l =>
    match l.group g with
    | none => s
    | some x =>
      if x.drained = l.groupSize then updGroup s lid g (fun y => { y with state := .drained })
      else if (x.state = .halting ∨ x.state = .held) ∧ !ownInGroup s lid g ∧ (peersIn s lid g).all (fun p => !p.placed) then
        if (imagesIn s lid g).all (fun i => decide (i.hold = .preempted)) then
          updGroup s lid g (fun y => { y with state := .preempted, since := s.time, aging := 0, quantumOver := false })
        else updGroup s lid g (fun y => { y with state := .held })
      else s

/-- A task has drained (R33): counted in its group and its launch. -/
def countDrained (s : State) (lid : BitVec 14) (g : Nat) : State :=
  let s1 := updLaunch s lid (fun l => { l.updGroup g (fun x => { x with drained := x.drained + 1 }) with tasksDone := l.tasksDone + 1 })
  settleGroup s1 lid g

/-! ## Log records (R411 to R413) -/

/-- A record of an image's task for the log of its yard (R411). -/
def logImage (s : State) (im : Image) (kind : BitVec 4) (tail : List Word64) : State :=
  s.logTo (dieOf im.core) { kind := kind, ident := logIdent im.task.ident im.core, task := im.task.ident.taskId, record := im.task.faults
                            tail := tail }

/-- The report that a world has too few save frames (R440), in the form of an ENGINE record (DESIGN CHOICE, log 48). -/
def logShort (s : State) (l : Launch) : State :=
  s.logTo l.queueDie { kind := 2, ident := BitVec.ofNat 64 (l.lid.toNat + l.queue.toNat * 2 ^ 16 + (l.world s).toNat * 2 ^ 32), task := 0
                       record := FaultRec.none, tail := [] }

/-- The shortage of a group's world reported once for each of its dispatches (R440). -/
def reportShort (s : State) (l : Launch) (g : Nat) : State := logShort (updGroup s l.lid g (fun y => { y with short := true })) l

/-- The words of a log record (R413). -/
def logWords (r : LogRec) (time : Word64) : List Word64 :=
  [r.kind.zeroExtend 64, r.ident, r.task] ++ recordWords r.record ++ [time] ++ section64 16 r.tail

/-- The records of a ring whose header has `n` as its word 2 (R412). -/
def ringSize (n : Nat) : Option Nat := if 4 ≤ n ∧ n < 16 then some (2 ^ n) else none

/-- A record appended to a ring at a VA with the header of R412, through a queue's tables: none where it is full or cannot be
written, or where its header is not valid, the bytes after its four words not being zero (R8). -/
def ringPost (s : State) (die : BitVec 2) (queue : BitVec 10) (va : Nat) (r : LogRec) : Option State :=
  match yardRead s die queue va 8, yardRead s die queue (va + 8) 8, (yardRead s die queue (va + 16) 8).bind ringSize with
  | some w, some rd, some size =>
    if yardRead s die queue (va + 0x20) 0xE0 = some 0 ∧ (w + 2 ^ 64 - rd) % 2 ^ 64 < size then
      let base := va + 0x100 + 0x100 * (w % size)
      let s1 := ((logWords r s.time).zipIdx).foldl (fun s p => yardWrite s die queue (base + 8 * p.2) 8 p.1.toNat)
        (yardTouch s die queue va 0x100)
      some (yardWrite s1 die queue va 8 ((w + 1) % 2 ^ 64))
    else none
  | _, _, _ => none

end Sys2Proof.Machine
end

