-- ==== Sys2Proof/Machine/Translator.lean ====
section
/-! DEFINITION. The translator's service for TRAP 0x08 (R361 to R364): stubs, the launch's translation cache, the code heap of a sequencer
in a plane, the scan for referenced functions, eviction and placement. -/

namespace Sys2Proof.Machine

open Sys2Proof

/-! ## Stubs (R361) -/

/-- The address of the stub of function `f`. -/
def stubAddr (f : Nat) : Nat := 0x8000 - 8 * (f + 1)

/-- TRAP 0x08, the first word of a stub that is not published. -/
def stubTrap : Word32 := 0x00002001#32

/-- BRT bt3, the second word of a stub. -/
def stubBranch : Word32 := 0x30308000#32

/-- PBT bt3, entry: the first word of a published stub (R361, R206). -/
def stubPublished (f entry : Nat) : Word32 :=
  0x2C300000#32 ||| BitVec.ofNat 32 (ofSigned 19 (((entry : Int) - (stubAddr f : Int)) / 4))

/-- The function whose stub an address names. -/
def stubFn (pc nfunc : Nat) : Option Nat :=
  let f := (0x8000 - pc) / 8 - 1
  if pc < 0x8000 ∧ pc % 8 = 0 ∧ f < nfunc then some f else none

/-! ## The code heap (R361, R364) -/

/-- Words of a code heap: the instruction memory less the stub table. -/
def heapWords (nfunc : Nat) : Nat := 8192 - 2 * nfunc

/-- A word of the heap that no function and no code of the plane's image uses. -/
def wordFree (p : Plane) (q : SeqId) (k : Nat) : Bool :=
  !(p.im.get q.num).any (fun c => c.1 == k) && !(p.heap.get q.num).any (fun h => decide (h.start ≤ k) && decide (k < h.start + h.len))

/-- The words at which a free range of `len` words begins. -/
def freeRanges (p : Plane) (q : SeqId) (nfunc len : Nat) : List Nat :=
  (upTo (heapWords nfunc + 1 - len)).filter (fun k => (upTo len).all (fun i => wordFree p q (k + i)))

/-- Words of an instruction memory replaced from word `k` on. -/
def Plane.putWords (p : Plane) (q : SeqId) (k : Nat) (ws : List Word32) : Plane :=
  { p with im := p.im.set q.num ((ws.zipIdx).foldl (fun l w => cellPut p.fill l (k + w.2) w.1) (p.im.get q.num)) }

/-- A function leaves the heap: its stub is written back first, then its range is free (R364). -/
def evictFn (p : Plane) (q : SeqId) (h : HeapFn) : Plane :=
  let p1 := p.putWords q (stubAddr h.fn / 4) [stubTrap, stubBranch]
  let p2 := p1.putWords q h.start (List.replicate h.len p1.fill)
  { p2 with heap := p2.heap.set q.num ((p2.heap.get q.num).erase h) }

/-- A function's words in a free range, then its stub published (R362). -/
def publishFn (p : Plane) (q : SeqId) (f k : Nat) (ws : List Word32) : Plane :=
  let p1 := p.putWords q k ws
  let p2 := p1.putWords q (stubAddr f / 4) [stubPublished f (4 * k), stubBranch]
  { p2 with heap := p2.heap.set q.num (p2.heap.get q.num ++ [{ fn := f, start := k, len := ws.length }]) }

/-! ## Referenced functions (R363) -/

/-- The 64-bit words that a sequencer's stack holds from x14 to its top (R355). -/
def stackValues (s : State) (q : SeqId) : List Nat :=
  let top := s.task.ident.stackTops.get q.num
  let hi := (top.extractLsb 55 0).toNat
  let lo := ((s.seq q).x.get 14).toNat
  (upTo ((hi - lo) / 8)).filterMap (fun i =>
    match place s (top.extractLsb 57 56) (lo + 8 * i) false with
    | (_, .key k _) => some (readKey s k 8)
    | _ => none)

/-- Every value that may be an instruction address of the task (R363). -/
def liveAddrs (s : State) : List Nat :=
  allSeqs.flatMap (fun q =>
    let sq := s.seq q
    [sq.pc.toNat] ++ (if sq.delay.owed = 0 then [] else [sq.delay.next.toNat]) ++ sq.bt.toList.map BitVec.toNat ++
      sq.loops.toList.flatMap (fun l => [l.start.toNat, l.stop.toNat]) ++
      (if q = .C then [11#4, 12#4, 13#4, 14#4, 15#4].map (fun r => (sq.x.get r).toNat)
       else sq.x.toList.map BitVec.toNat ++ stackValues s q))

/-- A function is referenced when an address falls into its body (R363). -/
def fnReferenced (live : List Nat) (h : HeapFn) : Bool :=
  live.any (fun v => decide (4 * h.start ≤ v) && decide (v < 4 * (h.start + h.len)))

/-! ## The service (R362, R364) -/

/-- A free range of `len` words as the service chooses it (R362 leaves the choice to it: a free value, log 3). -/
def chooseRange (ctr : Nat) (p : Plane) (q : SeqId) (nfunc len : Nat) : Option Nat :=
  match freeRanges p q nfunc len with
  | [] => none
  | [k] => some k
  | l => l[Config.pick ctr (2 ^ 52) l.length % l.length]?

/-- Room for `len` words: a free range, or one that the eviction of unreferenced functions opens, oldest published first, with a new
attempt after each (R364). -/
def findRoom (ctr : Nat) (q : SeqId) (nfunc len : Nat) : List HeapFn → Plane → Option (Plane × Nat)
  | [], p => (chooseRange ctr p q nfunc len).map (fun k => (p, k))
  | h :: t, p =>
    match chooseRange ctr p q nfunc len with
    | some k => some (p, k)
    | none => findRoom ctr q nfunc len t (evictFn p q h)

/-- The words of function `f` of a sequencer: as the launch's cache holds them, else as the translator makes them (R362). -/
def translated (l : Launch) (q : SeqId) (f : Nat) (svc : Service) : List Word32 :=
  match l.cache.find? (fun c => decide (c.1 = (q, f))) with
  | some c => c.2
  | none => svc.code

/-- The translator may read the module that it translates (R396): it reads none where the launch's cache holds the function. -/
def moduleReadable (s : State) (l : Launch) (q : SeqId) (svc : Service) : Bool :=
  match svc.src, stubFn (s.seq q).pc.toNat svc.nfunc.toNat with
  | some va, some f => l.cache.any (fun c => decide (c.1 = (q, f))) || (imageWord s l.queueDie l.queue (va.toNat / 8 * 8)).isSome
  | _, _ => true

/-- The translator's service on a halted task (R362): the function placed and published and bt3 at its entry; none where the heap has no
room for it, a function larger than the heap among them, with nothing placed (R364). A TRAP 0x08 away from every stub has no function,
and goes on without one (DESIGN CHOICE, log 25). -/
def translatorServe (s : State) (l : Launch) (q : SeqId) (svc : Service) : Option State :=
  match stubFn (s.seq q).pc.toNat svc.nfunc.toNat with
  | none => some s
  | some f =>
    let ws := translated l q f svc
    let p := s.plane
    let old := (p.heap.get q.num).filter (fun h => !fnReferenced (liveAddrs s) h)
    match (if heapWords svc.nfunc.toNat < ws.length then none else findRoom s.freeCtr q svc.nfunc.toNat ws.length old p) with
    | none => none
    | some (p1, k) =>
      let s1 := s.withPlane (publishFn p1 q f k ws)
      let s2 := s1.withSeq q { s1.seq q with bt := (s1.seq q).bt.set 3 (BitVec.ofNat 64 (4 * k)) }
      let keep := fun (x : Launch) =>
        { x with cache := if x.cache.any (fun c => decide (c.1 = (q, f))) then x.cache else x.cache ++ [((q, f), ws)] }
      some { updLaunch s2 l.lid keep with freeCtr := s2.freeCtr + 1 }

end Sys2Proof.Machine
end

