-- ==== Sys2Proof/Machine/Tasks.lean ====
section
/-! DEFINITION. Dispatch, planes, the end of a task, deadlock, halts, save images, resumption, drain and clear, and refills
(R32 to R46, R55, R94, R222, R230, R382, R383, R411, R415, R420). -/

namespace Sys2Proof.Machine

open Sys2Proof

/-! ## Dispatch (R28, R32, R118, R386) -/

/-- The coordinate of a task at a level, its extents given innermost first (R28). -/
def coordsOf (task : Nat) : List Nat → List Nat
  | [] => []
  | e :: t => task % e :: coordsOf (task / e) t

/-- The extent of a level as LVE shows it (R28). -/
def lveOf (e : Word64) : Nat := if levelExtent e = 0 then 1 else levelExtent e

/-- The identity of task `task` of a launch on a core (R28, R380). -/
def identOf (s : State) (l : Launch) (task : Nat) (core : BitVec 11) : TaskId :=
  let levels := recLevels l.record
  let ext := levels.toList.map lveOf
  { lid := l.lid
    group := task / l.groupSize
    taskId := BitVec.ofNat 64 task
    world := l.world s
    die := l.queueDie
    queue := l.queue
    lvc := Vector.ofFn (fun i => BitVec.ofNat 24 ((coordsOf task ext).getD i.val 0))
    lve := levels.map (fun e => BitVec.ofNat 24 (lveOf e))
    levels := levels
    slot := core
    scrBase := BitVec.ofNat 56 (l.record.get 3).toNat
    succRec := BitVec.ofNat 56 (l.record.get 10).toNat
    succTag := l.record.get 11
    stackTops := Vector.ofFn (fun q => l.record.get (4 + BitVec.ofNat 6 q.val)) }

/-- A sequencer at first dispatch (R32): its entry, x1 and x14 (DEDUCED, log 37). -/
def startSeq (r : RegFile 6 Word64) (q : SeqId) : SeqState :=
  let present := (recPresent r).getLsbD q.num.toNat
  { SeqState.clear with
    present := present
    exited := !present
    halted := !present
    pc := recEntry r q
    x := (SeqState.clear.x.set 1 (r.get 1)).set 14 ((recStack r q).extractLsb 55 0 |>.zeroExtend 64) }

/-- SEED at first dispatch (R118). -/
def startSeed (lseed task : Word64) : Word64 := let v := mix64 (lseed ^^^ task); if v = 0 then 1 else v

/-- A task in the state of R32. -/
def startTask (i : TaskId) (r : RegFile 6 Word64) (active : BitVec 1) : Task :=
  { Task.clear with
    ident := i
    seqs := Vector.ofFn (fun n => startSeq r (match n.val with | 0 => .S | 1 => .L | 2 => .C | _ => .W))
    seed := startSeed (r.get 9) i.taskId
    split := recSplit r
    active := active }

/-- Every resident page leaves its frame (R46, R55). -/
def evictAll (s : State) : State := s.core.resident.foldl evictFrame s

/-- Pages in ways that the task's SPLIT gives to L1 leave them, and lines of L1 go where the SPLIT has changed (R51, R53, R57). -/
def fitFrames (s : State) : State :=
  let s1 := (s.core.resident.filter (fun r => decide (frameWays s ≤ r.way))).foldl evictFrame s
  if s.task.split = s.core.l1Split then s1 else { s1 with core := { s1.core with l1 := [], l1Split := s.task.split } }

/-- The locks that a task's unpopped entries held are gone with it: R58 does not say what becomes of them when a task ends or is saved
(DESIGN CHOICE, log 13). -/
def releaseLocks (s : State) : State :=
  let free := fun (l : List QEntry) => l.map (fun e => { e with locks := [] })
  let s1 := s.withTask { s.task with q := s.task.q.map free }
  { s1 with core := { s1.core with l1 := s1.core.l1.map (fun l => { l with locks := 0 }) } }

/-- The shadow plane (R34). -/
def shadow (s : State) : BitVec 1 := s.core.task.active + 1

/-- The plane that the loader fills for a task to be dispatched first on an idle core, where no plane is active (R32, R34; DESIGN CHOICE, log 14). -/
def firstPlane : BitVec 1 := 0

/-- A farrier engine holds the bus of a core's column (R460). -/
def busClaimed (s : State) (core : BitVec 11) : Bool := s.pkg.farrier.claimed.contains (core.toNat / 4)

/-- Every core of the group is ready for its dispatch (R30, R460). -/
def groupReady (s : State) (lid : BitVec 14) (g : Nat) : Bool :=
  (if ownInGroup s lid g then decide (s.core.run ≠ .staging) || s.core.ready else true) &&
    !((placedTasks s lid).any (fun p => s.pkg.farrier.claimed.contains (p.2 / 4)))

/-- The launch's phase becomes the die's current one when its first task is dispatched (R387). -/
def setPhase (s : State) (l : Launch) (core : BitVec 11) : State :=
  let w := (l.record.get 13).toNat
  if bitAt w 8 && decide (l.state ≠ .running) then
    let d := dieOf core
    s.withPkg { s.pkg with yards := s.pkg.yards.set d { s.pkg.yards.get d with phase := BitVec.ofNat 8 w } }
  else s

/-- The dispatch of the task staged on this core (R32). -/
def dispatchOwn (s : State) (lid : BitVec 14) (task : Word64) : Option State :=
  match s.core.next, launchOf s lid with
  | some i, some l =>
    if s.core.run = .staging ∧ i.lid = lid ∧ i.taskId = task ∧ s.core.ready ∧ groupReady s lid i.group then
      let t := startTask i l.record firstPlane
      some (fitFrames { s with core := { s.core with task := t, run := .running, next := none, ready := false, loading := i.succRec != 0
                                                     staged := none, refused := false, lastWorld := i.world, olds := [] } })
    else none
  | _, _ => none

/-- A dispatch on a core: this core's staged task, or a peer (R30, R32). -/
def dispatchStep (s : State) (core : BitVec 11) (lid : BitVec 14) (task : Word64) : Option State :=
  if core = s.core.coreId then dispatchOwn s lid task
  else
    match s.pkg.peers.find? (fun p => p.core == core && p.placed && !p.resident && p.lid == lid && p.task == task) with
    | some p =>
      if groupReady s lid p.group then
        some (s.withPkg { s.pkg with peers := updFirst (fun x => decide (x = p)) (fun x => { x with resident := true }) s.pkg.peers })
      else none
    | none => none

/-- TASK_DISPATCH (R32): with no such task placed nothing happens. -/
def execTaskDispatch (core : BitVec 11) (lid : BitVec 14) (task : Word64) (s : State) : Out :=
  .next ((dispatchStep s core lid task).getD s)

/-! ## Planes and successors (R34, R35, R382, R383) -/

/-- A plane written and READY set (R34). -/
def setPlane (s : State) (n : BitVec 1) (p : Plane) (staged : Option (RegFile 6 Word64)) : State :=
  { s with core := { s.core with planes := s.core.planes.set n p, ready := true, loading := false, staged := staged } }

/-- A successor record agrees with the record of its launch (R383). -/
def successorFits (l : Launch) (r : RegFile 6 Word64) : Bool :=
  recWorld r == recWorld l.record && r.get 3 == l.record.get 3 && bitsOf (r.get 0).toNat 4 5 == bitsOf (l.record.get 0).toNat 4 5 &&
    recLevels r == recLevels l.record

/-- The loader's work done: the plane of the task to be dispatched, or that of the running task's successor, or its refusal
(R34, R382, R383). -/
def loadStep (s : State) : Option State :=
  if !s.core.loading then none
  else
    match s.core.run, s.core.next with
    | .staging, some i =>
      if s.core.lastWorld ≠ i.world then none
      else match launchOf s i.lid with
        | none => none
        | some l =>
          match planeOf s l.queueDie l.queue l.record with
          | some p => some (setPlane (imageTouch s l.queueDie l.queue l.record) firstPlane p none)
          | none => some (endLaunch { s with core := { s.core with loading := false } } l.lid 3 0 0)
    | .idle, _ => none
    | .staging, none => none
    | _, _ =>
      let i := s.task.ident
      match launchOf s i.lid with
      | none => none
      | some l =>
        let refuse : State := { s with core := { s.core with loading := false, refused := true } }
        match recordAt s i.die i.queue i.succRec.toNat with
        | none => some refuse
        | some r =>
          if !recordOk s i.die i.queue r || !successorFits l r then some refuse
          else match planeOf s i.die i.queue r with
            | some p =>
              some (setPlane (imageTouch (yardTouch s i.die i.queue i.succRec.toNat 512) i.die i.queue r) (shadow s) p (some r))
            | none => some refuse

/-- PLANE_LOAD_COMPLETE (R34): a loader that is not at work completes nothing. -/
def execPlaneLoadComplete (s : State) : Out := .next ((loadStep s).getD s)

/-- No command of the task is under way in an engine or the copy buffer, and no result is in flight. -/
def enginesEmpty (s : State) : Bool :=
  let t := s.task
  t.copies.isEmpty && t.mats.isEmpty && t.jobs.isEmpty && t.deferred.isEmpty && t.mkevs.isEmpty && t.atts.isEmpty && t.hold.isNone &&
    t.seqs.toList.all (fun sq => sq.pend.isEmpty)

/-- Storage of a plane, which the loader writes anew when it fills the plane again (R34). -/
def ofPlane : SoftWhere → Bool
  | .imWord _ _ => true
  | .tplRec _ => true
  | .maskProg _ => true
  | _ => false

/-- A sequencer at the flip of a SWAP: it goes on at word 0 as a new block, its push made (R35, R205, R216). -/
def swapSeq (sq : SeqState) : SeqState :=
  if sq.present then
    { sq with swapWait := false, pc := 0, loops := RegFile.fill 2 LoopState.none, delay := DelayState.none, wait := none, arm := true }
  else sq

/-- The flip of a SWAP that every present sequencer has executed (R35) (DEDUCED, log 42). -/
def flipStep (s : State) : Option State :=
  let t := s.task
  if s.core.run = .running ∧ s.core.ready ∧ t.seqs.toList.any SeqState.present ∧ t.seqs.toList.all (fun sq => !sq.present || sq.swapWait) ∧
      enginesEmpty s ∧ (allQueues t).all List.isEmpty then
    let pushes := allSeqs.filterMap (fun q => (t.seqs.get q.num).wait.map Wait.push)
    let t1 := pushes.foldl Task.fillPush t
    let t2 := { t1 with seqs := t1.seqs.map swapSeq, active := shadow s, broken := t1.broken.filter (fun b => !ofPlane b) }
    some { s with core := { s.core with task := t2, ready := false, staged := none, loading := t.ident.succRec != 0, refused := false } }
  else none

/-- PLANE_FLIP (R35): away from the drain point or without a complete shadow plane nothing flips. -/
def execPlaneFlip (s : State) : Out := .next ((flipStep s).getD s)

/-- The drain point of R33. -/
def atDrain (s : State) : Bool :=
  decide (s.core.run = .running) && s.task.seqs.toList.all SeqState.exited && enginesEmpty s && s.task.o.toList.all List.isEmpty

/-- What has still to be delivered when a task reaches its drain point: a lost write (R89), a pending object error (R101), a 0 token
(R94). -/
inductive DrainKind where
  | lost | object | token
  deriving DecidableEq, Repr

/-- Records not yet delivered at the drain point, with the sequencer that holds each; of the 0 tokens of one E FIFO the oldest, which is
the first in slot order (R20, R94). -/
def drainRecords (t : Task) : List (SeqId × DrainKind × FaultRec) :=
  allSeqs.flatMap (fun q =>
    let sq := t.seqs.get q.num
    (sq.writeErr.map (fun w => (q, .lost, w.record))) ++ (sq.objErr.toList.map (fun p => (q, .object, p.2))) ++
      ((sq.e.find? (fun x => x.filled && !popValue t q 3 x)).toList.map (fun x => (q, .token, x.record.getD FaultRec.none))))

/-- The record detected first, in the order of the list among equals. R94 gives no common order of the E FIFOs of different sequencers: the
model takes the time of detection, then S, L, C, W (DESIGN CHOICE, log 55). -/
def oldestRecord : List (SeqId × DrainKind × FaultRec) → Option (SeqId × DrainKind × FaultRec)
  | [] => none
  | a :: t => match oldestRecord t with
    | none => some a
    | some b => if (a.2.2.snap.get 6).toNat ≤ (b.2.2.snap.get 6).toNat then some a else some b

/-- The task faults at its drain point with the oldest undelivered record; every record went to the log when its error was detected, and
delivery clears what held it (R94, R101). -/
def drainFault (s : State) : Option State :=
  match oldestRecord (drainRecords s.task) with
  | none => none
  | some (q, k, r) =>
    let sq := s.seq q
    let s1 := s.withSeq q (match k with
      | .lost => { sq with writeErr := sq.writeErr.eraseP (fun w => decide (w.record = r)) }
      | .object => { sq with objErr := none }
      | .token => sq)
    some (takeFault s1 (deliverRec s1 q r false true))

/-- The tag that EXIT on S named (R215). -/
def exitTag (s : State) : Word64 := (s.seq .S).succTag

/-- EXIT named the successor that the record gives, and the loader has not refused it (R35, R383). -/
def successorNamed (s : State) : Bool :=
  exitTag s != 0 && s.task.ident.succRec != 0 && exitTag s == s.task.ident.succTag && !s.core.refused

/-- Pages of this core's task leave their frames (DESIGN CHOICE, log 51). -/
def evictOwned (s : State) : State := (s.core.resident.filter (fun r => decide (r.owner = s.task.ident.owner))).foldl evictFrame s

/-- The drain point of this core's task: an undelivered record faults; otherwise, with no successor to start, the task ends
(R33, R94, R242, R383). -/
def drainOwn (s : State) : Option State :=
  if !atDrain s then none
  else
    match drainFault s with
    | some s1 => some s1
    | none =>
      if successorNamed s then none
      else
        let i := s.task.ident
        let s1 := if exitTag s ≠ 0 then updLaunch s i.lid (fun l => { l with succRef := true }) else s
        let s2 := evictOwned (releaseLocks { s1 with core := { s1.core with run := .idle, loading := false, ready := false, staged := none } })
        let t := s2.task
        some (countDrained (s2.withTask { t with gpins := [], pins := [], fifos := RegFile.fill 4 []
                                                 seqs := t.seqs.map (fun sq => { sq with e := [] }) }) i.lid i.group)

/-- The drain point of a peer (DESIGN CHOICE, log 1); the position it held has no task of its group from then on (R50). -/
def drainPeer (s : State) (core : BitVec 11) : Option State :=
  match s.pkg.peers.find? (fun p => p.core == core && p.resident) with
  | some p =>
    some (countDrained (s.withPkg { s.pkg with peers := s.pkg.peers.filter (fun x => !decide (x = p))
                                               gangGone := (p.lid, p.group, p.slot) :: s.pkg.gangGone }) p.lid p.group)
  | none => none

/-- TASK_DRAIN_POINT (R33): away from it nothing happens. -/
def execTaskDrainPoint (core : BitVec 11) (s : State) : Out :=
  .next ((if core = s.core.coreId then drainOwn s else drainPeer s core).getD s)

/-- A successor's SPLIT applied to the pages it takes over (R32, R35, R52): a pinned page for which no frame is left loses its pin, of which
the rules say nothing (DESIGN CHOICE, log 51). -/
def splitSuccessor (s : State) (v : BitVec 4) : State :=
  if s.task.split = v then s
  else
    let s1 := splitTo s v
    let losing := s1.core.resident.filter (fun r => decide (frameWays s1 ≤ r.way))
    let s2 := losing.foldl evictFrame s1
    s2.withTask { s2.task with pins := s2.task.pins.filter (fun p => resident s2 p.toNat) }

/-- The successor's task in the state of R32, with the accumulators and pages of the ending task (R35, R383). -/
def successorStep (s : State) : Option State :=
  match s.core.staged with
  | none => none
  | some r =>
    if atDrain s ∧ drainRecords s.task = [] ∧ successorNamed s ∧ s.core.ready then
      let s0 := splitSuccessor (releaseLocks s) (recSplit r)
      let old := s0.task
      let i := { old.ident with slot := s.core.coreId, succRec := BitVec.ofNat 56 (r.get 10).toNat, succTag := r.get 11
                                stackTops := Vector.ofFn (fun q => r.get (4 + BitVec.ofNat 6 q.val)) }
      let t := { startTask i r (shadow s) with acc := old.acc, pins := old.pins }
      some { s0 with core := { s0.core with task := t, ready := false, staged := none, loading := i.succRec != 0, refused := false } }
    else none

/-- SUCCESSOR_START (R383). -/
def execSuccessorStart (s : State) : Out := .next ((successorStep s).getD s)

/-! ## Deadlock (R40) -/

/-- The stall of a sequencer on a token FIFO or a queue still stands; the result says whether it is a token's. A pop of an E FIFO counts as a
token's; R40 does not say whether the wait for a free place of a full one (R93) does, and the model does not count it (DESIGN CHOICE, log 48). -/
def stallStands (s : State) (q : SeqId) : Option Bool :=
  let t := s.task
  let sq := s.seq q
  let lacking := fun (l : List QEntry) (k : Nat) => decide (countOf QEntry.filled (l.take k) < k)
  match sq.stall with
  | some (.token n) =>
    let l := if n = 0 then sq.e else t.fifos.get n
    (match l with
     | [] => some true
     | hd :: _ => if hd.filled then none else some true)
  | some (.tokenPush n) => if fifoDepth ≤ (t.fifos.get n).length then some true else none
  | some (.queueEmpty n k) =>
    if lacking (if n.toNat < 8 then t.q.get (n.truncate 3) else t.o.get (n.truncate 2)) k then some false else none
  | some (.queueFull n k) =>
    if (if n.toNat < 8 then qRoom s (n.truncate 3) else oRoom s (n.truncate 2)) < k then some false else none
  | some (.lock n) => if t.split.toNat ≤ countOf (fun l => l1Set l.line == n && l.locks != 0) s.core.l1 then some false else none
  | _ => none

/-- The instruction at a sequencer's PC, for the record of its stall. -/
def instrAt (s : State) (q : SeqId) : Option Instr :=
  let pc := (s.seq q).pc.toNat
  (decodeWord (s.plane.word q pc) ((upTo 4).map (fun i => s.plane.word q (pc + 4 * (i + 1))))).map Prod.fst

/-- Internal deadlock (R40): each present sequencer has exited or stands at a token or a queue, and nothing else of the task is
outstanding. An output queue that no sequencer is left to drain counts as W's. -/
def deadlocked (s : State) : Option (BitVec 8 × SeqId) :=
  let live := allSeqs.filter (fun q => (s.seq q).present && !(s.seq q).exited)
  let marks := live.map (fun q => (q, if canIssue s q then stallStands s q else none))
  if !taskLive s || !enginesEmpty s then none
  else if live.isEmpty then (if s.task.o.toList.all List.isEmpty then none else some (causeQueueProtocol, .W))
  else if marks.all (fun m => m.2.isSome) then
    some (if marks.any (fun m => m.2 == some true) then causeTokenProtocol else causeQueueProtocol, (live.headD .S))
  else none

/-- What the record of a fault at a standing instruction says of it: a patch word's is its amended record with its origin (R229). -/
def standingInfo (s : State) (i : Instr) (c : BitVec 8) : FaultInfo :=
  match i with
  | .patchWord n t f v lits =>
    let ti : TplIssue := match s.task.hold with
      | some h => h.1
      | none => { patch := 3#2 ++ n ++ t ++ f ++ v, lits := lits, tpl := patchRecord s n f v lits }
    { faultAt c 0 with body := some ti.tpl.toBits, origin := some (instrOrigin (.mma ti)) }
  | _ => faultAt c 0

/-- The fault of a deadlock (R40) (DEDUCED, log 48). -/
def deadlockStep (s : State) : Option State :=
  match deadlocked s with
  | some (c, q) =>
    let i := (instrAt s q).getD (.nop { tk := 0, peer := 0 })
    some (faultPrecise s q i (standingInfo s i c) (s.seq q).popped 0)
  | none => none

/-- DEADLOCK_DETECT (R40). -/
def execDeadlockDetect (s : State) : Out := .next ((deadlockStep s).getD s)

/-! ## Halts (R42, R43, R415, R440) -/

/-- A halt request for a running group whose world has save frames for it, and whose core is past its dispatch; without room the
shortage goes to the log (R415, R440). -/
def requestStep (s : State) (lid : BitVec 14) (g : Nat) : Option State :=
  match launchOf s lid with
  | none => none
  | some l =>
    match l.group g with
    | none => none
    | some x =>
      if x.state ≠ .running ∨ (ownInGroup s lid g ∧ s.core.run = .staging) then none
      else if s.core.run = .stopped ∧ ownInGroup s lid g ∨ saveRoom s (l.world s) lid g then some (haltGroup s lid g)
      else some (reportShort (updGroup s lid g (fun y => { y with yieldTo := false, quantumOver := false })) l g)

/-- PREEMPT_REQUEST (R415). -/
def execPreemptRequest (lid : BitVec 14) (g : Nat) (s : State) : Out := .next ((requestStep s lid g).getD s)

/-- A sequencer halts at its instruction boundary from Tp onward; with the last one the task stands still and its results in flight
are written (R42, R43). R42 allows any boundary up to Tp + 500 ticks: the model halts every sequencer in the engines' turn of the first
cycle whose time is at least Tp (DESIGN CHOICE, log 14), and while the operation that the matrix engine runs stands inside a K-group waits
for the group's end, up to that limit (R297; DESIGN CHOICE, log 30). -/
def haltStep (s : State) (q : SeqId) : Option State :=
  match s.core.run with
  | .halting tp =>
    if tp.toNat ≤ s.time.toNat ∧ !(s.seq q).halted ∧ !(decide (s.time.toNat < tp.toNat + 500) && (s.task.mats.take 1).any MatCmd.midGroup) then
      let s1 := s.withSeq q { s.seq q with halted := true }
      if s1.task.seqs.toList.all SeqState.halted then
        let s2 := s1.settleAll
        some { s2 with core := { s2.core with task := s2.task.halted, run := .stopped, haltCause := none, firmware := true } }
      else some s1
    else none
  | _ => none

/-- SEQUENCER_HALT (R42). -/
def execSequencerHalt (q : SeqId) (s : State) : Out := .next ((haltStep s q).getD s)

/-! ## The save image and the yard's action (R411, R415) -/

/-- A command that an engine accepted has a move left that it can make: its completion comes before the image (R44, log 11). -/
def enginesMove (s : State) : Bool :=
  s.task.copies.any (fun c => (copyStep s c.id).isSome || (copyDone s c.id).isSome) || (mkevStep s).isSome || (deferredStep s).isSome

/-- CAUSE, SEQ and CODE of a record (R227). -/
def recCause (r : FaultRec) : BitVec 8 := r.cause.truncate 8
def recSeq (r : FaultRec) : BitVec 2 := r.cause.extractLsb 13 12
def recCode (r : FaultRec) : BitVec 8 := r.cause.extractLsb 31 24

/-- What holds an image after a stop (R388, R411). -/
def holdOf (cause code : BitVec 8) : Hold :=
  if cause = causeNotPresent then .demand
  else if cause = causeEmulate then .emulate
  else if cause = causeSoftwareTrap then .trap code
  else .breakpoint

/-- A stop that R411 and R388 end with ERROR and a FAULT record; `handler` is the launch's HANDLER ring. -/
def stopFails (r : FaultRec) (handler : Nat) : Bool :=
  let code := (recCode r).toNat
  if recCause r = causeNotPresent ∨ recCause r = causeEmulate then false
  else if recCause r = causeBreakpoint then handler == 0
  else if recCause r = causeSoftwareTrap then !(code == 0 || code == 1 || code == 2 || code == 8 || (decide (0x80 ≤ code) && handler != 0))
  else true

/-- The FAULT record of a stop that fails, and ERROR for its launch if that has not ended already (R378, R411). -/
def stopError (s : State) (im : Image) : State :=
  endLaunch (logImage s im 0 im.task.faults.desc) im.task.ident.lid 1 (recCause im.task.faults) 0

/-- The yard's action on the cause of a stop, once the image is complete (R388, R411). -/
def yardAction (s : State) (im : Image) (handler : Nat) : State :=
  let r := im.task.faults
  let cause := recCause r
  let code := recCode r
  let x := (im.task.seqs.get (recSeq r)).x
  let kept := s.withPkg { s.pkg with images := s.pkg.images ++ [{ im with hold := holdOf cause code }] }
  if stopFails r handler then stopError s im
  else if cause = causeNotPresent then logImage kept im 1 []
  else if cause = causeEmulate then kept
  else if cause = causeBreakpoint then logImage kept im 4 []
  else
    match code.toNat with
    | 0x00 => kept
    | 0x01 => logImage kept im 3 [x.get 1, x.get 2, x.get 3, x.get 4]
    | 0x02 => endLaunch s im.task.ident.lid 5 0 ((x.get 1).truncate 32)
    | 0x08 => kept
    | _ => logImage kept im 4 []

/-- This core's image is complete: it is written at its save area, the core is free while the pages stay in their frames, and the yard acts
on the cause of a stop (R57, R411, R415) (DEDUCED, log 48). Of a launch that has ended the image is kept only while an engine has work for
it (R378), and the stop of a task that would have failed it has its FAULT record all the same (R411). -/
def saveOwn (s : State) : Option State :=
  if s.core.run ≠ .stopped ∨ enginesMove s then none
  else
    let i := s.task.ident
    let s0 := match (launchOf s i.lid).bind (fun l => l.group i.group) with
      | some g => if g.state = .running then haltGroup s i.lid i.group else s
      | none => s
    let s1 := releaseLocks s0
    let l := launchOf s0 i.lid
    let tp := match l.bind (fun l => l.group i.group) with | some g => g.tp | none => s.time
    let im := ownImage s1 (saveArea s (dieOf s.core.coreId) i.world []) tp
    let s2 := s1.writeImage im
    let cause := s.core.haltCause
    let s3 : State := { s2 with core := { s2.core with run := .idle, firmware := false, haltCause := none, lastWorld := i.world, task := Task.clear
                                                       loading := false, ready := false, staged := none } }
    match l with
    | none => some s3
    | some l =>
      let s4 := match cause with
        | none => if l.code.isSome then s3 else s3.withPkg { s3.pkg with images := s3.pkg.images ++ [im] }
        | some _ =>
          if !l.code.isSome then yardAction s3 im (recHandler l.record)
          else if stopFails im.task.faults (recHandler l.record) then stopError s3 im
          else s3
      let ended := match launchOf s4 i.lid with | some l => l.code.isSome | none => true
      let s5 := if ended && imageOwed s4 im then s4.withPkg { s4.pkg with images := s4.pkg.images ++ [{ im with area := none }] } else s4
      some (settleGroup s5 i.lid i.group)

/-- A peer's image is complete (DESIGN CHOICE, log 1). -/
def savePeer (s : State) (core : BitVec 11) : Option State :=
  match s.pkg.peers.find? (fun p => p.core == core && p.placed) with
  | some p =>
    (match launchOf s p.lid with
     | some l =>
       (match l.group p.group with
        | some g =>
          if g.state = .halting ∧ g.tp.toNat ≤ s.time.toNat then
            let gone := l.code.isSome
            let away := fun (x : Peer) => { x with placed := false, resident := false, area := saveArea s (dieOf p.core) p.world [] }
            let left := if gone then s.pkg.peers.filter (fun x => !decide (x = p)) else updFirst (fun x => decide (x = p)) away s.pkg.peers
            some (settleGroup (s.withPkg { s.pkg with peers := left }) p.lid p.group)
          else none
        | none => none)
     | none => none)
  | none => none

/-- SAVE_IMAGE_COMPLETE (R411, R415): a core that has not halted, or whose engines still move, completes nothing. -/
def execSaveImageComplete (core : BitVec 11) (s : State) : Out :=
  .next ((if core = s.core.coreId then saveOwn s else savePeer s core).getD s)

/-! ## Resuming after a service (R179, R214, R230, R362) -/

/-- An image replaced. -/
def putImage (s : State) (im im' : Image) : State :=
  (s.withPkg { s.pkg with images := updFirst (fun x => decide (x = im)) (fun _ => im') s.pkg.images }).writeImage im'

/-- The results of an emulated conversion in x registers (R179). -/
def placeResults (q : SeqId) (svc : Service) (s : State) : State :=
  let sq := s.seq q
  let x := svc.xs.foldl (fun (x : RegFile 4 Word64) p => if p.1 = 0 then x else x.set p.1 p.2) sq.x
  let xp := svc.xs.foldl (fun (x : RegFile 4 (Option Poison)) p => x.set p.1 none) sq.xPoison
  s.withSeq q { sq with x := x, xPoison := xp }

/-- The sequencer of a record. -/
def seqOf (n : BitVec 2) : SeqId := match n.toNat with | 0 => .S | 1 => .L | 2 => .C | _ => .W

/-- The trapping instruction retires: counted, its push made, the sequencer past it (R212, R214) (DEDUCED, log 25). -/
def retireTrap (q : SeqId) (s : State) : State :=
  match (s.seq q).wait with
  | some w =>
    let s1 := complete (s.withSeq q { s.seq q with wait := none }) q w.instr 0 [] .next w.push
    (s1.settleAll).withTask s1.task.retireAll
  | none => s

/-- The resume of a level-1 conversion past its word (R179, R208, R230), with its token actions made on the image, as ordering points that
report a lost write (R74, R89, log 17); while its pop finds no token, or its push no room or a fence that has not completed, it goes back to
FPC, to trap again. The record is that of a fault delivered at the instruction. -/
def resumeEmulated (q : SeqId) (svc : Service) (s : State) : Option (State × Option FaultRec) :=
  let w := s.plane.word q (s.seq q).pc.toNat
  let tk := w.extractLsb 25 24
  let peer := w.extractLsb 23 22
  let t := s.task
  let pop : Option (Task × Option FaultRec) :=
    match heldFault s q (tokensOrder t q tk peer) with
    | some (s1, r) => some (s1.task, some (deliverRec s1 q r (s.seq q).popped false))
    | none =>
      if tk.getLsbD 0 && !(s.seq q).popped then
        match popFifo t q peer with
        | [] => none
        | hd :: _ =>
          if !hd.filled then none
          else some ((popFences (s.withTask (dropToken t q peer)) q).task,
            if popValue t q peer hd then none else some (deliverRec s q (hd.record.getD FaultRec.none) true false))
      else some (t, none)
  match pop with
  | none => none
  | some (t1, some r) => some (s.withTask { t1 with faults := r }, some r)
  | some (t1, none) =>
    let s1 := placeResults q svc (s.withTask t1)
    let s2 := s1.withSeq q { (advance s1.plane q (s1.seq q) 1 false .next).1 with popped := false }
    match (if tk.getLsbD 1 then peerOf q peer else none) with
    | some p =>
      let n := fifoNum q p
      if fifoDepth ≤ (s2.task.fifos.get n).length ∨ fencedPoint s2 q then none
      else
        let t2 := s2.task
        some ((s2.withTask { t2 with fifos := t2.fifos.set n (t2.fifos.get n ++ [{ Slot.reserved s2.nextId with filled := true }]) }).fresh, none)
    | none => some (s2, none)

/-- The images that firmware resumes by itself (R388, R411). -/
def serviceHeld (im : Image) : Bool :=
  match im.hold with
  | .emulate => true
  | .trap c => c == 0 || c == 1 || c == 8
  | _ => false

/-- FAULT_RESUME on an image held for a service: its results are put in place and the task waits for its resume; the translator's service
serves TRAP 0x08, and without room in the heap, or with a module on a page that it may not read, it ends the launch (R230, R362, R364,
R396). -/
def resumeImage (s : State) (svc : Service) (im : Image) : State :=
  let q := seqOf (recSeq im.task.faults)
  let i := im.task.ident
  let done := fun (v : State) =>
    let im' := { im with task := v.core.task, plane := v.core.planes.get im.task.active, hold := .preempted }
    settleGroup (putImage (updLaunch { s with nextId := v.nextId, freeCtr := v.freeCtr } i.lid (fun l =>
      match launchOf v i.lid with | some x => { l with cache := x.cache } | none => l)) im im') i.lid i.group
  let view := viewOf s im
  if im.hold = .emulate then
    match resumeEmulated q svc view with
    | none => done view
    | some (v, none) => done v
    | some (v, some _) => stopError s { im with task := v.core.task }
  else if im.hold = .trap 8 then
    match launchOf s i.lid with
    | some l =>
      if !moduleReadable view l q svc then endLaunch s i.lid 3 0 0
      else (match translatorServe view l q svc with
        | some v => done (retireTrap q v)
        | none => endLaunch s i.lid 4 0 0)
    | none => s
  else done (retireTrap q view)

/-- FAULT_RESUME on the oldest image held for a service. -/
def resumeStep (s : State) (svc : Service) : Option State := (s.pkg.images.find? serviceHeld).map (resumeImage s svc)

/-- The image of a TRAP whose service returns nothing: the yard resumes it by itself (R388). -/
def plainTrap (im : Image) : Bool := decide (im.hold = .trap 0) || decide (im.hold = .trap 1)

/-- The resume of such a TRAP. -/
def trapResume (s : State) : Option State :=
  (s.pkg.images.find? plainTrap).map (resumeImage s { xs := [], nfunc := 0, code := [] })

/-- FAULT_RESUME (R230). -/
def execFaultResume (svc : Service) (s : State) : Out := .next ((resumeStep s svc).getD s)

/-! ## Resuming a group (R45, R420) -/

/-- A task as its core loads it: TOFS raised by Tr − Tp, the times of buffered copies with it, stopped engine work to go on, pins
to be held again (R45, R57, R296, R420), stream jobs marked as issued before the halt (R91); an MKEV that faulted in its run is issued again (R305). -/
def rebased (t : Task) (delta : Word64) : Task :=
  { t with
    tofs := t.tofs + delta
    copies := t.copies.map (fun c => if c.accepted then c else { c with eff := c.eff + delta })
    mats := t.mats.map (fun m => if m.stamped && !m.started then { m with eff := m.eff + delta, stopped := false } else { m with stopped := false })
    jobs := t.jobs.map (fun j => { j with stopped := false, held := true }) }

/-- The state of the core cleared at a change of world (R46). -/
def clearCore (s : State) (world : BitVec 6) : State :=
  let s1 := releaseLocks (evictAll s)
  { s1 with core := { s1.core with task := { Task.clear with active := s1.core.task.active }, planes := RegFile.fill 1 Plane.clear, l1 := []
                                   resident := [], lastWorld := world, ready := false, staged := none } }

/-- An image loaded on this core, its pins refilled, its successor's plane to be staged again; ERET starts it (R420) (DEDUCED, log 48). -/
def loadOwn (s : State) (im : Image) (tr : Word64) : State :=
  let i := im.task.ident
  let s0 := if s.core.lastWorld = i.world then s else clearCore s i.world
  let t := rebased im.task (tr - im.tp)
  let s1 : State := { s0 with core := { s0.core with
    task := t
    planes := (s0.core.planes.set (t.active + 1) Plane.clear).set t.active im.plane
    run := .staging
    next := none
    loading := i.succRec != 0
    ready := false
    staged := none
    refused := false
    lastWorld := i.world
    firmware := true
    stampFrom := tr
    olds := [] } }
  (t.pins.map BitVec.toNat).foldl refillPage (fitFrames s1)

/-- The image's stored bits fail correction (R458). -/
def imageLost (s : State) (im : Image) : Bool :=
  !im.valid || (match im.area with | some a => (badAt s.bad a imageSize).isSome | none => false)

/-- Engines have still writes to perform for saved tasks of the world that this core ran last (R91). -/
def worldOwed (s : State) : Bool :=
  s.pkg.images.any (fun im => im.core == s.core.coreId && im.task.ident.world == s.core.lastWorld && imageOwed s im)

/-- A pre-empted group can be resumed: Tp has come, and where this core is to run a task of another world it can drain and clear (R42, R46, R91). -/
def canResume (s : State) (l : Launch) (g : Nat) : Bool :=
  (imagesIn s l.lid g).all (fun i => i.core == s.core.coreId && (i.task.ident.world == s.core.lastWorld || !worldOwed s)) &&
    (match l.group g with | some x => decide (x.tp.toNat ≤ s.time.toNat) | none => false)

/-- The tasks of a saved group in TASKID order, each with the core that it had. -/
def savedTasks (s : State) (lid : BitVec 14) (g : Nat) : List (Nat × Nat) :=
  sortBy Prod.fst ((peersIn s lid g).map (fun p => (p.task.toNat, p.core.toNat)) ++
    (imagesIn s lid g).map (fun i => (i.task.ident.taskId.toNat, i.core.toNat)))

/-- The core that a list of cores in TASKID order gives to a task of a saved group. -/
def coreGiven (s : State) (lid : BitVec 14) (g : Nat) (cores : List Nat) (p : Peer) : BitVec 11 :=
  match ((savedTasks s lid g).zip cores).find? (fun x => x.1.1 == p.task.toNat) with
  | some x => BitVec.ofNat 11 x.2
  | none => p.core

/-- A pre-empted group resumes on the given cores, in TASKID order: one Tr for all, at which the first instructions issue (R45, R420). An image
whose bits are lost cuts its launch short (R391, R458). -/
def groupResume (s : State) (l : Launch) (g : Nat) (cores : List Nat) : State :=
  if (imagesIn s l.lid g).any (imageLost s) then cutShort s l.lid
  else
    let s1 := updGroup s l.lid g (fun x =>
      { x with state := .running, since := s.time, aging := 0, quantumOver := false, yieldTo := false, short := false })
    let s2 := s1.withPkg { s1.pkg with
      peers := s1.pkg.peers.map (fun p => if p.lid = l.lid ∧ p.group = g then
        { p with core := coreGiven s l.lid g cores p, placed := true, resident := true, area := none } else p) }
    match imagesIn s2 l.lid g with
    | im :: _ => loadOwn (s2.withPkg { s2.pkg with images := s2.pkg.images.filter (fun x => !decide (x = im)) }) im (s.time + 1)
    | [] => s2

/-! ## Drain and clear, and refills (R46, R54, R55) -/

/-- A staged task of another world: the core drains, every write of the old world performed, and clears (R46, R91). -/
def drainClearStep (s : State) : Option State :=
  match s.core.run, s.core.next with
  | .staging, some i => if s.core.lastWorld ≠ i.world ∧ !worldOwed s then some (clearCore s i.world) else none
  | _, _ => none

/-- DRAIN_AND_CLEAR (R46): on a core whose next task is of the same world nothing is cleared. -/
def execDrainAndClear (s : State) : Out := .next ((drainClearStep s).getD s)

/-- A page that a stalled sequencer waits for is refilled, once its bank has a frame to give (R54, R55). -/
def refillStep (s : State) (page : BitVec 7) : Option State :=
  if taskLive s && allSeqs.any (fun q => decide ((s.seq q).stall = some (.page page))) && !resident s page.toNat then
    let s1 := refillPage s page.toNat
    if resident s1 page.toNat then some s1 else none
  else none

/-- SCRATCH_REFILL (R55). -/
def execScratchRefill (page : BitVec 7) (s : State) : Out := .next ((refillStep s page).getD s)

end Sys2Proof.Machine
end

