-- ==== Sys2Proof/Machine/Launches.lean ====
section
/-! DEFINITION. The yard: its window and commands (R370 to R373, R412), acceptance of packets (R377, R381), the states of a launch
(R384, R385), service order, placement, aging and pre-emption for priority (R386), completion (R378, R379, R389, R390), yard
reset and the failure and return of a die (R391, R392), held tasks and log records (R403, R412). -/

namespace Sys2Proof.Machine

open Sys2Proof

/-! ## Yards -/

/-- The state with a yard changed. -/
def updYard (s : State) (d : BitVec 2) (f : Yard → Yard) : State :=
  s.withPkg { s.pkg with yards := s.pkg.yards.set d (f (s.pkg.yards.get d)) }

/-- The yard that serves the queues of a die runs: its own, or after a failure that of the next die (R392). -/
def yardServes (s : State) (d : BitVec 2) : Bool :=
  let y := s.pkg.yards.get d
  if y.failed then (s.pkg.yards.get (d + 1)).mirroring && !(s.pkg.yards.get (d + 1)).failed else y.state == 1

/-- INFLIGHT of a die (R371). -/
def inflight (s : State) (d : BitVec 2) : Nat := countOf (fun l => l.lid.extractLsb 13 12 == d) s.pkg.launches

/-- The index of a launch: die and place in its yard's table (R372) (DEDUCED, log 40). -/
def lidOf (d : BitVec 2) (n : Nat) : BitVec 14 := d ++ BitVec.ofNat 12 n

/-- The error of a yard command (R372). -/
def cmdErr (s : State) (d : BitVec 2) (e : BitVec 8) : State := updYard s d (fun y => { y with cmdErr := e })

/-- OP, NEXT, QUEUE and LID of a command (R372). -/
def cmdOp (c : Word64) : Nat := bitsOf c.toNat 0 4
def cmdNext (c : Word64) : Bool := c.getLsbD 4
def cmdQueue (c : Word64) : BitVec 10 := BitVec.ofNat 10 (bitsOf c.toNat 16 10)
def cmdLid (d : BitVec 2) (c : Word64) : BitVec 14 := lidOf d (bitsOf c.toNat 32 12)

/-- A queue table entry is valid: its fields, and a PTROOT that names a table frame of its world (R373, R425). -/
def entryOk (s : State) (e : Nat) : Bool :=
  let root := bitsOf e 64 52
  bitsOf e 60 4 == 0 && bitsOf e 116 12 == 0 && bitsOf e 134 2 == 0 && bitsOf e 140 372 == 0 && root % 2 ^ 16 == 0 &&
    bitsOf e 0 56 % 2 ^ 12 == 0 && decide (2 ≤ bitsOf e 56 4) && isLpddr root && frameKind s root == (2, bitsOf e 128 6)

/-- RING and N of a queue (R373). -/
def Queue.ring (x : Queue) : Nat := bitsOf x.entry.toNat 0 56
def Queue.slots (x : Queue) : Nat := 2 ^ bitsOf x.entry.toNat 56 4

/-- The yard log set up: LOGBASE, LOG2N in range and the rest of the header zero (R8, R412). -/
def logSetUp (s : State) (y : Yard) : Option Nat :=
  let base := y.logBase.toNat
  if y.logBase ≠ 0 ∧ base % 4096 = 0 ∧ s.load (base + 0x20) 0xE0 = 0 then ringSize (s.load (base + 16) 8) else none

/-- QENABLE once the log is set up (R372, R373) (DEDUCED, log 48). -/
def enableQueue (s : State) (d : BitVec 2) (n : BitVec 10) : State :=
  let y := s.pkg.yards.get d
  let e := s.load (y.qtBase.toNat + 64 * n.toNat) 64
  if y.queues.any (fun x => x.num == n && x.enabled) then cmdErr s d 4
  else if !entryOk s e then cmdErr s d 2
  else
    let x : Queue := { num := n, entry := BitVec.ofNat 512 e, enabled := true, accIdx := 0, polled := s.time }
    let s1 := updYard s d (fun y => { y with queues := y.queues.filter (fun z => z.num != n) ++ [x] })
    match yardRead s1 d n (x.ring + 0x40) 8 with
    | some v => cmdErr (updYard s1 d (fun y => { y with queues := updFirst (fun z => z.num == n) (fun z => { z with accIdx := BitVec.ofNat 64 v }) y.queues })) d 0
    | none => cmdErr s d 2

/-- QENABLE (R372): the first one after a reset checks the yard log (R412). -/
def execQenable (die : BitVec 2) (cmd : Word64) (s : State) : Out :=
  let y := s.pkg.yards.get die
  .next (
    if y.failed then s
    else if cmdOp cmd ≠ 1 ∨ cmdNext cmd then cmdErr s die 1
    else if y.state = 0 then
      match logSetUp s y with
      | none => cmdErr s die 5
      | some n => enableQueue (updYard s die (fun y => { y with state := 1, logAddr := y.logBase, logN := n })) die (cmdQueue cmd)
    else enableQueue s die (cmdQueue cmd))

/-- QDISABLE (R372): launches already accepted run on. -/
def execQdisable (die : BitVec 2) (cmd : Word64) (s : State) : Out :=
  .next (
    if (s.pkg.yards.get die).failed then s
    else if cmdOp cmd ≠ 2 ∨ cmdNext cmd then cmdErr s die 1
    else cmdErr (updYard s die (fun y => { y with queues := updFirst (fun x => x.num == cmdQueue cmd) (fun x => { x with enabled := false }) y.queues })) die 0)

/-- A task that waits for the driver (R388, R411). -/
def driverHeld (im : Image) : Bool :=
  match im.hold with
  | .breakpoint => true
  | .trap c => decide (0x80 ≤ c.toNat)
  | _ => false

/-- A BREAKPOINT resumed at FPC: the word there issues again, its pop kept, its push slot given back (R230, R372). -/
def reissueBreak (q : SeqId) (s : State) : State :=
  match (s.seq q).wait with
  | some w => let s1 := s.withTask (s.task.dropPush w.push); s1.withSeq q { s1.seq q with wait := none }
  | none => s

/-- The task held for the driver goes on (R372). -/
def releaseHeld (s : State) (im : Image) (again : Bool) : State :=
  let q := seqOf (recSeq im.task.faults)
  let i := im.task.ident
  let view := viewOf s im
  let v := if again then reissueBreak q view else retireTrap q view
  settleGroup (putImage s im { im with task := v.core.task, plane := v.core.planes.get im.task.active, hold := .preempted }) i.lid i.group

/-- LRESUME (R372). -/
def execLresume (die : BitVec 2) (cmd : Word64) (s : State) : Out :=
  .next (
    if (s.pkg.yards.get die).failed then s
    else if cmdOp cmd ≠ 3 then cmdErr s die 1
    else
      match s.pkg.images.find? (fun im => im.task.ident.lid == cmdLid die cmd && driverHeld im) with
      | none => cmdErr s die 3
      | some im =>
        if im.hold = .breakpoint then cmdErr (releaseHeld s im (!cmdNext cmd)) die 0
        else if cmdNext cmd then cmdErr s die 1
        else cmdErr (releaseHeld s im false) die 0)

/-- LABORT (R372, R378). -/
def execLabort (die : BitVec 2) (cmd : Word64) (s : State) : Out :=
  .next (
    if (s.pkg.yards.get die).failed then s
    else if cmdOp cmd ≠ 4 ∨ cmdNext cmd then cmdErr s die 1
    else match launchOf s (cmdLid die cmd) with
      | none => cmdErr s die 3
      | some l => cmdErr (endLaunch s l.lid 7 0 0) die 0)

/-- A register of the window without behaviour of its own (R370, R412): the journal's only in STATE 0, LOGBASE until it has been
read; other offsets are ignored. -/
def execYardRegisterWrite (die : BitVec 2) (off : BitVec 27) (val : Word64) (s : State) : Out :=
  let y := s.pkg.yards.get die
  let y1 : Yard :=
    match off.toNat with
    | 0x18 => { y with qtBase := val }
    | 0x20 => if y.state = 0 then { y with jBase := val } else y
    | 0x28 => if y.state = 0 then { y with jMirror := val } else y
    | 0x30 => if y.state = 0 then { y with jSize := val } else y
    | 0x38 => { y with regBase := val }
    | 0x40 => { y with schedBase := val }
    | 0x48 => { y with ageTick := val }
    | 0x50 => { y with quantum := val }
    | 0x58 => { y with stageMax := val }
    | 0x60 => if y.state = 0 then { y with logBase := val } else y
    | _ => y
  .next (if y.failed then s else updYard s die (fun _ => y1))

/-- A register of the yard window as an 8-byte read gives it (R370 to R372). -/
def yardReg (s : State) (d : BitVec 2) (off : Nat) : Word64 :=
  let y := s.pkg.yards.get d
  match off with
  | 0x00 => BitVec.ofNat 64 (y.state.toNat + y.mirroring.toNat * 4 + inflight s d * 2 ^ 16)
  | 0x10 => BitVec.ofNat 64 (y.cmdErr.toNat * 2 ^ 8)
  | 0x18 => y.qtBase
  | 0x20 => y.jBase
  | 0x28 => y.jMirror
  | 0x30 => y.jSize
  | 0x38 => y.regBase
  | 0x40 => y.schedBase
  | 0x48 => y.ageTick
  | 0x50 => y.quantum
  | 0x58 => y.stageMax
  | 0x60 => y.logBase
  | _ => 0

/-! ## Acceptance (R375, R377, R381, R389) -/

/-- The bytes that the model takes a journal record to use (R389 gives no format; DESIGN CHOICE, log 14). -/
def journalBytes : Nat := 256

/-- The journal has no room for one more record (R377). -/
def journalFull (y : Yard) : Bool := decide (y.jSize.toNat < journalBytes * (y.journal.length + 1))

/-- A journal record as the model writes it to memory (R389 gives no format; DESIGN CHOICE, log 14). -/
def journalWords : JournalRec → List Word64
  | .accept n seq lid ws => [1#64, n.zeroExtend 64, seq.zeroExtend 64, lid.zeroExtend 64] ++ List.replicate 12 0 ++ ws
  | .dispatch lid g => [2#64, BitVec.ofNat 64 g, 0, lid.zeroExtend 64]
  | .complete lid => [3#64, 0, 0, lid.zeroExtend 64]

/-- The bytes of a journal record at the journal and at its mirror, in the next place of each (R389). -/
def journalWrite (s : State) (d : BitVec 2) (r : JournalRec) : State :=
  let y := s.pkg.yards.get d
  let places := y.jSize.toNat / journalBytes
  if places = 0 then s
  else
    [y.jBase, y.jMirror].foldl (fun s b =>
      let pa := b.toNat + journalBytes * (y.appended % places)
      { s with mem := memPutRange s.mem pa (section64 32 (journalWords r)), bad := badAfterWrite s.bad pa journalBytes }) s

/-- A record appended to a yard's journal (R389). -/
def journalPut (s : State) (d : BitVec 2) (r : JournalRec) : State :=
  updYard (journalWrite s d r) d (fun y => { y with journal := y.journal ++ [r], appended := y.appended + 1 })

/-- The most launches of one yard (R377). -/
def maxInflight : Nat := 4095

/-- The lowest launch index of a die that is not in use. -/
def freeLid (s : State) (d : BitVec 2) : Option (BitVec 14) :=
  ((upTo 4096).map (lidOf d)).find? (fun l => !s.pkg.launches.any (fun x => x.lid == l))

/-- An accepted packet as a launch (R377). -/
def newLaunch (s : State) (lid : BitVec 14) (d : BitVec 2) (n : BitVec 10) (packet : RegFile 4 Word64) : Launch where
  lid := lid
  queueDie := d
  queue := n
  packet := packet
  record := RegFile.fill 6 0
  state := .accepted
  since := s.time
  groups := []
  fresh := 0
  freshAging := 0
  tasksDone := 0
  total := 0
  groupSize := 1
  code := none
  cause := 0
  userCode := 0
  succRef := false
  restarted := false
  cache := []

/-- The slot that a queue's ACCIDX names (R374). -/
def slotVa (x : Queue) : Nat := x.ring + 0x80 + 0x80 * (x.accIdx.toNat % x.slots)

/-- One examination of a queue: the packet at ACCIDX is accepted when VALID = 1 and SEQ fits (R377). -/
def examine (s : State) (d : BitVec 2) (n : BitVec 10) : Option State :=
  match queueOf s d n, freeLid s d with
  | some x, some lid =>
    if !x.enabled || !yardServes s d || decide (maxInflight ≤ inflight s d) || journalFull (s.pkg.yards.get d) then none
    else match yardRead s d n (slotVa x) 8 with
      | none => none
      | some w0 =>
        if !(bitAt w0 0 && w0 / 2 ^ 32 == x.accIdx.toNat % 2 ^ 32) then none
        else match yardRead s d n (slotVa x) 128 with
          | none => none
          | some v =>
            let packet : RegFile 4 Word64 := Vector.ofFn (fun i => BitVec.ofNat 64 (v / 2 ^ (64 * i.val)))
            let s1 := journalPut (yardTouch s d n (slotVa x) 128) d (.accept n (BitVec.ofNat 32 (w0 / 2 ^ 32)) lid packet.toList)
            let s2 := yardWrite s1 d n (slotVa x) 8 0
            let s3 := yardWrite s2 d n (x.ring + 0x40) 8 ((x.accIdx.toNat + 1) % 2 ^ 64)
            let s4 := updYard s3 d (fun y => { y with queues := updFirst (fun z => z.num == n) (fun z => { z with accIdx := z.accIdx + 1 }) y.queues })
            some (s4.withPkg { s4.pkg with launches := s4.pkg.launches ++ [newLaunch s lid d n packet] })
  | _, _ => none

/-- A slot examined without an acceptance: word 0 of an enabled queue's slot has been read (R377, R407). -/
def lookOnly (s : State) (d : BitVec 2) (n : BitVec 10) : State :=
  match queueOf s d n with
  | some x => if x.enabled && yardServes s d then yardTouch s d n (slotVa x) 8 else s
  | none => s

/-- The package leaves breeze (R457). -/
def leaveBreeze (s : State) : State :=
  if s.pkg.power.state = .breeze then
    s.withPkg { s.pkg with power := { s.pkg.power with state := .active, changed := s.time, idleSince := s.time } }
  else s

/-- NOTIFY (R377): a hint to examine the queue. It also wakes the package from breeze (R457). -/
def execNotify (die : BitVec 2) (queue : BitVec 10) (s : State) : Out :=
  let s1 := leaveBreeze s
  .next ((examine s1 die queue).getD (lookOnly s1 die queue))

/-- The ticks between two examinations of a queue with unaccepted packets (R377). -/
def pollTicks : Nat := 25000

/-- A queue is due to be examined: WRIDX differs from ACCIDX and 25,000 ticks have passed (R377). -/
def pollDue (s : State) (d : BitVec 2) (x : Queue) : Bool :=
  x.enabled && decide (pollTicks ≤ (s.time - x.polled).toNat) &&
    (match yardRead s d x.num x.ring 8 with | some w => w != x.accIdx.toNat | none => false)

/-- QUEUE_POLL_TIMER (R377). -/
def execQueuePollTimer (die : BitVec 2) (queue : BitVec 10) (s : State) : Out :=
  .next (match queueOf s die queue with
    | some x =>
      if pollDue s die x then
        let s1 := updYard (yardTouch s die queue x.ring 8) die (fun y =>
          { y with queues := updFirst (fun z => z.num == queue) (fun z => { z with polled := s.time }) y.queues })
        (examine s1 die queue).getD (lookOnly s1 die queue)
      else s
    | none => s)

/-! ## From ACCEPTED to READY (R384, R385) -/

/-- The launches of the same queue accepted before. -/
def earlier (s : State) (l : Launch) : List Launch :=
  (s.pkg.launches.takeWhile (fun x => x.lid != l.lid)).filter (fun x => x.queueDie == l.queueDie && x.queue == l.queue)

/-- A launch may leave ACCEPTED (R384). -/
def mayWait (s : State) (l : Launch) : Bool :=
  if (l.packet.get 0).getLsbD 4 then (earlier s l).isEmpty else (earlier s l).all (fun x => decide (x.state ≠ .accepted))

/-- TYPE of a packet (R375). -/
def packetType (l : Launch) : Nat := bitsOf (l.packet.get 0).toNat 1 3

/-- A packet that R381 refuses: a reserved type, bit or word, or an LREC against its type; or one with a misaligned address (R4, R375). -/
def packetBad (l : Launch) : Bool :=
  let lrec := l.packet.get 1
  (l.packet.get 2).toNat % 8 != 0 || (l.packet.get 3).toNat % 16 != 0 || [4#4, 5#4, 6#4, 7#4].any (fun i => (l.packet.get i).toNat % 8 != 0) ||
  decide (1 < packetType l) || (packetType l == 0 && lrec == 0) || (packetType l == 1 && lrec != 0) ||
    bitsOf (l.packet.get 0).toNat 6 26 != 0 || (upTo 8).any (fun i => l.packet.get (BitVec.ofNat 4 (8 + i)) != 0)

/-- Dependency signals of a packet. -/
def depsOf (l : Launch) : List Nat := ([4#4, 5#4, 6#4, 7#4].map (fun i => (l.packet.get i).toNat)).filter (fun a => a != 0)

/-- The record is read and checked, and its plane image with it (R380, R382, R384, R402). -/
def checkRecord (s0 : State) (l : Launch) : State :=
  let va := (l.packet.get 1).toNat
  let s := yardTouch s0 l.queueDie l.queue va 512
  match yardXlate s l.queueDie l.queue va false with
  | .fail c => endLaunch s l.lid (if c = causeNotPresent then 3 else 6) 0 0
  | .ok _ _ =>
    if va % 512 ≠ 0 then endLaunch s l.lid 3 0 0
    else match recordAt s l.queueDie l.queue va with
      | none => endLaunch s l.lid 6 0 0
      | some r =>
        if recordOk s l.queueDie l.queue r && (planeOf s l.queueDie l.queue r).isSome then
          let levels := declared (recLevels r)
          updLaunch (imageTouch s l.queueDie l.queue r) l.lid (fun x =>
            { x with record := r, state := .staging, since := s.time, total := groupSizeOf levels, groupSize := groupSizeOf (gangLevels levels) })
        else endLaunch s l.lid 3 0 0

/-- The next move of a launch that is ACCEPTED or WAITING (R384): it waits in its turn; with every signal at 0 or below its record
is checked, or a BARRIER completes. -/
def depStep (s : State) (lid : BitVec 14) : Option State :=
  match launchOf s lid with
  | none => none
  | some l =>
    if l.code.isSome then none
    else match l.state with
      | .accepted =>
        if !mayWait s l then none
        else if packetBad l then some (endLaunch (updLaunch s lid (fun x => { x with state := .waiting })) lid 3 0 0)
        else some (updLaunch s lid (fun x => { x with state := .waiting }))
      | .waiting =>
        let reads := (depsOf l).map (fun a => if a % 8 ≠ 0 then none else yardRead s l.queueDie l.queue a 8)
        let s1 := (depsOf l).foldl (fun s a => yardTouch s l.queueDie l.queue a 8) s
        if reads.any Option.isNone then some (endLaunch s1 lid 6 0 0)
        else if reads.all (fun v => match v with | some n => decide (toSigned 64 n ≤ 0) | none => false) then
          some (if packetType l = 1 then endLaunch s1 lid 0 0 0 else checkRecord s1 l)
        else none
      | _ => none

/-- DEP_SIGNAL_SATISFIED (R384): while a signal is above 0 the launch waits on. -/
def execDepSignalSatisfied (lid : BitVec 14) (s : State) : Out := .next ((depStep s lid).getD s)

/-- The launches before it have entered READY (R384). -/
def readyInOrder (s : State) (l : Launch) : Bool :=
  (earlier s l).all (fun x => !(decide (x.state = .accepted) || decide (x.state = .waiting) || decide (x.state = .staging)) || x.code.isSome)

/-- Every line of a stretch of global memory fetched into L2; lines without a translation are left out (R385). -/
def stageLines (s : State) (l : Launch) (va : Nat) : Nat → State
  | 0 => s
  | n + 1 =>
    let s1 := match yardXlate s l.queueDie l.queue va false with
      | .ok pa leaf => l2Touch s pa (l.world s) (leaf.extractLsb 7 6 != 0 || tierManaged s pa) false
      | .fail _ => s
    stageLines s1 l (va + 128) n

/-- The eight input streams staged (R380, R385). -/
def stageAll (s : State) (l : Launch) : State :=
  (upTo 8).foldl (fun s i =>
    let va := (l.record.get (BitVec.ofNat 6 (16 + 2 * i))).toNat
    let len := (l.record.get (BitVec.ofNat 6 (17 + 2 * i))).toNat
    if len = 0 then s else stageLines s l (va / 128 * 128) ((va + len + 127) / 128 - va / 128)) s

/-- The launch has a level bound to the package (R392). -/
def needsPackage (l : Launch) : Bool := (declared (recLevels l.record)).any (fun e => levelDomain e == 4)

/-- RESTART of a packet (R375, R391). -/
def restartable (l : Launch) : Bool := (l.packet.get 0).getLsbD 5

/-- A launch enters READY; one that needs the package while a die has failed waits there if it is restartable, and is aborted otherwise
(R384, R392). -/
def makeReady (s : State) (l : Launch) : State :=
  if needsPackage l && s.pkg.yards.toList.any Yard.failed && !restartable l then endLaunch s l.lid 2 0 0
  else updLaunch s l.lid (fun x => { x with state := .ready, since := s.time })

/-- STAGING_DONE (R384, R385). -/
def stagedStep (s : State) (lid : BitVec 14) : Option State :=
  match launchOf s lid with
  | some l => if l.state = .staging ∧ l.code.isNone ∧ readyInOrder s l then some (makeReady (stageAll s l) l) else none
  | none => none

/-- STAGING_DONE (R385). -/
def execStagingDone (lid : BitVec 14) (s : State) : Out := .next ((stagedStep s lid).getD s)

/-- STAGEMAX_EXPIRY (R384): the launch is READY with what has been staged. -/
def execStagemaxExpiry (lid : BitVec 14) (s : State) : Out :=
  .next (match launchOf s lid with
    | some l =>
      if l.state = .staging ∧ l.code.isNone ∧ readyInOrder s l ∧ (s.pkg.yards.get l.queueDie).stageMax.toNat ≤ (s.time - l.since).toNat then
        makeReady s l
      else s
    | none => s)

/-! ## Service and placement (R386) -/

/-- A launch may have groups dispatched: its world is LIVE and the loft's segments have been measured (R429, R444), the package is
active (R423), and a launch that needs the package has four dies (R392). -/
def dispatchable (s : State) (l : Launch) : Bool :=
  l.code.isNone && (l.state == .ready || l.state == .running) && decide ((s.pkg.security.worlds.get (l.world s)).state = .live) &&
    s.pkg.security.measured && decide (s.pkg.power.state = .active) && !s.pkg.power.toLull && yardServes s l.queueDie &&
    !(needsPackage l && s.pkg.yards.toList.any Yard.failed)

/-- The number of a queue in the package. -/
def queueIdx (l : Launch) : Nat := l.queueDie.toNat * 1024 + l.queue.toNat

/-- The groups that may be served: every pre-empted one, and of each queue those of its first launch with groups that have not been
dispatched, which wait with it where it cannot be (R384, R386). -/
def queueHeads (s : State) : List Launch → List Nat → List (Launch × Group)
  | [], _ => []
  | l :: t, seen =>
    if l.code.isSome || !(l.state == .ready || l.state == .running) then queueHeads s t seen
    else
      let mine := l.waiting.filter (fun g => decide (g.state = .preempted) || !seen.contains (queueIdx l))
      (if dispatchable s l then mine.map (fun g => (l, g)) else []) ++
        queueHeads s t (if l.waiting.any (fun g => decide (g.state ≠ .preempted)) then queueIdx l :: seen else seen)

/-- The waiting groups in the order of service: effective priority, then round-robin among queues, then the oldest first (R386). -/
def serviceOrder (s : State) : List (Launch × Group) :=
  sortBy (fun p => ((15 - effPrio p.1 p.2) * 4096 + (queueIdx p.1 + 4095 - s.pkg.served) % 4096) * 2 ^ 64 + p.2.since.toNat)
    (queueHeads s s.pkg.launches [])

/-- Tasks of a launch with a core of their own, saved ones with the core they had (R14, R25). -/
def tasksHeld (s : State) (lid : BitVec 14) : List (Nat × Nat) :=
  placedTasks s lid ++ ((s.pkg.peers.filter (fun p => !p.placed && p.lid == lid)).map (fun p => (p.task.toNat, p.core.toNat))) ++
    ((s.pkg.images.filter (fun i => i.task.ident.lid == lid)).map (fun i => (i.task.ident.taskId.toNat, i.core.toNat)))

/-- Cores for a waiting group from the idle cores and some more; for a pre-empted group in the instances that it had, or the cores themselves
(R14, R386). -/
def coresFor (s : State) (l : Launch) (g : Group) (extra : List Nat) : Option (List Nat) :=
  let free := fun (c : Nat) => coreIdle s c || (extra.contains c && !coreLost s c)
  let levels := declared (recLevels l.record)
  let avail := (coreOrder levels l.queueDie).filter free
  if g.state = .preempted then
    let old := (savedTasks s l.lid g.num).map Prod.snd
    let others := (tasksHeld s l.lid).filter (fun p => !(savedTasks s l.lid g.num).contains p)
    (assignGroup s.freeCtr levels (g.num * l.groupSize) others (some s.core.coreId.toNat) old avail).or (if old.all free then some old else none)
  else assignGroup s.freeCtr levels (g.num * l.groupSize) (tasksHeld s l.lid) none [] avail

/-- A task placed on a core (R32, R386): staged on this core, or a peer. -/
def placeTask (s : State) (l : Launch) (task core : Nat) : State :=
  let c := BitVec.ofNat 11 core
  let i := identOf s l task c
  if c = s.core.coreId then
    { s with core := { s.core with run := .staging, next := some i, loading := true, ready := false, staged := none, refused := false } }
  else
    let p : Peer := { core := c, lid := l.lid, group := i.group, task := i.taskId, world := i.world, slot := c, split := recSplit l.record
                      scrBase := i.scrBase, die := i.die, queue := i.queue, placed := true, resident := false, pins := [], area := none }
    s.withPkg { s.pkg with peers := s.pkg.peers ++ [p] }

/-- A fresh group placed on its cores (R384, R386, R387, R389). -/
def placeGroup (s : State) (l : Launch) (g : Group) (cores : List Nat) : State :=
  let s1 := setPhase (journalPut s l.queueDie (.dispatch l.lid g.num)) l (BitVec.ofNat 11 (cores.headD 0))
  let s2 := (cores.zipIdx).foldl (fun s p => placeTask s l (g.num * l.groupSize + p.2) p.1) s1
  let g' := { g with state := .running, since := s.time, aging := 0 }
  updLaunch { s2 with freeCtr := s2.freeCtr + 1 } l.lid (fun x => { x with state := .running, groups := x.groups ++ [g'], fresh := x.fresh + 1 })

/-- Running groups of lower PRIO than the waiter that have had their QUANTUM and are past their dispatch (R30, R386). -/
def lowerGroups (s : State) (l : Launch) (g : Group) : List (Launch × Group) :=
  (s.pkg.launches.flatMap (fun x => (x.groups.filter (fun y => decide (y.state = .running))).map (fun y => (x, y)))).filter (fun p =>
    decide (p.1.prio < effPrio l g) && (p.2.quantumOver || l.prio == 15) && !groupStaging s p.1.lid p.2.num)

/-- Running groups that a waiter may pre-empt, lowest PRIO first, the latest dispatched first among equals (R386, R440). -/
def victimsFor (s : State) (l : Launch) (g : Group) : List (Launch × Group) :=
  sortBy (fun p => p.1.prio * 2 ^ 64 + (2 ^ 64 - 1 - p.2.since.toNat))
    ((lowerGroups s l g).filter (fun p => saveRoom s (p.1.world s) p.1.lid p.2.num))

/-- A group that runs on for want of save frames alone, which the log has not been told yet (R440). -/
def shortGroup (s : State) (l : Launch) (g : Group) : Option (Launch × Group) :=
  (lowerGroups s l g).find? (fun p => !p.2.short && !saveRoom s (p.1.world s) p.1.lid p.2.num)

/-- The cores of a group. -/
def coresOf (s : State) (lid : BitVec 14) (g : Nat) : List Nat :=
  (placedTasks s lid).filter (fun p => (peersIn s lid g).any (fun q => q.task.toNat == p.1) || (p.2 == s.core.coreId.toNat && ownInGroup s lid g)) |>.map Prod.snd

/-- Cores that groups on their way to a halt will free. -/
def haltingCores (s : State) : List Nat :=
  s.pkg.launches.flatMap (fun x => (x.groups.filter (fun y => decide (y.state = .halting))).flatMap (fun y => coresOf s x.lid y.num))

/-- The fewest victims, taken in order, whose cores place the waiter. -/
def victimsNeeded (s : State) (l : Launch) (g : Group) (base : List Nat) : List (Launch × Group) → List (Launch × Group) → Option (List (Launch × Group))
  | _, [] => none
  | taken, v :: rest =>
    let now := taken ++ [v]
    if (coresFor s l g (base ++ now.flatMap (fun p => coresOf s p.1.lid p.2.num))).isSome then some now
    else victimsNeeded s l g base now rest

/-- Victims that the waiter can do without are left to run, the last taken first. -/
def pruneVictims (s : State) (l : Launch) (g : Group) (base : List Nat) : List (Launch × Group) → List (Launch × Group) → List (Launch × Group)
  | keep, [] => keep
  | keep, v :: rest =>
    if (coresFor s l g (base ++ (keep ++ rest).flatMap (fun p => coresOf s p.1.lid p.2.num))).isSome then pruneVictims s l g base keep rest
    else pruneVictims s l g base (keep ++ [v]) rest

/-- Pre-emption for priority: the groups to halt for a waiter that no idle cores place (R386). -/
def preemptFor (s : State) (l : Launch) (g : Group) : List (Launch × Group) :=
  let base := haltingCores s
  if (coresFor s l g base).isSome then []
  else match victimsNeeded s l g base [] (victimsFor s l g) with
    | some vs => pruneVictims s l g base [] vs.reverse
    | none => []

/-- A victim halted, where its world has still save frames for it (R386, R440). -/
def haltVictim (s : State) (p : Launch × Group) : State :=
  if saveRoom s (p.1.world s) p.1.lid p.2.num then haltGroup s p.1.lid p.2.num else reportShort s p.1 p.2.num

/-- Columns of the cores on which a pre-empted group is to resume whose bus a farrier engine holds: the resume follows the yield (R460). -/
def resumeBlocked (s : State) (l : Launch) (g : Group) : List Nat :=
  if g.state = .preempted ∧ canResume s l g.num then
    match coresFor s l g [] with
    | some cs => (cs.map (fun c => c / 4)).filter s.pkg.farrier.claimed.contains
    | none => []
  else []

/-- What the yard does for a waiter in its turn: place or resume it, or make room for it (R386). -/
def serve (s : State) (l : Launch) (g : Group) : Option State :=
  match coresFor s l g [] with
  | some cs =>
    let s1 := s.withPkg { s.pkg with served := queueIdx l }
    if g.state ≠ .preempted then some (placeGroup s1 l g cs)
    else if canResume s l g.num ∧ resumeBlocked s l g = [] then some (groupResume s1 l g.num cs).drawn
    else none
  | none =>
    if (coresFor s l g (haltingCores s)).isSome then none
    else match shortGroup s l g with
      | some p => some (reportShort s p.1 p.2.num)
      | none =>
        match preemptFor s l g with
        | [] => none
        | vs => some (vs.foldl haltVictim s)

/-- The waiter whose turn it is: the first in the order of service for which the yard can do something (R386). -/
def nextServed (s : State) : Option (Launch × Group) := (serviceOrder s).find? (fun p => (serve s p.1 p.2).isSome)

/-- The yard serves group `g` of launch `lid`, if it is its turn; `again` tells a resume from a first dispatch. -/
def serveStep (s : State) (lid : BitVec 14) (g : Nat) (again : Bool) : Option State :=
  match nextServed s with
  | some (l, x) => if l.lid = lid ∧ x.num = g ∧ decide (x.state = .preempted) = again then serve s l x else none
  | none => none

/-- GROUP_PLACEMENT (R386). -/
def execGroupPlacement (lid : BitVec 14) (g : Nat) (s : State) : Out := .next ((serveStep s lid g false).getD s)

/-- GANG_RESUME (R420). -/
def execGangResume (lid : BitVec 14) (g : Nat) (s : State) : Out := .next ((serveStep s lid g true).getD s)

/-- Steps of aging that a wait since `since` has earned (R386). -/
def agingOf (s : State) (d : BitVec 2) (since : Word64) : Nat :=
  let a := (s.pkg.yards.get d).ageTick.toNat
  if a = 0 then 15 else Nat.min 15 ((s.time - since).toNat / a)

/-- A launch with the aging of its waiting groups brought up to date. -/
def ageLaunch (s : State) (l : Launch) : Launch :=
  if l.state == .ready || l.state == .running then
    { l with
      groups := l.groups.map (fun g => if g.state = .preempted then { g with aging := agingOf s l.queueDie g.since } else g)
      freshAging := agingOf s l.queueDie l.since }
  else l

/-- AGING_TICK (R386). -/
def execAgingTick (die : BitVec 2) (s : State) : Out :=
  .next (s.withPkg { s.pkg with launches := s.pkg.launches.map (fun l => if l.queueDie = die then ageLaunch s l else l) })

/-- A running group has had its QUANTUM (R386). -/
def quantumDue (s : State) (l : Launch) (g : Group) : Bool :=
  decide (g.state = .running) && !g.quantumOver && decide ((s.pkg.yards.get l.queueDie).quantum.toNat ≤ (s.time - g.since).toNat)

/-- QUANTUM_EXPIRY (R386). -/
def execQuantumExpiry (lid : BitVec 14) (g : Nat) (s : State) : Out :=
  .next (match launchOf s lid with
    | some l => (match l.group g with
      | some x => if quantumDue s l x then updGroup s lid g (fun y => { y with quantumOver := true }) else s
      | none => s)
    | none => s)

/-! ## Completion (R378, R379, R389, R390) -/

/-- The launch's status record (R379): words 0 and 1. -/
def statusWord0 (l : Launch) : Nat :=
  (l.code.getD 0).toNat + l.cause.toNat * 2 ^ 8 + l.succRef.toNat * 2 ^ 16 + l.restarted.toNat * 2 ^ 17 + l.userCode.toNat * 2 ^ 32
def statusWord1 (l : Launch) : Nat := bitsOf (l.packet.get 0).toNat 32 32 + l.queue.toNat * 2 ^ 32 + l.queueDie.toNat * 2 ^ 42

/-- FAULT and DEMAND records of the launch that still wait for room in the log (R412). -/
def recordsWait (s : State) (lid : BitVec 14) : Bool :=
  [0#2, 1#2, 2#2, 3#2].any (fun d => (s.pkg.yards.get d).logWait.any (fun r => (r.kind == 0 || r.kind == 1) && r.ident.extractLsb 13 0 == lid))

/-- A launch can complete: every task has drained, or it has ended and nothing of it is left on a core or in an engine; and no FAULT or
DEMAND record of it waits (R378, R384, R412). -/
def completeReady (s : State) (l : Launch) : Bool :=
  match l.code with
  | some _ => launchOff s l.lid && !recordsWait s l.lid
  | none => decide (l.state = .running) && decide (l.tasksDone = l.total) && decide (0 < l.total) && !recordsWait s l.lid

/-- The journal after a launch's COMPLETE record: the records of that launch and older COMPLETE records have served (DESIGN CHOICE, log 14). -/
def journalComplete (lid : BitVec 14) (j : List JournalRec) : List JournalRec :=
  j.filter (fun r => match r with
    | .accept _ _ l _ => l != lid
    | .dispatch l _ => l != lid
    | .complete _ => false) ++ [.complete lid]

/-- A launch completes: the status record, then the decrement with the COMPLETE record in one step (R378, R379, R390); a misaligned STATUS
or CSIG, for which the packet was refused, is not written. -/
def completeStep (s : State) (lid : BitVec 14) : Option State :=
  match launchOf s lid with
  | none => none
  | some l =>
    if !completeReady s l then none
    else
      let st := (l.packet.get 3).toNat
      let cs := (l.packet.get 2).toNat
      let s1 := if st = 0 ∨ st % 16 ≠ 0 then s
        else yardWrite (yardWrite s l.queueDie l.queue st 8 (statusWord0 l)) l.queueDie l.queue (st + 8) 8 (statusWord1 l)
      let s2 := if cs = 0 ∨ cs % 8 ≠ 0 then s1 else yardDecrement s1 l.queueDie l.queue cs
      let s3 := updYard (journalWrite (evictLaunch s2 lid) l.queueDie (.complete lid)) l.queueDie (fun y =>
        { y with journal := journalComplete lid y.journal, appended := y.appended + 1 })
      let n := (l.code.getD 0).toNat
      some (s3.withPkg { s3.pkg with
        launches := s3.pkg.launches.filter (fun x => x.lid != lid)
        images := s3.pkg.images.filter (fun i => i.task.ident.lid != lid)
        peers := s3.pkg.peers.filter (fun p => p.lid != lid)
        gangGone := s3.pkg.gangGone.filter (fun x => x.1 != lid)
        doneByCode := s3.pkg.doneByCode.set n (s3.pkg.doneByCode.getD n 0 + 1) })

/-- LAUNCH_COMPLETE (R390). -/
def execLaunchComplete (lid : BitVec 14) (s : State) : Out := .next ((completeStep s lid).getD s)

/-! ## Reset and failure (R391, R392) -/

/-- YARD_RESET (R391): a yard that has not run comes back in STATE 0, still serving what it mirrors (R392); one with a journal rebuilds its scoreboard from it and from
the cores, clears a slot already journalled, and runs on (DESIGN CHOICE, log 14) (DEDUCED, log 48). -/
def execYardReset (die : BitVec 2) (s : State) : Out :=
  let y := s.pkg.yards.get die
  .next (
    if y.failed then s
    else if y.state = 0 then updYard s die (fun y => { Yard.reset with mirroring := y.mirroring })
    else
      let s1 := updYard s die (fun y => { y with state := 1, cmdErr := 0 })
      y.queues.foldl (fun s x =>
        let va := x.ring + 0x80 + 0x80 * ((x.accIdx.toNat + 2 ^ 64 - 1) % 2 ^ 64 % x.slots)
        match yardRead s die x.num va 8 with
        | some w0 => if bitAt w0 0 && w0 / 2 ^ 32 == (x.accIdx.toNat + 2 ^ 64 - 1) % 2 ^ 32 then yardWrite s die x.num va 8 0 else s
        | none => s) s1)

/-- A die fails (R391, R392): its yard stops and the next die's serves its queues from the mirror; its memory and caches are gone;
launches with a task there, and running ones bound to the package, are cut short; one bound to the package that stands READY waits if it is
restartable, and is aborted otherwise (DEDUCED, log 48). -/
def failDie (s : State) (die : BitVec 2) : State :=
  if (s.pkg.yards.get die).failed then s
  else
    let hit := s.pkg.launches.filter (fun l => (tasksHeld s l.lid).any (fun p => p.2 / 512 == die.toNat) ||
      (needsPackage l && l.state == .running))
    let unplaced := s.pkg.launches.filter (fun l => needsPackage l && l.state == .ready && !restartable l)
    let s1 := updYard s die (fun y => { y with state := 3, failed := true, mirroring := false })
    let s2 := updYard s1 (die + 1) (fun y => { y with mirroring := true })
    let s3 : State := { s2 with
      mem := cellClear s2.mem (die.toNat * 2 ^ 40) (2 ^ 40)
      bad := s2.bad.filter (fun u => u.1 / 2 ^ 40 != die.toNat)
      pkg := { s2.pkg with l2 := s2.pkg.l2.filter (fun l => l.line / 2 ^ 33 != die.toNat) } }
    let s4 := (unplaced.map Launch.lid).foldl (fun s i => endLaunch s i 2 0 0) ((hit.map Launch.lid).foldl cutShort s3)
    let s5 := s4.withPkg { s4.pkg with peers := s4.pkg.peers.filter (fun p => p.core.toNat / 512 != die.toNat)
                                       images := s4.pkg.images.filter (fun i => i.core.toNat / 512 != die.toNat) }
    if s.core.coreId.toNat / 512 = die.toNat then { s5 with core := { s5.core with run := .idle, next := none, firmware := false, loading := false } } else s5

/-- DIE_FAILURE (R392). -/
def execDieFailure (die : BitVec 2) (s : State) : Out := .next (failDie s die)

/-- DIE_RETURN (R392): the die is present again, its yard as after a reset, its queues those that the mirror served. -/
def execDieReturn (die : BitVec 2) (s : State) : Out :=
  let y := s.pkg.yards.get die
  .next (
    if !y.failed then s
    else
      let s1 := updYard s die (fun y => { y with state := if y.queues.isEmpty then 0 else 1, failed := false })
      updYard s1 (die + 1) (fun y => { y with mirroring := false }))

/-! ## Held tasks and log records (R403, R412) -/

/-- The ticks between two walks for a held task (R403). -/
def rewalkTicks : Nat := 250000

/-- The page that an image's fault names is now present (R403): a walk of FADDR in the task's tables succeeds. -/
def pagePresent (s : State) (im : Image) : Bool :=
  let a := im.task.faults.addr
  let i := im.task.ident
  match yardXlate s i.die i.queue (a.extractLsb 55 0).toNat false with
  | .ok _ _ => true
  | .fail _ => false

/-- The images of a launch held for a page. -/
def demandHeld (s : State) (lid : BitVec 14) : List Image :=
  s.pkg.images.filter (fun i => i.task.ident.lid == lid && decide (i.hold = .demand))

/-- The DEMAND record of a held task still waits for room in a log, so the task stays held (R412). -/
def demandWaits (s : State) (im : Image) : Bool :=
  s.pkg.yards.toList.any (fun y => y.logWait.any (fun r => r.kind == 1 && r.task == im.task.ident.taskId &&
    r.ident.extractLsb 13 0 == im.task.ident.lid))

/-- A held task can go on: its page is present and its record written (R403, R412). -/
def demandOver (s : State) (im : Image) : Bool := pagePresent s im && !demandWaits s im

/-- DEMAND_REWALK (R403): each held task of the launch whose page a walk now finds is to be resumed. -/
def rewalk (s : State) (lid : BitVec 14) : State :=
  (demandHeld s lid).foldl (fun s im =>
    if demandOver s im then settleGroup (putImage s im { im with hold := .preempted }) lid im.task.ident.group else s) s

/-- DEMAND_REWALK (R403). -/
def execDemandRewalk (lid : BitVec 14) (s : State) : Out := .next (rewalk s lid)

/-- The HANDLER ring of the launch that a record names (R380, R412). -/
def handlerOf (s : State) (r : LogRec) : Option (Launch × Nat) := (launchOf s (r.ident.extractLsb 13 0)).map (fun l => (l, recHandler l.record))

/-- A record appended to the yard log; none when it is full (R412). -/
def logAppend (s : State) (y : Yard) (r : LogRec) : Option State :=
  let base := y.logAddr.toNat
  let w := s.load base 8
  let rd := s.load (base + 8) 8
  if y.logN = 0 ∨ ¬ (w + 2 ^ 64 - rd) % 2 ^ 64 < y.logN then none
  else
    let at_ := base + 0x100 + 0x100 * (w % y.logN)
    let s1 := ((logWords r s.time).zipIdx).foldl (fun s p => s.store (at_ + 8 * p.2) 8 p.1.toNat) s
    some (s1.store base 8 ((w + 1) % 2 ^ 64))

/-- The oldest record of a yard is written, or dropped where a full log drops its kind, or waits (R412). A HANDLER record goes to
its launch's ring, and is dropped with its launch. -/
def logStep (s : State) (die : BitVec 2) : Option State :=
  let y := s.pkg.yards.get die
  let droppable := fun (r : LogRec) => r.kind == 2 || r.kind == 3
  let write := fun (r : LogRec) =>
    if r.kind = 4 then
      match handlerOf s r with
      | none => some s
      | some (l, va) => ringPost s l.queueDie l.queue va r
    else logAppend s y r
  let gone := fun (s1 : State) (r : LogRec) => updYard s1 die (fun z => { z with logWait := z.logWait.erase r })
  match y.logWait.find? (fun r => (write r).isSome) with
  | some r => (write r).map (fun s1 => gone s1 r)
  | none =>
    match y.logWait.find? droppable with
    | some r =>
      let at_ := y.logAddr.toNat + 24
      some (gone (if y.logN = 0 then s else s.store at_ 8 ((s.load at_ 8 + 1) % 2 ^ 64)) r)
    | none => none

/-- LOG_RECORD_WRITE (R412). -/
def execLogRecordWrite (die : BitVec 2) (s : State) : Out := .next ((logStep s die).getD s)

end Sys2Proof.Machine
end

