-- ==== Sys2Proof/Machine/Tiers.lean ====
section
/-! DEFINITION. The tier engines (R66, R407 to R410), their policy registers (R408), and the translation service as others see it:
walks and shootdowns (R397, R398, R401). -/

namespace Sys2Proof.Machine

open Sys2Proof

/-! ## Policy registers (R408) -/

def tierEn (c : Word64) : Bool := c.getLsbD 0
def tierColdEn (c : Word64) : Bool := c.getLsbD 1
def tierDecay (c : Word64) : Nat := bitsOf c.toNat 8 4
def tierMigMax (c : Word64) : Nat := bitsOf c.toNat 16 8
def tierHeatInt (c : Word64) : Nat := bitsOf c.toNat 32 32
def tierDemote (t : Word64) : Nat := bitsOf t.toNat 0 16
def tierPromote (t : Word64) : Nat := bitsOf t.toNat 16 16
def tierCool (t : Word64) : Nat := bitsOf t.toNat 32 16
def tierWarmup (t : Word64) : Nat := bitsOf t.toNat 48 16

/-- A policy that R408 refuses. -/
def policyBad (c t : Word64) : Bool :=
  decide (tierPromote t ≤ tierDemote t) || (tierColdEn c && decide (tierWarmup t ≤ tierCool t)) || tierMigMax c == 0 ||
    decide (64 < tierMigMax c) || decide (12 < tierHotWays c) || decide (tierHeatInt c < 25000)

/-- The writable bits of TIERCTL (R8, R408). -/
def tierCtlMask : Word64 := 0xFFFFFFFF00FFFF03#64

/-- The registers of an engine after a write of one of them, or none where the write is refused (R408). -/
def tierWritten (c t : Word64) (reg : TierReg) (v : Word64) : Option (Word64 × Word64) :=
  let (c', t') := match reg with | .ctl => (v &&& tierCtlMask, t) | .thr => (c, v)
  if policyBad c' t' then none else some (c', t')

/-- The state with a tier engine changed. -/
def updTier (s : State) (d : BitVec 2) (f : TierEngine → TierEngine) : State :=
  s.withPkg { s.pkg with tiers := s.pkg.tiers.set d (f (s.pkg.tiers.get d)) }

/-- A write of a policy register, the reserved ways in effect noted; refused, the registers keep their values and REJECT is set (R408). -/
def tierWrite (s : State) (d : BitVec 2) (reg : TierReg) (v : Word64) : State :=
  let e := s.pkg.tiers.get d
  match tierWritten e.ctl e.thr reg v with
  | some (c, t) => updTier s d (fun e => { e with ctl := c, thr := t, ways := waysHeld s d })
  | none => updTier s d (fun e => { e with reject := true })

/-- TIERCTL_WRITE (R408). -/
def execTierctlWrite (die : BitVec 2) (reg : TierReg) (val : Word64) (s : State) : Out := .next (tierWrite s die reg val)

/-- TIERSTAT_REJECT_CLEAR: a one in bit 0 clears REJECT (R408). -/
def execTierstatRejectClear (die : BitVec 2) (val : Word64) (s : State) : Out :=
  .next (if val.getLsbD 0 then updTier s die (fun e => { e with reject := false }) else s)

/-- Migrations in flight. -/
def migrating (e : TierEngine) : Nat := countOf (fun p => decide (p.state = .moving)) e.pages

/-- TIERSTAT (R408). -/
def tierStat (e : TierEngine) : Word64 :=
  BitVec.ofNat 64 (e.reject.toNat + migrating e % 256 * 2 ^ 8 + e.aborts.toNat * 2 ^ 16 + e.doneCnt.toNat * 2 ^ 32)

/-! ## Shootdowns and walks (R398, R401) -/

/-- A cached translation that a shootdown drops (R401): entries of the world in the range, of the address space named or, when all
are named, of every one and the global ones. -/
def shotDown (x : Shootdown) (t : TlbEntry) : Bool :=
  t.world == x.world && decide (t.va < x.hi) && decide (x.lo < t.va + 2 ^ t.logSize) &&
    (match x.space with
     | none => true
     | some a => t.space == some a)

/-- A shootdown started. -/
def shoot (s : State) (x : Shootdown) : State := s.withPkg { s.pkg with shootdowns := s.pkg.shootdowns ++ [x] }

/-- The oldest shootdown completes: every entry that matches has been dropped (R401). -/
def shootStep (s : State) : Option State :=
  match s.pkg.shootdowns with
  | [] => none
  | x :: rest =>
    some { s with
      core := { s.core with tlb := s.core.tlb.filter (fun t => !shotDown x t) }
      pkg := { s.pkg with shootdowns := rest } }

/-- SHOOTDOWN_COMPLETE (R401). -/
def execShootdownComplete (s : State) : Out := .next ((shootStep s).getD s)

/-- TRANSLATION_WALK_COMPLETE (R398, R399): a walk for this core's task that ends in a usable leaf leaves it in the core's cache;
any other is not kept. The walks of accesses are part of the accesses (DESIGN CHOICE, log 12). -/
def execTranslationWalkComplete (die : BitVec 2) (queue : BitVec 10) (va : BitVec 56) (s : State) : Out :=
  let i := s.task.ident
  .next (if s.core.run ≠ .idle ∧ i.die = die ∧ i.queue = queue then (translate s va.toNat false).1 else s)

/-! ## Migration (R66, R409, R410) -/

/-- The places of the pages that a task has pinned (R66, R242). -/
def pinnedFrames (s : State) : List Nat :=
  let tasks := (if s.core.run = .idle then [] else [s.task]) ++ s.pkg.images.map Image.task
  tasks.flatMap (fun t => t.gpins.filterMap (fun va =>
    match yardXlate s t.ident.die t.ident.queue va.toNat false with
    | .ok pa _ => some (keyOf s (pa / 2 ^ 16 * 2 ^ 16))
    | .fail _ => none))

/-- The HOT page of a slice with the lowest heat, the one promoted earliest among equals (R409). -/
def hotVictim : List TierPage → Option TierPage
  | [] => none
  | p :: t =>
    match hotVictim t with
    | none => if p.state = .hot then some p else none
    | some b => if p.state = .hot ∧ (p.heat.toNat < b.heat.toNat ∨ (p.heat = b.heat ∧ p.promoted ≤ b.promoted)) then some p else some b

/-- The frame that firmware supplies for a page that changes tier: a free value, taken only where it is a frame that the rules allow
(R393, R409, R424; DESIGN CHOICE, log 3): cold, in a valid aperture; warm, an unmapped data frame of the world. -/
def suppliedFrame (s : State) (p : TierPage) (cold : Bool) : Option Nat :=
  let f := (Config.freeWord s.freeCtr (2 ^ 20 + p.frame)).toNat % 2 ^ 36
  let pa := f * 2 ^ 16
  if cold then
    (if isAperture pa && !noRoute s (keyOf s pa) && !tierManaged s (keyOf s pa) then some f else none)
  else
    let e := s.load (frameEntry (pa / 2 ^ 40) (pa % 2 ^ 40 / 2 ^ 16)) 4
    if isLpddr pa && frameKind s pa == (1, p.world.toNat) && bitsOf e 16 16 == 0 then some f else none

/-- A page set moving. -/
def startMove (s : State) (d : BitVec 2) (p : TierPage) (target : TierState) (frame : Nat) : State :=
  let moved := { p with state := .moving, source := p.state, target := target, toFrame := frame, aborted := false, wanted := false }
  updTier s d (fun e => { e with pages := updFirst (fun q => decide (q = p)) (fun _ => moved) e.pages })

/-- A page that may be selected: not pinned, not moving, of a world that is LIVE (R409, R439). -/
def selectable (s : State) (pins : List Nat) (p : TierPage) : Bool :=
  decide (p.state ≠ .moving) && !pins.contains (tierKey s p) && decide ((s.pkg.security.worlds.get p.world).state = .live)

/-- What R409 does with a page at an evaluation, if anything; no page that is pinned is taken as a victim. -/
def moveOf (s : State) (d : BitVec 2) (pins : List Nat) (p : TierPage) : Option State :=
  let e := s.pkg.tiers.get d
  let heat := p.heat.toNat
  match p.state with
  | .warm =>
    if (p.tier = 1 ∧ tierPromote e.thr ≤ heat) ∨ p.tier = 2 then
      let mates := hotIn e (pageSlice p.frame)
      if mates.length < waysHeld s d * 2 then some (startMove s d p .hot p.frame)
      else match hotVictim (mates.filter (selectable s pins)) with
        | some v => if v.heat.toNat < heat then some (startMove s d v .warm v.frame) else none
        | none => none
    else if tierColdEn e.ctl ∧ p.tier ≠ 2 ∧ heat < tierCool e.thr then (suppliedFrame s p true).map (startMove s d p .cold)
    else none
  | .hot => if p.tier ≠ 2 ∧ heat < tierDemote e.thr then some (startMove s d p .warm p.frame) else none
  | .cold => if tierWarmup e.thr ≤ heat ∨ p.wanted then (suppliedFrame s p false).map (startMove s d p .warm) else none
  | .moving => none

/-- The candidates taken in decreasing heat, the lower frame first among equals, while fewer than MIGMAX migrations are in flight
(R409). -/
def evaluate (s : State) (d : BitVec 2) : State :=
  let e := s.pkg.tiers.get d
  let k := tierDecay e.ctl
  let cooled := e.pages.map (fun p =>
    { p with heat := if k = 0 then p.heat else p.heat - (p.heat >>> k), aborted := if p.state = .moving then p.aborted else false })
  let s1 := updTier s d (fun e => { e with pages := cooled, evaluated := s.time })
  let pins := pinnedFrames s1
  let order := sortBy (fun (p : TierPage) => (65535 - p.heat.toNat) * 2 ^ 40 + p.frame) (cooled.filter (selectable s1 pins))
  order.foldl (fun s p =>
    if migrating (s.pkg.tiers.get d) < tierMigMax e.ctl ∧ (s.pkg.tiers.get d).pages.contains p then (moveOf s d pins p).getD s else s) s1

/-- An evaluation is due (R408, R409). -/
def evaluationDue (s : State) (d : BitVec 2) : Bool :=
  let e := s.pkg.tiers.get d
  tierEn e.ctl && decide (tierHeatInt e.ctl ≤ (s.time - e.evaluated).toNat)

/-- A COLD page that a request asks for is made WARM ahead of every other candidate (R410). -/
def wantedStep (s : State) (d : BitVec 2) : Option State :=
  let e := s.pkg.tiers.get d
  if !tierEn e.ctl then none
  else firstSome (fun p => if decide (p.state = .cold) && p.wanted && !p.aborted && selectable s (pinnedFrames s) p then
    (suppliedFrame s p false).map (startMove s d p .warm) else none) e.pages

/-- What the tier engine of a die does next. -/
def tierStep (s : State) (d : BitVec 2) : Option State :=
  match wantedStep s d with
  | some s1 => some s1
  | none => if evaluationDue s d then some (evaluate s d) else none

/-- TIER_EVALUATION (R409): before its time, and with no page asked for, nothing happens. -/
def execTierEvaluation (die : BitVec 2) (s : State) : Out := .next ((tierStep s die).getD s)

/-- MAPS of a frame raised or lowered (R424). -/
def adjustMaps (s : State) (frame : Nat) (up : Bool) : State :=
  let pa := frame * 2 ^ 16
  if isLpddr pa then
    let k := frameEntry (pa / 2 ^ 40) (pa % 2 ^ 40 / 2 ^ 16)
    let e := s.load k 4
    s.store k 4 (if up then e + 2 ^ 16 else e - 2 ^ 16)
  else s

/-- The translations of a frame that a switch-over replaces: no access after it uses the old place (R66). -/
def dropFrame (s : State) (frame : Nat) : State :=
  { s with core := { s.core with tlb := s.core.tlb.filter (fun t =>
    !(decide (bitsOf t.leaf.toNat 14 38 * 2 ^ 14 < (frame + 1) * 2 ^ 16) && decide (frame * 2 ^ 16 < bitsOf t.leaf.toNat 14 38 * 2 ^ 14 + 2 ^ t.logSize))) } }

/-- The lines of L2 that leave it at a switch-over: every line of a frame that is left, and those of the hot reserve of a page that is
no longer HOT (R65, R409). -/
def dropLines (s : State) (frame : Nat) (all : Bool) : State :=
  s.withPkg { s.pkg with l2 := s.pkg.l2.filter (fun l => !(l.line / 512 == frame && (all || l.hot))) }

/-- A finished migration switches over, or an aborted one leaves the page at its source (R66). A page that changes its frame has its
bytes moved, its leaf rewritten and its old translations dropped at once, which the shootdown completes (R401, R409). A page of which
a line fails its tag or its correction stays at its source, and such an end counts neither as done nor as one of R66 (R408, R436). -/
def switchOver (s : State) (d : BitVec 2) (p : TierPage) : State :=
  let put := fun (s : State) (f : TierPage → TierPage) => updTier s d (fun e => { e with pages := updFirst (fun q => decide (q = p)) f e.pages })
  if p.aborted then
    let s1 := put s TierPage.abandon
    updTier s1 d (fun e => { e with aborts := e.aborts + 1 })
  else if (readFails s (tierKey s p) (2 ^ 16)).isSome then put s TierPage.abandon
  else
    let s1 := updTier (put s (fun q => { q with state := p.target, source := p.target, frame := p.toFrame, promoted := s.nextId })) d
      (fun e => { e with doneCnt := e.doneCnt + 1 })
    if p.toFrame = p.frame then (if p.target = .hot then s1.fresh else (dropLines s1 p.frame false).fresh)
    else
      let e := memWord s1.mem p.pte
      let e' := BitVec.ofNat 64 (setBits e.toNat 14 38 (p.toFrame * 4))
      let src := tierKey s p
      let dst := keyOf s (p.toFrame * 2 ^ 16)
      let s2 : State := { (s1.forget src (2 ^ 16)).forget dst (2 ^ 16) with
        mem := cellCopy memDefault s1.mem src dst (2 ^ 16), bad := badAfterWrite s1.bad dst (2 ^ 16) }
      let s3 := dropLines (dropFrame (adjustMaps (adjustMaps (s2.store p.pte 8 e'.toNat) p.frame false) p.toFrame true) p.frame) p.frame true
      (shoot s3 { world := p.world, space := none, lo := 0, hi := 2 ^ 56 }).fresh

/-- The migration of a die that switches over next (DESIGN CHOICE, log 11). -/
def switchStep (s : State) (d : BitVec 2) : Option State :=
  ((s.pkg.tiers.get d).pages.find? (fun p => decide (p.state = .moving))).map (switchOver s d)

/-- MIGRATION_SWITCH_OVER (R66). -/
def execMigrationSwitchOver (die : BitVec 2) (s : State) : Out := .next ((switchStep s die).getD s)

end Sys2Proof.Machine
end

