-- ==== Sys2Proof/Machine/Ring.lean ====
section
/-! DEFINITION. The command ring of the security core and its lanes (R421 to R423): acceptance, operand checks, completion. -/

namespace Sys2Proof.Machine

open Sys2Proof

/-! ## Operands (R422, R423) -/

/-- Operand word `i`. -/
def secWord (c : SecCmd) (i : Nat) : Nat := (c.w.get (BitVec.ofNat 4 i)).toNat

/-- The world that a command names. -/
def secWorld (c : SecCmd) : BitVec 6 := BitVec.ofNat 6 (secWord c 2)

def opFassign : BitVec 8 := 0x01
def opFrelease : BitVec 8 := 0x02
def opMapset : BitVec 8 := 0x03
def opHcreate : BitVec 8 := 0x04
def opHretire : BitVec 8 := 0x05
def opWcreate : BitVec 8 := 0x06
def opWdestroy : BitVec 8 := 0x07
def opKrevoke : BitVec 8 := 0x08
def opExport : BitVec 8 := 0x09
def opImport : BitVec 8 := 0x0A
def opWstat : BitVec 8 := 0x0B
def opPstate : BitVec 8 := 0x0C
def opLgrant : BitVec 8 := 0x10
def opLprog : BitVec 8 := 0x11
def opLzero : BitVec 8 := 0x12
def opLhash : BitVec 8 := 0x13
def opLwear : BitVec 8 := 0x14

/-- A known OP (R423). -/
def opKnown (op : BitVec 8) : Bool :=
  (decide (1 ≤ op.toNat) && decide (op.toNat ≤ 0x0C)) || (decide (0x10 ≤ op.toNat) && decide (op.toNat ≤ 0x14))

/-- The bits of a physical address. -/
def paBits : Nat := 2 ^ 52 - 1

/-- The bits of operand word `i` that a command uses; the others are reserved (R423). -/
def opMask (op : BitVec 8) (i : Nat) : Nat :=
  let all := 2 ^ 64 - 1
  match op.toNat, i with
  | 0x01, 2 => 0x73F
  | 0x01, 3 => paBits
  | 0x01, 4 => all
  | 0x02, 2 => 0x3F
  | 0x02, 3 => paBits
  | 0x02, 4 => all
  | 0x03, 2 => 0x303FF033F
  | 0x03, 3 => 2 ^ 56 - 1
  | 0x03, 4 => all
  | 0x04, 2 => 0x3F
  | 0x04, 3 => all
  | 0x04, 4 => all
  | 0x04, 5 => 3
  | 0x05, 2 => 0x3F
  | 0x05, 3 => 2 ^ 32 - 1
  | 0x06, 2 => 0x1F3F
  | 0x06, 9 => paBits
  | 0x06, n => if 3 ≤ n ∧ n ≤ 8 then all else 0
  | 0x07, 2 => 0x3F
  | 0x08, 2 => 0x13F
  | 0x09, 2 => 0x3F
  | 0x09, 3 => paBits
  | 0x09, 4 => all
  | 0x0A, 2 => 0x3F
  | 0x0A, 3 => paBits
  | 0x0A, 4 => all
  | 0x0A, 5 => paBits
  | 0x0A, 6 => all
  | 0x0B, 2 => 0x3F
  | 0x0C, 2 => 3
  | 0x10, 2 => 0x13F
  | 0x10, 3 => 2 ^ 39 - 1
  | 0x11, 2 => 0x3F
  | 0x11, 3 => 2 ^ 39 - 1
  | 0x11, 4 => paBits
  | 0x11, 5 => all
  | 0x12, 2 => 0x3F
  | 0x12, 3 => 2 ^ 39 - 1
  | 0x12, 5 => all
  | 0x13, 2 => 0x3F
  | 0x13, 3 => 2 ^ 39 - 1
  | 0x14, 2 => 0x3F
  | 0x14, 3 => 0x7FC0000000
  | _, _ => 0

/-- An operand outside its range (R423). -/
def opRange (op : BitVec 8) (c : SecCmd) : Bool :=
  match op.toNat with
  | 0x01 => decide (1 ≤ bitsOf (secWord c 2) 8 3 ∧ bitsOf (secWord c 2) 8 3 ≤ 3) && secWord c 3 % 2 ^ 16 == 0 && decide (1 ≤ secWord c 4 ∧ secWord c 4 ≤ 65536)
  | 0x02 => secWord c 3 % 2 ^ 16 == 0
  | 0x06 => decide (1 ≤ bitsOf (secWord c 2) 8 5 ∧ bitsOf (secWord c 2) 8 5 ≤ 16)
  | _ => true

/-- A command that is BADCMD: a reserved bit set or an operand out of range (R422) (DEDUCED, log 45). R422 has the producer set words 16 to 31 of
the slot to zero and does not say what another value does: the model does not look at them (DESIGN CHOICE, log 45). -/
def badCmd (op : BitVec 8) (c : SecCmd) : Bool :=
  secWord c 0 &&& 0xFFFFFFFF0000FF01 != secWord c 0 || secWord c 1 &&& paBits != secWord c 1 || c.csig.toNat % 8 != 0 ||
    (upTo 14).any (fun i => secWord c (i + 2) &&& opMask op (i + 2) != secWord c (i + 2)) || !opRange op c

/-! ## The ring (R422) -/

/-- The PA of slot k. -/
def slotPa (k : Nat) : Nat := 0x1000 + 0x100 * (k % 256)

/-- FREEIDX passes slots that are DONE, in order. -/
def freeSlots (s : State) : Nat → State
  | 0 => s
  | n + 1 =>
    let f := s.load 0x80 8
    if f ≠ s.load 0x40 8 ∧ bitAt (s.load (slotPa f + 128) 8) 0 then freeSlots (s.store 0x80 8 ((f + 1) % 2 ^ 64)) n else s

/-- A completion signal at a PA decremented by 1 (R379, R422). -/
def signalDown (s : State) (pa : Nat) : State :=
  let k := keyOf s pa
  if pa = 0 ∨ (readFails s k 8).isSome then s else partyWrite s 0 k 8 ((readKey s k 8 + 2 ^ 64 - 1) % 2 ^ 64) 0

/-- STATUS values (R422). -/
def stOk : Nat := 0
def stBusy : Nat := 1
def stRefused : Nat := 2
def stBadCmd : Nat := 3
def stNoSpace : Nat := 4
def stFailed : Nat := 5

/-- The entries that the security log keeps (R465). -/
def secLogSize : Nat := 4096

/-- An entry in the security log, the oldest overwritten first (R465). -/
def logSecurity (s : State) (e : SecLog) : State :=
  let l := s.pkg.security.log ++ [e]
  s.withPkg { s.pkg with security := { s.pkg.security with log := l.drop (l.length - secLogSize) } }

/-- The slot of a command completed: results, word 16, CSIG, FREEIDX (R422). -/
def answerSlot (s : State) (op : BitVec 8) (k : Nat) (csig : Nat) (status reason : Nat) (results : List Word64) : State :=
  let pa := slotPa k
  let s1 : State := { s with mem := memPutWords s.mem (pa + 136) results, bad := badAfterWrite s.bad (pa + 136) (8 * results.length) }
  let s2 := s1.store (pa + 128) 8 (1 + status * 2 ^ 8 + reason * 2 ^ 16)
  let s3 := if status = stRefused then logSecurity s2 (.refused op k) else s2
  freeSlots (signalDown s3 csig) 256

/-- The security core runs commands: active or clock-gated, supplied and booted (R423, R448). -/
def secUp (s : State) : Bool :=
  s.pkg.power.supply && decide (s.pkg.power.boot = .running) && (s.pkg.power.state == .active || s.pkg.power.state == .breeze)

/-- The lane of a command (R422). -/
def cmdLane (op : BitVec 8) (c : SecCmd) : Nat := if op.toNat < 0x10 then 0 else 1 + bitsOf (secWord c 3) 37 2

/-- The oldest command of a lane. -/
def laneHead (s : State) (lane : Nat) : Option LaneCmd := s.pkg.security.queue.find? (fun x => x.lane == lane)

/-- The security core changed. -/
def updSec (s : State) (f : Security → Security) : State := s.withPkg { s.pkg with security := f s.pkg.security }

/-- The head of a lane changed. -/
def setHead (s : State) (x : LaneCmd) (f : LaneCmd → LaneCmd) : State :=
  updSec s (fun z => { z with queue := updFirst (fun y => y.lane == x.lane) f z.queue })

/-- The head of a lane leaves it. -/
def dropHead (s : State) (x : LaneCmd) : State := updSec s (fun z => { z with queue := z.queue.eraseP (fun y => y.lane == x.lane) })

/-- Spare rows of a bank (R430), and the programs from which on a row is reported (R463). -/
def bankSpares : Nat := 2048
def wearWarn : Nat := 90000

/-- The band of a bank with so many spares left (R463). -/
def wearBand (left : Nat) : WearBand := if 512 ≤ left then .normal else if 128 ≤ left then .warn else if 1 ≤ left then .critical else .exhausted

/-- The loft's readings sampled, as at each LPE command (R463, R465). -/
def sampleLoft (s : State) : State :=
  let l := s.pkg.loft
  s.withPkg { s.pkg with telemetry := { s.pkg.telemetry with
    loftSpares := l.spares
    loftRetired := l.retired
    loftBands := l.spares.map (fun p => (p.1, wearBand (bankSpares - p.2)))
    loftWorn := l.wear.filter (fun p => decide (wearWarn ≤ p.2)) } }

/-- The head of a lane completes (R422); a command of a loft engine samples the loft's readings (R465). -/
def secDone (s : State) (x : LaneCmd) (status reason : Nat) (results : List Word64) : State :=
  let s1 := answerSlot (dropHead s x) x.op x.cmd.k x.cmd.csig.toNat status reason results
  if 1 ≤ x.lane then sampleLoft s1 else s1

/-- A command on its lane: it runs when it is the oldest there, or when the lane is free (DESIGN CHOICE, log 24). -/
def onLane (s : State) (op : BitVec 8) (c : SecCmd) (run : State → LaneCmd → State) : State :=
  if !secUp s then s
  else
    let go := fun (s : State) (x : LaneCmd) => if x.phase = 0 ∧ badCmd op c then secDone s x stBadCmd 0 [] else run s x
    match laneHead s (cmdLane op c) with
    | some x => if x.op = op ∧ x.cmd = c then go s x else s
    | none =>
      let x : LaneCmd := { op := op, lane := cmdLane op c, cmd := c, phase := 0, saved := 0 }
      go (updSec s (fun z => { z with queue := z.queue ++ [x] })) x

/-- The number of the first check that fails, counted from 1 (R422). -/
def firstFailed : Nat → List Bool → Option Nat
  | _, [] => none
  | n, ok :: t => if ok then firstFailed (n + 1) t else some n

/-- A command whose failed checks all answer one status, and then its effect. -/
def checked (s : State) (x : LaneCmd) (status : Nat) (checks : List Bool) (run : State → State) : State :=
  match firstFailed 1 checks with
  | some n => secDone s x status n []
  | none => run s

/-- The slot that ACCIDX names is accepted when VALID = 1 and SEQ fits; an unknown OP completes at once with BADCMD (R422). -/
def acceptStep (s : State) : Option State :=
  let k := s.load 0x40 8
  let w0 := s.load (slotPa k) 8
  if s.pkg.power.supply && decide (s.pkg.power.boot = .running) && decide (s.pkg.power.state ≠ .calm) && bitAt w0 0 &&
      w0 / 2 ^ 32 == k % 2 ^ 32 then
    let c : SecCmd :=
      { k := k, csig := BitVec.ofNat 52 (s.load (slotPa k + 8) 8), w := Vector.ofFn (fun i => memWord s.mem (slotPa k + 8 * i.val)) }
    let op := BitVec.ofNat 8 (w0 / 2 ^ 8)
    let s1 := s.store 0x40 8 ((k + 1) % 2 ^ 64)
    some (if opKnown op then updSec s1 (fun z => { z with queue := z.queue ++ [{ op := op, lane := cmdLane op c, cmd := c, phase := 0, saved := 0 }] })
      else answerSlot s1 op k c.csig.toNat stBadCmd 0 [])
  else none

/-- SEC_COMMAND_ACCEPT (R422). -/
def execSecCommandAccept (s : State) : Out := .next ((acceptStep s).getD s)

end Sys2Proof.Machine
end

