-- ==== Sys2Proof/Machine/Loft.lean ====
section
/-! DEFINITION. The loft programming engines (R430 to R434): segments, rows, wear and repair, roots, and the commands on lanes 1
to 4. -/

namespace Sys2Proof.Machine

open Sys2Proof

/-! ## Segments and roots (R430, R434) -/

/-- Bytes of a row and of a segment (R430). -/
def loftRow : Nat := 2 ^ 13
def segBytes : Nat := 2 ^ 24

/-- The loft changed. -/
def updLoft (s : State) (f : Loft → Loft) : State := s.withPkg { s.pkg with loft := f s.pkg.loft }

/-- A segment of the loft reserved region (R430): segment 63 of banks 0 to 7 of die 0. -/
def segReserved (seg : Nat) : Bool := seg % 64 == 63 && decide (seg / 64 < 8)

/-- OWNER and STATE of a segment (R430): 0 free, 1 owned, 2 reserved, 3 tainted. -/
def segOwner (s : State) (seg : Nat) : Nat := bitsOf (cellGet (0 : BitVec 8) s.pkg.loft.owner seg).toNat 0 6
def segState (s : State) (seg : Nat) : Nat := if segReserved seg then 2 else bitsOf (cellGet (0 : BitVec 8) s.pkg.loft.owner seg).toNat 6 2

/-- OWNER and STATE of a segment written. -/
def setSeg (s : State) (seg world state : Nat) : State :=
  updLoft s (fun l => { l with owner := cellPut (0 : BitVec 8) l.owner seg (BitVec.ofNat 8 (world + state * 64)) })

/-- Segments owned by a world, in increasing address. -/
def ownedSegs (s : State) (world : Nat) : List Nat :=
  (s.pkg.loft.owner.map Prod.fst).filter (fun seg => segState s seg == 1 && segOwner s seg == world)

/-- Pairs of digests hashed (R434). -/
def pairHash : List (BitVec 384) → List (BitVec 384)
  | a :: b :: t => Config.sha384 97 (1 + a.toNat * 2 ^ 8 + b.toNat * 2 ^ 392) :: pairHash t
  | l => l

/-- The tree over digests in `n` levels. -/
def treeHash : Nat → List (BitVec 384) → BitVec 384
  | 0, l => l.headD 0
  | n + 1, l => treeHash n (pairHash l)

/-- The root of a segment as its bytes stand (R434; DESIGN CHOICE, log 10). -/
def segRoot (s : State) (seg : Nat) : BitVec 384 :=
  treeHash 8 ((upTo 256).map (fun i => Config.sha384 65537 (memRead s.mem (loftKey (seg * segBytes + i * 2 ^ 16)) (2 ^ 16) * 2 ^ 8)))

/-- The root of a segment stored (R434). -/
def storeRoot (s : State) (seg : Nat) : State := updLoft s (fun l => { l with roots := assocPut l.roots seg (segRoot s seg) })

/-- The stored root of a segment. -/
def storedRoot (s : State) (seg : Nat) : BitVec 384 := (assoc s.pkg.loft.roots seg).getD 0

/-- A world's loft digest (R434). -/
def loftDigest (s : State) (world : Nat) : BitVec 384 :=
  let roots := (ownedSegs s world).map (fun seg => (storedRoot s seg).toNat)
  Config.sha384 (48 * roots.length) (packBits 384 roots)

/-- An owned segment measured against its stored root: a mismatch taints it (R434, R444). -/
def measureSeg (s : State) (seg : Nat) : State := if segRoot s seg = storedRoot s seg then s else setSeg s seg (segOwner s seg) 3

/-! ## Rows (R432) -/

/-- The bank of a row. -/
def rowBank (r : Nat) : Nat := r / 2 ^ 17

/-- The physical row of a row: its own, numbered as the row, or a spare, numbered from 2^26 by bank. -/
def physRow (l : Loft) (r : Nat) : Nat := (assoc l.remap r).getD r

/-- Programs that a physical row has had. -/
def wearOf (l : Loft) (p : Nat) : Nat := (assoc l.wear p).getD 0

/-- Spare rows of a bank used, and left (R430). -/
def sparesUsed (l : Loft) (bank : Nat) : Nat := (assoc l.spares bank).getD 0
def sparesLeft (l : Loft) (bank : Nat) : Nat := bankSpares - sparesUsed l bank

/-- The programs at which a row is remapped (R432). -/
def wearLimit : Nat := 100000

/-- A row remapped to the next spare of its bank; none without a spare (R432). -/
def remapRow (l : Loft) (r : Nat) : Option Loft :=
  let b := rowBank r
  if sparesLeft l b = 0 then none
  else
    some { l with
      remap := assocPut l.remap r (2 ^ 26 + b * 2048 + sparesUsed l b)
      spares := assocPut l.spares b (sparesUsed l b + 1) }

/-- A row's home counted as retired (R432). -/
def retireRow (l : Loft) (r : Nat) : Loft := { l with retired := assocPut l.retired (rowBank r) ((assoc l.retired (rowBank r)).getD 0 + 1) }

/-- One program of wear on a row's home. -/
def wearRow (l : Loft) (r : Nat) : Loft := { l with wear := assocPut l.wear (physRow l r) (wearOf l (physRow l r) + 1) }

/-- How the programming of a row ended: programmed; no spare left for a worn row, before any pulse; no spare left after pulses;
or its read-back still wrong. -/
inductive RowEnd where
  | good | worn | noSpare | failed
  deriving DecidableEq, Repr

/-- The pulses of one attempt: 1 to 8 where the row then reads back right, all 8 where it does not (R432). -/
def clampPulses (ok : Bool) (n : Nat) : Nat := if ok then Nat.min 8 (Nat.max 1 n) else 8

/-- The loop of R432 on row `r`, with what its cells do: the loft after, how it ended, rows remapped, pulses used (DESIGN CHOICE, log 47). -/
def rowLoop (l : Loft) (r : Nat) (u : PulseResult) : Loft × RowEnd × Nat × Nat :=
  let worn := decide (wearLimit ≤ wearOf l (physRow l r))
  match (if worn then remapRow l r else some l) with
  | none => (l, .worn, 0, 0)
  | some l1 =>
    let n1 := worn.toNat
    let p1 := clampPulses u.ok u.pulses
    if u.ok then (wearRow l1 r, .good, n1, p1)
    else
      match remapRow (retireRow l1 r) r with
      | none => (retireRow l1 r, .noSpare, n1, p1)
      | some l2 =>
        let p2 := p1 + clampPulses u.spareOk u.sparePulses
        (wearRow l2 r, if u.spareOk then .good else .failed, n1 + 1, p2)

/-- A row written with its target, or marked unreadable (R432; a row left wrong without a spare is unreadable too, log 23); a worn row
without a spare reads as before (R463). -/
def rowResult (s : State) (r : Nat) (target : Nat) : RowEnd → State
  | .good =>
    let k := loftKey (r * loftRow)
    let m := memPutRange s.mem k (wordsOf target 1024)
    let s1 : State := { s with mem := m, bad := badAfterWrite s.bad k loftRow }
    updLoft s1 (fun l => { l with unreadable := l.unreadable.filter (fun x => x != r) })
  | .worn => s
  | _ => updLoft s (fun l => { l with unreadable := r :: l.unreadable.filter (fun x => x != r) })

/-! ## Commands of the lanes (R431) -/

/-- The loft address and length of a command; LGRANT, LHASH and LWEAR touch one segment or none. -/
def cmdLa (c : SecCmd) : Nat := secWord c 3
def cmdLen (op : BitVec 8) (c : SecCmd) : Nat := if op = opLprog ∨ op = opLzero then secWord c 5 else segBytes

/-- The segments that a command touches. -/
def cmdSegs (op : BitVec 8) (c : SecCmd) : List Nat :=
  let a := cmdLa c / segBytes
  (upTo ((cmdLa c + cmdLen op c + segBytes - 1) / segBytes - a)).map (fun i => a + i)

/-- Check 1 of R431. -/
def spanOk (op : BitVec 8) (c : SecCmd) : Bool :=
  let a := cmdLa c
  let n := cmdLen op c
  a % loftRow == 0 && (op == opLprog || op == opLzero || a % segBytes == 0) && n % loftRow == 0 && decide (loftRow ≤ n) && decide (n ≤ 2 ^ 30) &&
    decide ((a + n - 1) / 2 ^ 30 = a / 2 ^ 30)

/-- Check 2 of R431. -/
def segsOk (s : State) (op : BitVec 8) (c : SecCmd) : Bool :=
  (cmdSegs op c).all (fun seg =>
    let mine := segOwner s seg == (secWorld c).toNat
    if op = opLgrant then
      (if bitAt (secWord c 2) 8 then (segState s seg == 1 || segState s seg == 3) && mine else segState s seg == 0)
    else segState s seg == 1 && mine)

/-- Check 3 of R431: the frames of the source. -/
def sourceOk (s : State) (op : BitVec 8) (c : SecCmd) : Bool :=
  op != opLprog || (secWord c 4 % 2 ^ 16 == 0 && (upTo ((secWord c 5 + 2 ^ 16 - 1) / 2 ^ 16)).all (fun i =>
    let pa := secWord c 4 + i * 2 ^ 16
    isLpddr pa && frameKind s pa == (1, (secWorld c).toNat)))

/-- The checks of R431 before the effect of a loft command; the fourth tells BUSY from REFUSED. -/
def loftChecked (s : State) (x : LaneCmd) (run : State → State) : State :=
  let st := (s.pkg.security.worlds.get (secWorld x.cmd)).state
  let spanned := x.op == opLwear || spanOk x.op x.cmd
  let owned := x.op == opLwear || segsOk s x.op x.cmd
  if spanned && owned && sourceOk s x.op x.cmd && decide (st ≠ .live) then
    secDone s x (if st = .keying ∨ st = .revoking then stBusy else stRefused) 4 []
  else checked s x stRefused [spanned, owned, sourceOk s x.op x.cmd] run

/-- The rows of a programming command under way, and its first row. -/
def rowCount (op : BitVec 8) (c : SecCmd) : Nat := cmdLen op c / loftRow
def firstRow (c : SecCmd) : Nat := cmdLa c / loftRow

/-- The state of an engine's lane changed. -/
def updLpe (s : State) (d : BitVec 2) (f : LpeState → LpeState) : State := updLoft s (fun l => { l with lanes := l.lanes.set d (f (l.lanes.get d)) })

/-- A programming command starts (R432). -/
def startRows (s : State) (x : LaneCmd) : State :=
  setHead (updLpe s (BitVec.ofNat 2 (x.lane - 1)) (fun e => { e with rows := 0, remapped := 0, pulses := 0 })) x (fun y => { y with phase := 1 })

/-- The results of a programming command (R432). -/
def rowResults (s : State) (d : BitVec 2) : List Word64 :=
  let e := s.pkg.loft.lanes.get d
  [BitVec.ofNat 64 e.rows, BitVec.ofNat 64 e.remapped, BitVec.ofNat 64 e.pulses]

/-- The end of a programming command: the roots of the owned segments that it touched, for LGRANT the segment freed, and its
answer (R431, R432, R434). -/
def endRows (s : State) (x : LaneCmd) (status : Nat) : State :=
  let d := BitVec.ofNat 2 (x.lane - 1)
  let segs := (cmdSegs x.op x.cmd).filter (fun seg => segState s seg == 1)
  if x.op = opLgrant then
    if status = stOk then
      let seg := cmdLa x.cmd / segBytes
      secDone (updLoft (setSeg s seg 0 0) (fun l => { l with roots := assocDrop l.roots seg })) x status 0 []
    else secDone (segs.foldl storeRoot s) x status 0 []
  else secDone (segs.foldl storeRoot s) x status 0 (rowResults s d)

/-- LGRANT (R431): a free segment is granted at once; one to be freed is zeroed first, row by row. -/
def execLgrant (c : SecCmd) (s : State) : Out :=
  .next (onLane s opLgrant c (fun s x =>
    if x.phase ≠ 0 then s
    else loftChecked s x (fun s =>
      if bitAt (secWord c 2) 8 then startRows s x
      else
        let seg := cmdLa c / segBytes
        secDone (storeRoot (setSeg s seg (secWorld c).toNat 1) seg) x stOk 0 [])))

/-- LPROG (R431, R432): its checks; then LPE_ROW_PROGRAM programs its rows. -/
def execLprog (c : SecCmd) (s : State) : Out :=
  .next (onLane s opLprog c (fun s x => if x.phase ≠ 0 then s else loftChecked s x (fun s => startRows s x)))

/-- LZERO (R431, R432). -/
def execLzero (c : SecCmd) (s : State) : Out :=
  .next (onLane s opLzero c (fun s x => if x.phase ≠ 0 then s else loftChecked s x (fun s => startRows s x)))

/-- LHASH (R434): the root as it stands, MATCH, and a taint on a mismatch. -/
def execLhash (c : SecCmd) (s : State) : Out :=
  .next (onLane s opLhash c (fun s x => loftChecked s x (fun s =>
    let seg := cmdLa c / segBytes
    let root := segRoot s seg
    let ok := decide (root = storedRoot s seg)
    secDone (measureSeg s seg) x stOk 0 (wordsOf root.toNat 6 ++ [BitVec.ofNat 64 ok.toNat]))))

/-- The rows of a bank with wear recorded, by physical row. -/
def bankWear (l : Loft) (bank : Nat) : List Nat :=
  (l.wear.filter (fun p => if p.1 < 2 ^ 26 then rowBank p.1 == bank else (p.1 - 2 ^ 26) / 2048 == bank)).map Prod.snd

/-- LWEAR (R423, R463). -/
def execLwear (c : SecCmd) (s : State) : Out :=
  .next (onLane s opLwear c (fun s x => loftChecked s x (fun s =>
    let b := bitsOf (secWord c 3) 30 9
    let w := bankWear s.pkg.loft b
    secDone s x stOk 0 [BitVec.ofNat 64 (sparesLeft s.pkg.loft b), BitVec.ofNat 64 (countOf (fun n => decide (wearWarn ≤ n)) w),
      BitVec.ofNat 64 (w.foldl Nat.max 0), BitVec.ofNat 64 ((assoc s.pkg.loft.retired b).getD 0)])))

/-! ## LPE_ROW_PROGRAM (R432, R433) -/

/-- The ticks that a bank stays free after a row (R433). -/
def bankRest : Nat := 20000

/-- The programming command under way on a die's engine. -/
def lpeCmd (s : State) (d : BitVec 2) : Option LaneCmd :=
  match laneHead s (1 + d.toNat) with
  | some x => if x.phase = 1 then some x else none
  | none => none

/-- The row that the engine programs next. -/
def lpeRow (s : State) (d : BitVec 2) (x : LaneCmd) : Nat := firstRow x.cmd + (s.pkg.loft.lanes.get d).rows

/-- The engine takes a bank that has rested and that no farrier engine holds; on the way to lull it takes none (R433, R448, R459). -/
def lpeHold (s : State) (d : BitVec 2) (x : LaneCmd) : Option State :=
  let b := rowBank (lpeRow s d x)
  let e := s.pkg.loft.lanes.get d
  let rested := e.rest = 0 ∨ bankRest ≤ (s.time - e.rest).toNat
  if rested ∧ (s.pkg.loft.refresh.get d).isNone ∧ !s.pkg.loft.held.contains b ∧ !s.pkg.farrier.claimed.contains b ∧ !s.pkg.power.toLull ∧ secUp s then
    some (updLoft s (fun l => { l with held := b :: l.held }))
  else none

/-- The engine programs the row whose bank it holds, releases the bank, and ends the command with its last row or on a failure. -/
def lpeProgram (s : State) (d : BitVec 2) (x : LaneCmd) (u : PulseResult) : State :=
  let r := lpeRow s d x
  let b := rowBank r
  let src := secWord x.cmd 4 + (s.pkg.loft.lanes.get d).rows * loftRow
  let s0 := updLpe (updLoft s (fun l => { l with held := l.held.erase b })) d (fun e => { e with rest := s.time })
  if x.op = opLprog ∧ (readFails s src loftRow).isSome then endRows s0 x stFailed
  else
    let target := if x.op = opLprog then s.load src loftRow else 0
    let (l1, fin, n, p) := rowLoop s0.pkg.loft r u
    let s1 := rowResult (updLoft s0 (fun _ => l1)) r target fin
    let s2 := updLpe s1 d (fun e => { e with remapped := e.remapped + n, pulses := e.pulses + p, rows := if fin = .good then e.rows + 1 else e.rows })
    match fin with
    | .good => if (s2.pkg.loft.lanes.get d).rows = rowCount x.op x.cmd then endRows s2 x stOk else s2
    | .worn => endRows s2 x stNoSpace
    | .noSpare => endRows s2 x stNoSpace
    | .failed => endRows s2 x stFailed

/-- One step of a die's engine: it takes the bank of its next row, or programs the row. -/
def lpeStep (s : State) (d : BitVec 2) (u : PulseResult) : Option State :=
  match lpeCmd s d with
  | none => none
  | some x =>
    if (s.pkg.loft.refresh.get d).isNone && s.pkg.loft.held.contains (rowBank (lpeRow s d x)) then some (lpeProgram s d x u) else lpeHold s d x

/-- LPE_ROW_PROGRAM (R433). -/
def execLpeRowProgram (die : BitVec 2) (pulse : PulseResult) (s : State) : Out := .next ((lpeStep s die pulse).getD s)

/-- A die's engine holds a bank for a command of its lane. -/
def lpeHolds (s : State) (d : BitVec 2) : Bool :=
  (s.pkg.loft.refresh.get d).isNone && (match lpeCmd s d with | some x => s.pkg.loft.held.contains (rowBank (lpeRow s d x)) | none => false)

/-- The engine takes the bank of a weak row, free and rested as for a row of a command (R433, R462). -/
def refreshHold (s : State) (d : BitVec 2) (row : Nat) : Option State :=
  let b := rowBank row
  let e := s.pkg.loft.lanes.get d
  if s.pkg.farrier.weak.contains (d, row) && (s.pkg.loft.refresh.get d).isNone && !lpeHolds s d && !s.pkg.loft.held.contains b &&
      !s.pkg.farrier.claimed.contains b && (e.rest == 0 || decide (bankRest ≤ (s.time - e.rest).toNat)) && !s.pkg.power.toLull && secUp s then
    some (updLoft s (fun l => { l with held := b :: l.held, refresh := l.refresh.set d (some row) }))
  else none

/-- The engine programs the weak row whose bank it holds with its own corrected contents, one program of wear, and releases the bank; a worn row
without a spare stays as it is, and is no longer tried (R432, R462). -/
def refreshRow (s : State) (d : BitVec 2) (row : Nat) : State :=
  let good : PulseResult := { pulses := 1, ok := true, sparePulses := 1, spareOk := true }
  let s0 := updLpe (updLoft s (fun l => { l with held := l.held.erase (rowBank row), refresh := l.refresh.set d none })) d
    (fun e => { e with rest := s.time })
  let (l1, fin, _, _) := rowLoop s0.pkg.loft row good
  let f := s.pkg.farrier
  let f1 : Farrier :=
    if fin = .good then { f with weak := f.weak.erase (d, row), refreshed := f.refreshed + 1 }
    else { f with weak := f.weak.erase (d, row), stuck := row :: f.stuck }
  rowResult (s0.withPkg { s0.pkg with loft := l1, farrier := f1 }) row (s.load (loftKey (row * loftRow)) loftRow) fin

/-- One step of the refresh of a weak row: its bank is taken, or the row programmed. -/
def refreshStep (s : State) (d : BitVec 2) (row : Nat) : Option State :=
  if s.pkg.loft.refresh.get d = some row then some (refreshRow s d row) else refreshHold s d row

/-- WEAK_ROW_REFRESH (R462). -/
def execWeakRowRefresh (die : BitVec 2) (row : Nat) (s : State) : Out := .next ((refreshStep s die row).getD s)

end Sys2Proof.Machine
end

