-- ==== Sys2Proof/Machine/Worlds.lean ====
section
/-! DEFINITION. Ownership and mappings (R424 to R426), worlds and their keys (R428, R429, R437 to R439), sealed checkpoints (R441,
R442) and the measurements that they and attestation use (R445): the commands of lane 0. -/

namespace Sys2Proof.Machine

open Sys2Proof

/-! ## Frames (R424) -/

/-- Bytes of a frame. -/
def frameBytes : Nat := 2 ^ 16

/-- The key of a frame's entry in the ownership table. -/
def entryOf (pa : Nat) : Nat := frameEntry (pa / 2 ^ 40) (pa % 2 ^ 40 / 2 ^ 16)

/-- MAPS of the frame at a PA. -/
def frameMaps (s : State) (pa : Nat) : Nat := bitsOf (s.load (entryOf pa) 4) 16 16

/-- KIND, OWNER and MAPS of a frame written. -/
def setFrame (s : State) (pa kind owner maps : Nat) : State := s.store (entryOf pa) 4 (owner + kind * 2 ^ 8 + maps * 2 ^ 16)

/-- A range of memory zeroed (R424). -/
def scrub (s : State) (pa n : Nat) : State :=
  { s.forget pa n with mem := cellClear s.mem pa n, bad := s.bad.filter (fun u => !(decide (pa ≤ u.1) && decide (u.1 < pa + n))) }

/-- The PAs of `n` frames. -/
def framesFrom (pa n : Nat) : List Nat := (upTo n).map (fun i => pa + i * frameBytes)

/-- The frames that a world owns, in the order of the ownership table. -/
def worldFrames (s : State) (world : BitVec 6) : List Nat :=
  let lo := frameEntry 0 0
  let ks := ((s.mem.filter (fun c => decide (lo ≤ c.1) && decide (c.1 < lo + 4 * 25165824))).map (fun c => (c.1 - lo) / 4)).eraseDups
  let pas := ks.map (fun f => f / 6291456 * 2 ^ 40 + f % 6291456 * 2 ^ 16)
  pas.filter (fun pa => (frameKind s pa).2 == world.toNat && decide (1 ≤ (frameKind s pa).1) && decide ((frameKind s pa).1 ≤ 3))

/-- Every frame of a world zeroed and freed. -/
def freeWorld (s : State) (world : BitVec 6) : State :=
  (worldFrames s world).foldl (fun s pa => setFrame (scrub s pa frameBytes) pa 0 0 0) s

/-- The record of a world. -/
def worldOf (s : State) (w : BitVec 6) : World := s.pkg.security.worlds.get w

/-- The record of a world changed. -/
def updWorld (s : State) (w : BitVec 6) (f : World → World) : State := updSec s (fun z => { z with worlds := z.worlds.set w (f (z.worlds.get w)) })

/-- A launch of the world is outside DONE. -/
def launchOpen (s : State) (w : BitVec 6) : Bool := s.pkg.launches.any (fun l => l.world s == w)

/-- FASSIGN (R424). -/
def execFassign (c : SecCmd) (s : State) : Out :=
  .next (onLane s opFassign c (fun s x =>
    let kind := bitsOf (secWord c 2) 8 3
    let pas := framesFrom (secWord c 3) (secWord c 4)
    checked s x stRefused
      [ decide ((worldOf s (secWorld c)).state = .live ∨ kind = 2),
        pas.all (fun pa => isLpddr pa && (frameKind s pa).1 == 0),
        pas.all (fun pa => decide (2 ^ 30 ≤ pa)) ]
      (fun s => secDone (pas.foldl (fun s pa => setFrame s pa kind (secWorld c).toNat 0) (scrub s (secWord c 3) (secWord c 4 * frameBytes))) x stOk 0 [])))

/-- An LPROG outstanding reads the frame. -/
def lprogReads (s : State) (pa : Nat) : Bool :=
  s.pkg.security.queue.any (fun y => y.op == opLprog && decide (secWord y.cmd 4 < pa + frameBytes) && decide (pa < secWord y.cmd 4 + secWord y.cmd 5))

/-- FRELEASE (R424): a failed check answers BUSY (DEDUCED, log 45). -/
def execFrelease (c : SecCmd) (s : State) : Out :=
  .next (onLane s opFrelease c (fun s x =>
    let n := secWord c 4
    let pas := if n ≤ 25165824 then framesFrom (secWord c 3) n else []
    checked s x stBusy
      [ decide (n ≤ 25165824) && pas.all (fun pa => isLpddr pa && (frameKind s pa).2 == (secWorld c).toNat &&
          decide (1 ≤ (frameKind s pa).1) && decide ((frameKind s pa).1 ≤ 3)),
        pas.all (fun pa => frameMaps s pa == 0),
        pas.all (fun pa => !(imageFrames s).contains pa),
        pas.all (fun pa => !lprogReads s pa) ]
      (fun s => secDone (pas.foldl (fun s pa => setFrame s pa 0 0 0) (scrub s (secWord c 3) (n * frameBytes))) x stOk 0 [])))

/-! ## MAPSET (R425) -/

/-- The queue table entry of an address space, as the yard's table in memory has it (R373). -/
def tableEntry (s : State) (die : BitVec 2) (queue : BitVec 10) : Nat := s.load ((s.pkg.yards.get die).qtBase.toNat + 64 * queue.toNat) 64

/-- The table that a walk reaches at a level, each one on the way a table frame of the world (R425, check 2). -/
def tableAt (s : State) (world va : Nat) : Nat → List (Nat × Nat × Nat) → Nat → Option Nat
  | _, [], _ => none
  | 0, _, base => some base
  | n + 1, (level, lo, w) :: rest, base =>
    let e := memWord s.mem (base + 8 * bitsOf va lo w)
    let next := bitsOf e.toNat 14 38 * 2 ^ 14
    if e.getLsbD 0 && !e.getLsbD 1 && !pteMalformed e level && frameKind s next == (2, world) then tableAt s world va n rest next else none

/-- The frames that a leaf at a level names. -/
def leafFrames (e : Word64) (level : Nat) : List Nat :=
  framesFrom (bitsOf e.toNat 14 38 * 2 ^ 14) (2 ^ (levelLog level - 16))

/-- A valid leaf. -/
def validLeaf (e : Word64) : Bool := e.getLsbD 0 && e.getLsbD 1

/-- Check 5 of R425: every frame of the leaf is a data frame of the world, or the NOTIFYn page of a queue of the world. A frame behind an
aperture is neither: the tier engine alone puts one into a leaf (R409). -/
def leafOwned (s : State) (world : Nat) (e : Word64) (level : Nat) : Bool :=
  bitsOf e.toNat 8 6 == world && (leafFrames e level).all (fun f =>
    match notifyOf f with
    | some (d, n) => bitsOf (tableEntry s d n) 128 6 == world
    | none => isLpddr f && frameKind s f == (1, world))

/-- Tier pages that an entry of a page table put in a directory leave it, and those of a new leaf enter one: WARM, or COLD behind
an aperture, with no heat (R66, R409). -/
def tierMap (s : State) (pte : Nat) (world : BitVec 6) (die : BitVec 2) (e : Word64) : State :=
  let s1 := s.withPkg { s.pkg with tiers := s.pkg.tiers.map (fun t => { t with pages := t.pages.filter (fun p => p.pte != pte) }) }
  let tier := e.extractLsb 7 6
  if validLeaf e && tier != 0 then
    let pa := bitsOf e.toNat 14 38 * 2 ^ 14
    let st : TierState := if isLpddr pa then .warm else .cold
    let d := if isLpddr pa then BitVec.ofNat 2 (pa / 2 ^ 40) else die
    let p : TierPage := { frame := pa / 2 ^ 16, pte := pte, tier := tier, state := st, heat := 0, world := world, promoted := 0, source := st
                          target := st, toFrame := pa / 2 ^ 16, aborted := false, wanted := false }
    updTier s1 d (fun t => { t with pages := t.pages ++ [p] })
  else s1

/-- Held tasks of a world walk for their pages again (R403). -/
def rewalkWorld (s : State) (world : BitVec 6) : State :=
  ((s.pkg.launches.filter (fun l => l.world s == world)).map Launch.lid).foldl rewalk s

/-- The last part of a MAPSET, once no shootdown is open: MAPS, which a frame of both leaves keeps, the tier directory, the answer, and the walks
of held tasks. -/
def finishMap (s : State) (x : LaneCmd) (pte level : Nat) (die : BitVec 2) (old new : Word64) : State :=
  let w := secWorld x.cmd
  let up := if validLeaf new then leafFrames new level else []
  let down := if validLeaf old then leafFrames old level else []
  let s1 := (up.filter (fun pa => !down.contains pa)).foldl (fun s pa => adjustMaps s (pa / 2 ^ 16) true) s
  let s2 := (down.filter (fun pa => !up.contains pa)).foldl (fun s pa => adjustMaps s (pa / 2 ^ 16) false) s1
  rewalkWorld (secDone (tierMap s2 pte w die new) x stOk 0 [old]) w

/-- MAPSET (R425): the checks and the write; an old valid entry is shot down before the command completes (DEDUCED, log 45). -/
def execMapset (c : SecCmd) (s : State) : Out :=
  .next (onLane s opMapset c (fun s x =>
    let w := secWorld c
    let die := BitVec.ofNat 2 (bitsOf (secWord c 2) 8 2)
    let queue := BitVec.ofNat 10 (bitsOf (secWord c 2) 16 10)
    let level := bitsOf (secWord c 2) 32 2
    let va := secWord c 3
    let new := c.w.get 4
    let qe := tableEntry s die queue
    let root := bitsOf qe 64 52
    let tab := tableAt s w.toNat va level walkLevels root
    let pte := tab.getD 0 + 8 * (match walkLevels.drop level with | (_, lo, n) :: _ => bitsOf va lo n | [] => 0)
    let live := new.getLsbD 0
    let next := bitsOf new.toNat 14 38 * 2 ^ 14
    let old := memWord s.mem pte
    let freed := fun (pa : Nat) => if validLeaf old && (leafFrames old level).contains pa then 1 else 0
    if x.phase = 0 then
      checked s x stRefused
        [ bitsOf qe 128 6 == w.toNat && frameKind s root == (2, w.toNat),
          tab.isSome,
          !live || !pteMalformed new level,
          !live || new.getLsbD 1 || frameKind s next == (2, w.toNat),
          !validLeaf new || leafOwned s w.toNat new level,
          !validLeaf new || (leafFrames new level).all (fun pa => !isLpddr pa || decide (frameMaps s pa + 1 ≤ 65535 + freed pa)) ]
        (fun s =>
          let s1 := s.store pte 8 new.toNat
          if old.getLsbD 0 then
            let size := match walkLevels.drop level with | (_, lo, _) :: _ => 2 ^ lo | [] => 1
            let lo := va / size * size
            let space : Option (BitVec 12) := if validLeaf old && old.getLsbD 4 then none else some (spaceOf die queue)
            setHead (shoot s1 { world := w, space := space, lo := lo, hi := lo + size }) x (fun y => { y with phase := 1, saved := old })
          else finishMap s1 x pte level die old new)
    else if s.pkg.shootdowns.isEmpty then finishMap s x pte level die x.saved new
    else s))

/-! ## Handles (R105, R404 to R406, R426) -/

/-- A slot that HCREATE may take: GEN 0, or LEN 0 and not quarantined. -/
def slotFree (s : State) (w : BitVec 6) (i : Nat) : Bool :=
  let e := s.load (handlePa w i) 16
  bitsOf e 112 16 == 0 || (bitsOf e 64 40 == 0 && !(worldOf s w).quarantined.contains i)

/-- HCREATE (R426) (DEDUCED, log 45). -/
def execHcreate (c : SecCmd) (s : State) : Out :=
  .next (onLane s opHcreate c (fun s x =>
    let w := secWorld c
    let base := secWord c 3
    let len := secWord c 4
    match (upTo 65536).find? (slotFree s w) with
    | none => secDone s x stNoSpace 1 []
    | some i =>
      if base % 2 ^ 16 = 0 ∧ base < 2 ^ 56 ∧ len % 2 ^ 16 = 0 ∧ 0 < len ∧ len < 2 ^ 40 then
        let gen := Nat.max 1 (bitsOf (s.load (handlePa w i) 16) 112 16)
        secDone (s.store (handlePa w i) 16 (base + len * 2 ^ 64 + secWord c 5 * 2 ^ 104 + gen * 2 ^ 112)) x stOk 0 [BitVec.ofNat 64 (gen * 2 ^ 16 + i)]
      else secDone s x stRefused 2 []))

/-- A command goes on within a page of a side that was validated under a handle: it checks the handle again only on the next page (R253, R406). -/
def pageHeld (s : State) (c : CopyCmd) (dst : Bool) (h : Nat) : Bool :=
  let n := c.desc.toNat
  sideUsed c.fn dst && (if dst then copyDhe n && copyDh n == h else copyShe n && copySh n == h) && !newPage s c dst c.moved

/-- A command of the state's task whose current page was validated under a handle of its world (R406). -/
def copyHolds (s : State) (w : BitVec 6) (h : Nat) : Bool :=
  s.task.copies.any (fun c => c.accepted && c.stop.isNone && c.world == w && decide (c.moved < copyTotal c.desc.toNat) &&
    (pageHeld s c false h || pageHeld s c true h))

/-- A command of this core's task, or of a saved one, whose current page was validated under a handle of its world (R406). -/
def handleHeld (s : State) (w : BitVec 6) (h : Nat) : Bool := copyHolds s w h || s.pkg.images.any (fun im => copyHolds (viewOf s im) w h)

/-- HRETIRE (R405, R406, R426): the entry is written at once, and the command completes when no copy still goes by it (DEDUCED, log 45). -/
def execHretire (c : SecCmd) (s : State) : Out :=
  .next (onLane s opHretire c (fun s x =>
    let w := secWorld c
    let h := secWord c 3
    let gen := h / 2 ^ 16
    let wait := fun (s : State) => if handleHeld s w h then setHead s x (fun y => { y with phase := 1 }) else secDone s x stOk 0 []
    if x.phase ≠ 0 then (if handleHeld s w h then s else secDone s x stOk 0 [])
    else
      checked s x stRefused [(handleLive s.mem w h).isSome] (fun s =>
        if gen < 0xFFFF then wait (s.store (handlePa w h) 16 ((gen + 1) * 2 ^ 112))
        else wait (updWorld (s.store (handlePa w h) 16 (gen * 2 ^ 112)) w (fun r => { r with quarantined := h % 2 ^ 16 :: r.quarantined })))))

/-! ## World records (R428, R429) -/

/-- The keys that a world's slot holds with a root K: the data key pair and the tag key, derived with the infos "data" and "tag" (R437;
DESIGN CHOICE, log 10). -/
def World.loaded (r : World) (w : BitVec 6) (k : BitVec 512) : World :=
  { r with
    key := some k
    dataKey := some (Config.hkdf k (0x61746164 + w.toNat * 2 ^ 32))
    tagKey := some ((Config.hkdf k (0x676174 + w.toNat * 2 ^ 24)).truncate 256) }

/-- A world's slot cleared (R429, R439). -/
def World.unloaded (r : World) : World := { r with key := none, dataKey := none, tagKey := none }

/-- The number of a state (R429). -/
def stateNum : WorldState → Nat
  | .free => 0 | .keying => 1 | .live => 2 | .revoking => 3 | .keyless => 4 | .erased => 5 | .exported => 6

/-- Word 0 of a world record (R428). -/
def worldWord (r : World) : Word64 := BitVec.ofNat 64 (stateNum r.state + r.n.toNat * 2 ^ 8 + r.arrived.toNat * 2 ^ 32 + r.expCnt.toNat * 2 ^ 48)

/-- WSTAT (R428). -/
def execWstat (c : SecCmd) (s : State) : Out :=
  .next (onLane s opWstat c (fun s x => secDone s x stOk 0 [worldWord (worldOf s (secWorld c))]))

/-- The policy digest of a WCREATE. -/
def cmdPolicy (c : SecCmd) : BitVec 384 := BitVec.ofNat 384 (packBits 64 ((upTo 6).map (fun i => secWord c (3 + i))))

/-- WCREATE (R429): a FREE world, or a KEYLESS one under the policy that it has, whose check value the shares must then match (DEDUCED, log 45). -/
def execWcreate (c : SecCmd) (s : State) : Out :=
  .next (onLane s opWcreate c (fun s x =>
    let w := secWorld c
    let r := worldOf s w
    let n := bitsOf (secWord c 2) 8 5
    let policy := cmdPolicy c
    checked s x stRefused [w != 0, decide (r.state = .free ∨ (r.state = .keyless ∧ r.policy = policy))] (fun s =>
      let digests := (upTo n).map (fun j => BitVec.ofNat 384 (s.load (secWord c 9 + 48 * j) 48))
      secDone (updWorld s w (fun r => { r.unloaded with state := .keying, n := BitVec.ofNat 5 n, arrived := 0, policy := policy, custodians := digests
                                                        shares := [] })) x stOk 0 [])))

/-- Everything cached of a world in this core, the L2 and the tier directories dropped. -/
def dropWorld (s : State) (w : BitVec 6) : State :=
  { s with
    core := { s.core with tlb := s.core.tlb.filter (fun t => t.world != w) }
    pkg := { s.pkg with
      l2 := s.pkg.l2.filter (fun l => l.world != w)
      tiers := s.pkg.tiers.map (fun t => { t with pages := t.pages.filter (fun p => p.world != w) }) } }

/-- A resident page dropped: its frame is cleared and nothing is written back. -/
def dropPage (s : State) (r : Resident) : State :=
  { s with core := { s.core with resident := s.core.resident.filter (fun x => !decide (x = r)) } }.clearFrame (frameKey r)

/-- The pages of scratchpad that belong to a world leave their frames: written back, or dropped (R57, R439). -/
def clearPages (s : State) (w : BitVec 6) (flush : Bool) : State :=
  (s.core.resident.filter (fun r => r.owner.world == w)).foldl (fun s r => if flush then evictFrame s r else dropPage s r) s

/-- A loft segment zeroed with one program of wear on each of its rows (R429, R432). -/
def zeroSeg (s : State) (seg : Nat) : State :=
  let s1 := scrub s (loftKey (seg * segBytes)) segBytes
  let wear := fun (l : Loft) => (upTo 2048).foldl (fun l i => wearRow l (seg * 2048 + i)) l
  setSeg (updLoft s1 (fun l => wear { l with roots := assocDrop l.roots seg, unreadable := l.unreadable.filter (fun r => r / 2048 != seg) })) seg 0 0

/-- WDESTROY (R429) (DEDUCED, log 45). -/
def execWdestroy (c : SecCmd) (s : State) : Out :=
  .next (onLane s opWdestroy c (fun s x =>
    let w := secWorld c
    checked s x stRefused [w != 0, decide ((worldOf s w).state ≠ .free), !launchOpen s w] (fun s =>
      let s1 := freeWorld (clearPages s w false) w
      let s2 := scrub s1 (handlePa w 0) (2 ^ 20)
      let segs := (s2.pkg.loft.owner.map Prod.fst).filter (fun seg => segOwner s2 seg == w.toNat && (segState s2 seg == 1 || segState s2 seg == 3))
      let s3 := segs.foldl zeroSeg s2
      secDone (updWorld (dropWorld s3 w) w (fun _ => World.free)) x stOk 0 [])))

/-! ## Keys (R437 to R439) -/

/-- The check value of a root key (R437; DESIGN CHOICE, log 10): the bytes of "check", then K. -/
def checkValue (k : BitVec 512) : BitVec 384 := Config.sha384 69 (0x6B63656863 + k.toNat * 2 ^ 40)

/-- An LPE command is outstanding for the world (R439). -/
def lpeOpen (s : State) (w : BitVec 6) : Bool := s.pkg.security.queue.any (fun y => decide (0x10 ≤ y.op.toNat) && secWorld y.cmd == w)

/-- A migration of a page of the world is in flight (R439). -/
def migrationOpen (s : State) (w : BitVec 6) : Bool :=
  s.pkg.tiers.toList.any (fun t => t.pages.any (fun p => p.world == w && decide (p.state = .moving)))

/-- KREVOKE (R439): REVOKING at once; when the migrations in flight have finished, the caches are flushed or dropped and the key slot
cleared (DEDUCED, log 45). -/
def execKrevoke (c : SecCmd) (s : State) : Out :=
  .next (onLane s opKrevoke c (fun s x =>
    let w := secWorld c
    let discard := bitAt (secWord c 2) 8
    let finish := fun (s : State) =>
      if migrationOpen s w then s
      else
        let dirty := if discard then 0 else countOf (fun (l : L2Line) => l.world == w && l.dirty) s.pkg.l2
        let s1 := clearPages s w (!discard)
        let s2 := s1.withPkg { s1.pkg with l2 := s1.pkg.l2.filter (fun l => l.world != w) }
        let s3 := updWorld s2 w (fun r => { r.unloaded with state := if discard then .erased else .keyless, arrived := 0
                                                            check := if discard then none else r.check })
        secDone s3 x stOk 0 [BitVec.ofNat 64 dirty]
    if x.phase ≠ 0 then finish s
    else if w = 0 then secDone s x stRefused 1 []
    else
      match firstFailed 1 [!launchOpen s w, !s.pkg.images.any (fun i => i.task.ident.world == w), !lpeOpen s w] with
      | some n => secDone s x stBusy n []
      | none =>
        if (worldOf s w).state ≠ .live then secDone s x stRefused 4 []
        else finish (setHead (updWorld s w (fun r => { r with state := .revoking })) x (fun y => { y with phase := 1 }))))

/-! ## Measurements (R445) -/

/-- The configuration as measured (R445; DESIGN CHOICE, log 10). -/
def configDigest (s : State) : BitVec 384 :=
  let f := s.pkg.config
  let v := packBits 64 (f.tierCtl.toList.map BitVec.toNat ++ f.tierThr.toList.map BitVec.toNat ++ [f.capw.toNat, f.portEn.toNat])
  Config.sha384 (80 + 48 * f.operators.length) (v + packBits 384 (f.operators.map BitVec.toNat) * 2 ^ 640)

/-- The firmware as measured (R445): digest, source and security version. -/
def firmwareDigest (s : State) : BitVec 384 :=
  Config.sha384 57 (s.pkg.security.fwDigest.toNat + s.pkg.security.fwFromLoft.toNat * 2 ^ 384 + s.pkg.security.fwVersion % 2 ^ 64 * 2 ^ 392)

/-- The loft as measured (R445): its ownership table and every segment root. -/
def loftMeasure (s : State) : BitVec 384 :=
  let owners := packBits 8 ((upTo 32768).map (fun seg => segOwner s seg + segState s seg * 64))
  let roots := packBits 384 ((upTo 32768).map (fun seg => (storedRoot s seg).toNat))
  Config.sha384 (32768 * 49) (owners + roots * 2 ^ 262144)

/-- The values of a measurement block (R445): a digest, a count, or a world's fields; none for an index without a block. -/
def measureBlock (s : State) (index : Nat) : Option (List (BitVec 384)) :=
  if index = 1 then some [Config.romDigest]
  else if index = 2 then some [firmwareDigest s]
  else if index = 4 then some [configDigest s]
  else if index = 5 then some [loftMeasure s]
  else if index = 0x10 then some [BitVec.ofNat 384 s.pkg.power.wakeCnt]
  else if 0x41 ≤ index ∧ index ≤ 0x7F then
    let w := BitVec.ofNat 6 (index - 0x40)
    let r := worldOf s w
    some [BitVec.ofNat 384 (stateNum r.state), BitVec.ofNat 384 r.n.toNat, BitVec.ofNat 384 r.expCnt.toNat, r.policy, r.check.getD 0, loftDigest s w.toNat]
  else none

/-- The alias key (R443): derived from the seed and from measurement 2. -/
def aliasKey (s : State) : BitVec 384 := Config.sha384 96 (Config.pufSeed.toNat + (firmwareDigest s).toNat * 2 ^ 384)

/-! ## Sealed checkpoints (R441, R442; DESIGN CHOICE, log 10) -/

/-- The key that seals a checkpoint (R441): info is "seal" then the world then EXPCNT. -/
def sealKey (k : BitVec 512) (w : BitVec 6) (expCnt : BitVec 16) : BitVec 512 :=
  Config.hkdf k (0x6C616573 + w.toNat * 2 ^ 32 + expCnt.toNat * 2 ^ 40)

/-- The words of each chunk of a checkpoint: its frames, then the handle table. -/
def chunksOf (k : Checkpoint) : List (List Word64) :=
  k.frames.map (fun f => f.2.2) ++ (upTo 16).map (fun i => (k.handles.drop (8192 * i)).take 8192)

/-- A chunk under its key and IV. -/
def sealChunk (k : Checkpoint) (i : Nat) (ws : List Word64) : List Word64 :=
  (ws.zipIdx).map (fun p => Config.gcmWord k.sealKey (i + k.expCnt.toNat * 2 ^ 32) p.2 p.1)

/-- The entries of a table of 2^w entries at a PA that are not zero, with their numbers. -/
def tableEntries (s : State) (base w : Nat) : List (Nat × Word64) :=
  let cells := s.mem.filter (fun c => decide (base ≤ c.1) && decide (c.1 < base + 8 * 2 ^ w))
  ((cells.map (fun c => (c.1 - base) / 8)).eraseDups).map (fun i => (i, memWord s.mem (base + 8 * i)))

/-- The leaves that the tables from one at `base` on hold: VA, level, the entry's PA, and the leaf (R394, R396). -/
def leavesFrom (s : State) : List (Nat × Nat × Nat) → Nat → Nat → List (Nat × Nat × Nat × Word64)
  | [], _, _ => []
  | (level, lo, w) :: rest, base, va =>
    (tableEntries s base w).flatMap (fun p =>
      let here := va + p.1 * 2 ^ lo
      if !p.2.getLsbD 0 || pteMalformed p.2 level then []
      else if p.2.getLsbD 1 then [(here, level, base + 8 * p.1, p.2)]
      else leavesFrom s rest (bitsOf p.2.toNat 14 38 * 2 ^ 14) here)

/-- The address spaces bound to a world, with the root of each: those of the entries of the yards' queue tables whose root is a table frame of the
world, enabled or not, and those of the enabled queues as they were read (R373, R397, R425). -/
def boundSpaces (s : State) (w : BitVec 6) : List (BitVec 12 × Nat) :=
  ([0#2, 1#2, 2#2, 3#2].flatMap (fun d =>
    let y := s.pkg.yards.get d
    let base := y.qtBase.toNat
    let listed := ((s.mem.filter (fun c => decide (base ≤ c.1) && decide (c.1 < base + 2 ^ 16))).map (fun c => (c.1 - base) / 64)).eraseDups
    let bound := (listed.map (BitVec.ofNat 10)).filter (fun n => bitsOf (tableEntry s d n) 128 6 == w.toNat &&
      frameKind s (bitsOf (tableEntry s d n) 64 52) == (2, w.toNat))
    bound.map (fun n => (spaceOf d n, bitsOf (tableEntry s d n) 64 52)) ++
      (y.queues.filter (fun x => x.world == w)).map (fun x => (spaceOf d x.num, bitsOf x.entry.toNat 64 52)))).eraseDups

/-- The leaves of address spaces with the roots given, by space and VA (R394, R397). -/
def spaceLeaves (s : State) (spaces : List (BitVec 12 × Nat)) : List (BitVec 12 × Nat × Nat × Nat × Word64) :=
  spaces.flatMap (fun p => (leavesFrom s walkLevels p.2 0).map (fun l => (p.1, l)))

/-- What is mapped in a world, as a checkpoint lists it (R441). -/
def worldMaps (s : State) (w : BitVec 6) : List (BitVec 12 × Nat × Nat × Word64) :=
  (spaceLeaves s (boundSpaces s w)).map (fun l => (l.1, l.2.1, l.2.2.1, l.2.2.2.2))

/-- The address, by space and VA, at which a frame is first mapped; a frame that no leaf names comes after all others. -/
def frameVa (maps : List (BitVec 12 × Nat × Nat × Word64)) (pa : Nat) : Nat :=
  match maps.find? (fun m => (leafFrames m.2.2.2 m.2.2.1).contains pa) with
  | some m => m.1.toNat * 2 ^ 56 + m.2.1 + (pa - (leafFrames m.2.2.2 m.2.2.1).headD pa)
  | none => 2 ^ 68

/-- The frames of a world in the order of its checkpoint: by VA (R441). -/
def framesByVa (s : State) (w : BitVec 6) : List Nat := sortBy (frameVa (worldMaps s w)) (worldFrames s w)

/-- What the header says: the world record, the policy and the loft digest; the frames with their ownership entries; and by VA what each
leaf names, with its level and its protection bits, and the root of each address space (R441). -/
def headerPlain (k : Checkpoint) : List Word64 :=
  [BitVec.ofNat 64 (k.world.toNat + k.n.toNat * 2 ^ 8 + k.expCnt.toNat * 2 ^ 16 + k.frames.length * 2 ^ 32),
    BitVec.ofNat 64 (k.maps.length + k.spaces.length * 2 ^ 32)] ++
    wordsOf k.policy.toNat 6 ++ wordsOf (k.check.getD 0).toNat 6 ++ k.custodians.flatMap (fun d => wordsOf d.toNat 6) ++
    wordsOf k.loftDigest.toNat 6 ++ k.frames.flatMap (fun f => [BitVec.ofNat 64 f.1, BitVec.ofNat 64 f.2.1]) ++
    k.maps.flatMap (fun m => [BitVec.ofNat 64 (m.1.toNat + m.2.2.1 * 2 ^ 12), BitVec.ofNat 64 m.2.1, m.2.2.2]) ++
    k.spaces.flatMap (fun p => [p.1.zeroExtend 64, BitVec.ofNat 64 p.2])

/-- Frames that the header takes. -/
def headerFrames (k : Checkpoint) : Nat := ((headerPlain k).length + 12 + 8191) / 8192

/-- The header with its signature by the alias key. -/
def headerWords (s : State) (k : Checkpoint) : List Word64 :=
  let h := headerPlain k
  let digest := Config.sha384 (8 * h.length) (packBits 64 (h.map BitVec.toNat))
  section64 (8192 * headerFrames k) (wordsOf (Config.ecdsa (aliasKey s) digest).toNat 12 ++ h)

/-- The addresses of a frame list. -/
def frameList (s : State) (pa n : Nat) : List Nat := (memWords s.mem pa n).map BitVec.toNat

/-- The frames of a checkpoint: chunks, then the header. -/
def checkpointFrames (k : Checkpoint) : Nat := k.frames.length + 16 + headerFrames k

/-- A checkpoint written into its frames. -/
def writeCheckpoint (s : State) (k : Checkpoint) (homes : List Nat) : State :=
  let chunks := ((chunksOf k).zipIdx).map (fun p => sealChunk k p.2 p.1)
  let hs := (upTo (headerFrames k)).map (fun i => ((headerWords s k).drop (8192 * i)).take 8192)
  ((homes.zip (chunks ++ hs))).foldl (fun s p => { s with mem := memPutRange s.mem p.1 p.2, bad := badAfterWrite s.bad p.1 frameBytes }) s

/-- EXPORT (R441) (DEDUCED, log 45). -/
def execExportWorld (c : SecCmd) (s : State) : Out :=
  .next (onLane s opExport c (fun s x =>
    let w := secWorld c
    let r := worldOf s w
    if w = 0 then secDone s x stRefused 1 []
    else
      checked s x stBusy [decide (r.state = .live), !launchOpen s w] (fun s =>
        let frames := (framesByVa s w).map (fun pa => (pa, s.load (entryOf pa) 4, memWords s.mem pa 8192))
        let k : Checkpoint :=
          { world := w, expCnt := r.expCnt, n := r.n, check := r.check, custodians := r.custodians, frames := frames, maps := worldMaps s w
            spaces := boundSpaces s w
            handles := memWords s.mem (handlePa w 0) 131072, quarantined := r.quarantined
            loftDigest := loftDigest s w.toNat, policy := r.policy, sealKey := sealKey (r.key.getD 0) w r.expCnt, calmed := false }
        let homes := ((frameList s (secWord c 3) (secWord c 4)).filter (fun pa => pa % frameBytes == 0 && isLpddr pa && frameKind s pa == (1, 0))).eraseDups
        if homes.length < checkpointFrames k then secDone s x stNoSpace 3 []
        else
          let s1 := freeWorld (clearPages s w false) w
          let s2 := writeCheckpoint (dropWorld s1 w) k homes
          let s3 := updWorld s2 w (fun r => { r.unloaded with state := .exported, expCnt := r.expCnt + 1, arrived := 0 })
          let s4 := updSec s3 (fun z => { z with checkpoints := z.checkpoints ++ [k] })
          secDone s4 x stOk 0 [BitVec.ofNat 64 (checkpointFrames k * frameBytes), (r.expCnt + 1).zeroExtend 64])))

/-- The header of a checkpoint, as the alias key signs it now, stands in the last frames of a list. -/
def headerStands (s : State) (l : List Nat) (k : Checkpoint) : Bool :=
  let homes := (l.drop (k.frames.length + 16)).take (headerFrames k)
  decide (checkpointFrames k ≤ l.length) && decide (homes.flatMap (fun pa => memWords s.mem pa 8192) = headerWords s k)

/-- Every chunk of a checkpoint as it stands passes its tag. -/
def chunksPass (s : State) (k : Checkpoint) (l : List Nat) : Bool :=
  ((chunksOf k).zipIdx).all (fun p => match l[p.2]? with
    | some pa => decide (memWords s.mem pa 8192 = sealChunk k p.2 p.1)
    | none => false)

/-- The checkpoint whose header stands in the last frames of a list, if its signature verifies, whichever the device signed (R442; DESIGN CHOICE,
log 10): of several with one header that whose chunks stand there too. -/
def headerFound (s : State) (l : List Nat) : Option Checkpoint :=
  let ks := s.pkg.security.checkpoints.filter (headerStands s l)
  (ks.find? (fun k => chunksPass s k l)).or ks.head?

/-- The policy of a world matches the device as it is measured now (R442). -/
def policyMet (s : State) (w : BitVec 6) : Bool :=
  decide ((worldOf s w).policy = Config.sha384 144 ((firmwareDigest s).toNat + (configDigest s).toNat * 2 ^ 384 + (loftDigest s w.toNat).toNat * 2 ^ 768))

/-- A page-table entry of a restored table: a frame of the world has its new place. -/
def movedEntry (m : List (Nat × Nat)) (e : Word64) : Word64 :=
  let pa := bitsOf e.toNat 14 38 * 2 ^ 14
  match assoc m (pa / frameBytes * frameBytes) with
  | some tgt => if e.getLsbD 0 then BitVec.ofNat 64 (setBits e.toNat 14 38 ((tgt + pa % frameBytes) / 2 ^ 14)) else e
  | none => e

/-- The places that the frames of each large leaf of a checkpoint take: the first run of targets that is aligned and as long as the leaf (R442;
DESIGN CHOICE, log 26). -/
def placeRuns (k : Checkpoint) : List (BitVec 12 × Nat × Nat × Word64) → List Nat → List (Nat × Nat) → Option (List Nat × List (Nat × Nat))
  | [], targets, m => some (targets, m)
  | l :: rest, targets, m =>
    let fs := leafFrames l.2.2.2 l.2.2.1
    if fs.length = 1 || (assoc m (fs.headD 0)).isSome || !(k.frames.map Prod.fst).contains (fs.headD 0) then placeRuns k rest targets m
    else
      match targets.find? (fun t => t % (fs.length * frameBytes) == 0 && (framesFrom t fs.length).all (fun x => targets.contains x)) with
      | some t => placeRuns k rest (targets.filter (fun x => decide (x < t) || decide (t + fs.length * frameBytes ≤ x))) (m ++ fs.zip (framesFrom t fs.length))
      | none => none

/-- The new place of every frame of a checkpoint, or none where the targets do not suffice (R442). -/
def placeFrames (k : Checkpoint) (targets : List Nat) : Option (List (Nat × Nat)) :=
  match placeRuns k k.maps targets [] with
  | none => none
  | some (left, m) =>
    let others := (k.frames.map Prod.fst).filter (fun f => (assoc m f).isNone)
    if left.length < others.length then none else some (m ++ others.zip left)

/-- The pages of a world that the leaves of its address spaces put under the tier engines (R409). -/
def tierEnter (s : State) (w : BitVec 6) (spaces : List (BitVec 12 × Nat)) : State :=
  (spaceLeaves s spaces).foldl (fun s l => tierMap s l.2.2.2.1 w (l.1.extractLsb 11 10) l.2.2.2.2) s

/-- PTROOT in a queue table entry of the world follows its table to a new frame (R373, R442). -/
def followRoot (s : State) (w : BitVec 6) (space : BitVec 12) (root tgt : Nat) : State :=
  let d := space.extractLsb 11 10
  let n := space.extractLsb 9 0
  let qe := tableEntry s d n
  if bitsOf qe 128 6 = w.toNat ∧ bitsOf qe 64 52 = root then
    s.store ((s.pkg.yards.get d).qtBase.toNat + 64 * n.toNat + 8) 8 (setBits (bitsOf qe 64 64) 0 52 tgt)
  else s

/-- The frames and tables of a world rebuilt in fresh frames, PTROOT of its address spaces following its table in the queue tables and in
the enabled queues, and its tier-managed pages back in their directories (R442). After a calm no table has its entries, and the driver writes
them anew (R449; DEDUCED, log 45). -/
def restoreWorld (s : State) (k : Checkpoint) (m : List (Nat × Nat)) : State :=
  let s1 := k.frames.foldl (fun s f =>
    match assoc m f.1 with
    | none => s
    | some home =>
      let ws := if bitsOf f.2.1 8 3 = 2 then f.2.2.map (movedEntry m) else f.2.2
      ({ s with mem := memPutRange s.mem home ws, bad := badAfterWrite s.bad home frameBytes } : State).store (entryOf home) 4 f.2.1) s
  let s2 : State := { s1 with mem := memPutRange s1.mem (handlePa k.world 0) k.handles }
  let follow := fun (x : Queue) =>
    match assoc m (bitsOf x.entry.toNat 64 52) with
    | some tgt => if x.world = k.world then { x with entry := BitVec.ofNat 512 (setBits x.entry.toNat 64 52 tgt) } else x
    | none => x
  let roots := k.spaces.filterMap (fun p => (assoc m p.2).map (fun tgt => (p.1, p.2, tgt)))
  let s3 := roots.foldl (fun s p => followRoot s k.world p.1 p.2.1 p.2.2) s2
  tierEnter (s3.withPkg { s3.pkg with yards := s3.pkg.yards.map (fun y => { y with queues := y.queues.map follow }) }) k.world
    (roots.map (fun p => (p.1, p.2.2)))

/-- IMPORT (R442): the checks, then KEYING; once the shares have rebuilt K, the chunks are checked and the world is rebuilt, or goes
back to EXPORTED. After a calm, a checkpoint of a world made again by WCREATE under its policy is accepted (R449), and the record has the EXPCNT
that followed it (DEDUCED, log 45). -/
def execImportWorld (c : SecCmd) (s : State) : Out :=
  .next (onLane s opImport c (fun s x =>
    let w := secWorld c
    let r := worldOf s w
    let l := frameList s (secWord c 3) (secWord c 4)
    let found := headerFound s l
    let fits := fun (k : Checkpoint) => k.world == w && (if k.calmed && r.state == .keying then k.policy == r.policy else k.expCnt == r.expCnt - 1)
    let afresh := decide (r.state = .keying) && (match found with | some k => k.calmed | none => false)
    if x.phase = 0 then
      if w = 0 then secDone s x stRefused 1 []
      else
        checked s x stRefused [decide (r.state = .exported) || afresh, found.isSome, (match found with | some k => fits k | none => false), policyMet s w]
          (fun s => setHead (updWorld s w (fun r => { r with state := .keying, arrived := if afresh then r.arrived else 0
                                                             shares := if afresh then r.shares else [] })) x (fun y => { y with phase := 1 }))
    else
      match r.key, found with
      | none, _ => s
      | some _, none => secDone (updWorld s w (fun r => { r.unloaded with state := .exported, arrived := 0 })) x stFailed 0 []
      | some root, some k =>
        let targets := ((frameList s (secWord c 5) (secWord c 6)).filter (fun pa => pa % frameBytes == 0 && isLpddr pa && (frameKind s pa).1 == 0)).eraseDups
        let back := fun (st : Nat) => secDone (updWorld s w (fun r => { r.unloaded with state := .exported, arrived := 0 })) x st 0 []
        if !chunksPass s k l || decide (sealKey root w k.expCnt ≠ k.sealKey) then back stFailed
        else
          match placeFrames k targets with
          | none => back stNoSpace
          | some m =>
            secDone (updWorld (restoreWorld s k m) w (fun r => { r with state := .live, quarantined := k.quarantined, expCnt := k.expCnt + 1 })) x
              stOk 0 [BitVec.ofNat 64 (checkpointFrames k * frameBytes)]))

end Sys2Proof.Machine
end

