-- ==== Sys2Proof/Machine/Power.lean ====
section
/-! DEFINITION. The time base (R36), the power states (R13, R423, R448, R449, R457), the loss of supply, and the accesses of the hub
(R367, R368, R427). -/

namespace Sys2Proof.Machine

open Sys2Proof

/-- Power management changed. -/
def updPower (s : State) (f : Power → Power) : State := s.withPkg { s.pkg with power := f s.pkg.power }

/-- The package enters a power state now. -/
def enterState (s : State) (p : PowerState) : State := updPower s (fun w => { w with state := p, changed := s.time })

/-! ## Breeze (R457) -/

/-- A ring has nothing that is not yet accepted: the queues of every yard and the command ring (R457). -/
def ringsEmpty (s : State) : Bool :=
  s.load 0 8 == s.load 0x40 8 && [0#2, 1#2, 2#2, 3#2].all (fun d => (s.pkg.yards.get d).queues.all (fun x =>
    !x.enabled || (match yardRead s d x.num x.ring 8 with | some w => w == x.accIdx.toNat | none => true)))

/-- No launch is READY or RUNNING (R457). -/
def noWork (s : State) : Bool := s.pkg.launches.all (fun l => l.state != .ready && l.state != .running)

/-- The package is idle as R457 says. -/
def packageIdle (s : State) : Bool := noWork s && ringsEmpty s

/-- The idle ticks before breeze (R457). -/
def breezeTicks : Nat := 250000

/-- TIME_TICK: results due in this cycle are written, then TIME and the core's cycle count go on by one (R22, R36; DESIGN CHOICE, log 8). The time
since when the package has been idle is kept with it (R457). -/
def execTimeTick (s : State) : Out :=
  let s1 := retireTick s
  let idle := packageIdle s1
  let w := s1.pkg.power
  .next { s1 with
    core := { s1.core with cycle := s1.core.cycle + 1 }
    pkg := { s1.pkg with
      time := s1.pkg.time + 1
      power := { w with idleSince := if idle then w.idleSince else s1.pkg.time + 1 } } }

/-- Breeze is due (R457). -/
def breezeDue (s : State) : Bool :=
  decide (s.pkg.power.state = .active) && !s.pkg.power.toLull && packageIdle s && decide (breezeTicks ≤ (s.time - s.pkg.power.idleSince).toNat)

/-- BREEZE_ENTRY (R457). -/
def execBreezeEntry (s : State) : Out := .next (if breezeDue s then enterState s .breeze else s)

/-- What wakes the package from breeze by itself: a ring or a launch with work, a launch whose signals let it go on (R457). -/
def wakeDue (s : State) : Bool :=
  decide (s.pkg.power.state = .breeze) && (!packageIdle s || s.pkg.launches.any (fun l => (depStep s l.lid).isSome))

/-- BREEZE_WAKE (R457): also for a management request. -/
def execBreezeWake (s : State) : Out := .next (leaveBreeze s)

/-- PSTATE to active (R423). -/
def execPstateActive (c : SecCmd) (s : State) : Out :=
  .next (onLane s opPstate c (fun s x =>
    if secWord c 2 % 4 ≠ 0 then s else secDone (updPower (enterState s .active) (fun w => { w with idleSince := s.time })) x stOk 0 []))

/-- PSTATE to breeze (R423, R457): clock-gated at once when no launch is READY or RUNNING (DEDUCED, log 46). -/
def execPstateBreeze (c : SecCmd) (s : State) : Out :=
  .next (onLane s opPstate c (fun s x =>
    if secWord c 2 % 4 ≠ 1 then s else secDone (if noWork s then enterState s .breeze else s) x stOk 0 []))

/-! ## Lull (R448) -/

/-- The running groups of the package. -/
def runningGroups (s : State) : List (BitVec 14 × Nat) :=
  s.pkg.launches.flatMap (fun l => (l.groups.filter (fun g => decide (g.state = .running))).map (fun g => (l.lid, g.num)))

/-- A group that can be halted on the way to lull: past its dispatch and with room for its images (R440, R448). -/
def lullHalt (s : State) : Option State :=
  firstSome (fun (p : BitVec 14 × Nat) =>
    match launchOf s p.1 with
    | some l =>
      if groupStaging s p.1 p.2 || !saveRoom s (l.world s) p.1 p.2 then none else some (haltGroup s p.1 p.2)
    | none => none) (runningGroups s)

/-- Groups without room for their images, reported once for each dispatch (R440). -/
def lullShortage (s : State) : State :=
  s.pkg.launches.foldl (fun s l =>
    (l.groups.filter (fun g => decide (g.state = .running) && !g.short)).foldl (fun s g =>
      if saveRoom s (l.world s) l.lid g.num then s else reportShort s l g.num) s) s

/-- Nothing runs on any core and no engine holds a bank (R448). -/
def lullReady (s : State) : Bool :=
  decide (s.core.run = .idle) && s.pkg.peers.all (fun p => !p.placed) && (runningGroups s).isEmpty && s.pkg.loft.held.isEmpty

/-- What the power-off of the compute dies leaves of the core (R13): nothing. -/
def coreOff (s : State) : State :=
  { s with core := { Core.reset with coreId := s.core.coreId, cycle := s.core.cycle }, mem := cellClear s.mem (ownKey 0) (2 ^ 60) }

/-- Entry to lull: pages and lines written back, caches and core lost, scrambler keys discarded (R13, R448). -/
def enterLull (s : State) : State :=
  let s1 := coreOff (evictAll s)
  let s2 := s1.withPkg { s1.pkg with l2 := [], security := { s1.pkg.security with scramblers := [] } }
  updPower (enterState s2 .lull) (fun w => { w with toLull := false })

/-- What the package does on its way to lull (DEDUCED, log 46). -/
def lullStep (s : State) : Option State :=
  if !s.pkg.power.toLull then none
  else match lullHalt s with
    | some s1 => some s1
    | none => if lullReady s then some (enterLull s) else none

/-- PSTATE to lull (R448): the way to lull begins, and the command completes as lull is entered. -/
def execPstateLull (c : SecCmd) (s : State) : Out :=
  .next (onLane s opPstate c (fun s x =>
    if secWord c 2 % 4 ≠ 2 then s
    else if x.phase = 0 then updPower (setHead (lullShortage s) x (fun y => { y with phase := 1 })) (fun w => { w with toLull := true })
    else match lullStep s with
      | some s1 => if s1.pkg.power.state = .lull then secDone s1 x stOk 0 [] else s1
      | none => s))

/-- LULL_WAKE (R448): new scrambler keys, WAKECNT counted, heartbeats from now; lanes and groups go on by themselves. -/
def execLullWake (s : State) : Out :=
  .next (
    if s.pkg.power.state = .lull then
      let s1 := updPower (enterState s .active) (fun w => { w with wakeCnt := w.wakeCnt + 1, idleSince := s.time })
      let s2 : State := { s1 with freeCtr := s.freeCtr + 1 }
      updSec s2 (fun z => { z with draws := z.draws + 1, scramblers := drawScramblers s.freeCtr
                                   sessions := z.sessions.map (fun x => { x with beat := s.time }) })
    else s)

/-! ## Calm and the loss of supply (R13, R449, R456) -/

/-- The machine with nothing but what the loft keeps: its cells, ownership, roots, wear and repair, the repair map of the farrier
engines and the device configuration (R13, R430, R461, R464); the key store is cleared, slot 0 with it (R449).
What the management port has sent stands, and a boot failure stays in the log until firmware can report it (R444) (DEDUCED, log 46). -/
def offState (s : State) (supply : Bool) : State :=
  let l := s.pkg.loft
  let z := s.pkg.security
  { State.reset with
    core := { Core.reset with coreId := s.core.coreId }
    pkg := { Package.reset with
      time := s.time
      power := { Power.reset with state := .calm, changed := s.time, supply := supply, boot := .cold, capw := s.pkg.config.capw }
      loft := { l with held := [], lanes := Loft.reset.lanes, refresh := Loft.reset.refresh }
      farrier := { s.pkg.farrier with claimed := [], waiting := [], weak := [], stuck := [], refreshed := 0 }
      config := s.pkg.config
      security := { Security.reset with
        draws := z.draws
        scramblers := []
        worlds := worldsReset.set 0 World.zero.unloaded
        answers := z.answers
        log := z.log.filter (fun e => decide (e = .bootFailure))
        measured := false
        checkpoints := z.checkpoints.map (fun k => { k with calmed := true }) } }
    mem := s.mem.filter (fun c => decide (loftKey 0 ≤ c.1))
    bad := s.bad.filter (fun u => decide (loftKey 0 ≤ u.1))
    inputs := s.inputs
    nextId := s.nextId
    freeCtr := s.freeCtr }

/-- PSTATE to calm (R449): refused while a protected world is KEYING, LIVE, REVOKING or KEYLESS; its answer is lost with memory. -/
def execPstateCalm (c : SecCmd) (s : State) : Out :=
  .next (onLane s opPstate c (fun s x =>
    if secWord c 2 % 4 ≠ 3 then s
    else checked s x stRefused
      [(upTo 63).all (fun i => match (worldOf s (BitVec.ofNat 6 (i + 1))).state with | .free => true | .erased => true | .exported => true | _ => false)]
      (fun s => offState s true)))

/-- SUPPLY_LOSS (R13). -/
def execSupplyLoss (s : State) : Out := .next (offState s false)

/-- THERMAL_125 (R456): supply is removed, without the checks of R449. -/
def execThermal125 (s : State) : Out := .next (offState s false)

/-- THERMAL_115 (R456): the package goes to lull; each such event takes the way one step further. -/
def execThermal115 (s : State) : Out :=
  .next (
    if s.pkg.power.state = .lull ∨ s.pkg.power.state = .calm then s
    else if s.pkg.power.toLull then (lullStep s).getD s
    else updPower (lullShortage s) (fun w => { w with toLull := true }))

/-- THERMAL_105 (R456): the floor islands of the die run at 0.8 GHz at once. -/
def execThermal105 (die : BitVec 2) (s : State) : Out :=
  .next (updPower s (fun w => { w with
    islands := Vector.ofFn (fun (i : Fin 24) => if i.val / 5 = die.toNat ∧ i.val % 5 < 4 ∧ i.val < 20 then { w.islands[i.val] with now := 8, thermal := true } else w.islands[i.val]) }))

/-! ## Hub accesses (R367, R368, R370, R427) -/

/-- A hub access to this PA is refused at the memory controller (R427) (DESIGN CHOICE, log 19). -/
def hubBarred (s : State) (pa : Nat) : Bool :=
  (decide (0x20000 ≤ pa) && decide (pa < 2 ^ 30)) || (decide (2 ^ 30 ≤ pa) && (frameKind s pa).2 != 0 && (frameKind s pa).1 != 0)

/-- The answer to a hub read. -/
def hubAnswer (s : State) (v : Option Word64) : State := s.withPkg { s.pkg with hubReply := v }

/-- The state that a meaning leaves. -/
def stateAfter (o : Out) (s : State) : State :=
  match o with
  | .next t => t
  | _ => s

/-- A command written to YCMD (R372) runs at once; an OP that is no command sets ERR. -/
def yardCommand (s : State) (d : BitVec 2) (v : Word64) : State :=
  match cmdOp v with
  | 1 => stateAfter (execQenable d v s) s
  | 2 => stateAfter (execQdisable d v s) s
  | 3 => stateAfter (execLresume d v s) s
  | 4 => stateAfter (execLabort d v s) s
  | _ => cmdErr s d 1

/-- A hub access to the yard window of a die: registers by 8-byte accesses only; other accesses read zero and are ignored. -/
def hubYard (s : State) (a : HubAccess) : State :=
  let off := (a.pa.toNat - yardBase) % 0x8000000
  let d := BitVec.ofNat 2 ((a.pa.toNat - yardBase) / 0x8000000)
  let whole := decide (a.logSize = 3) && a.pa.toNat % 8 == 0
  match a.op with
  | .read => hubAnswer s (some (if whole then yardReg s d off else 0))
  | .amo _ _ _ => hubAnswer s (some 0)
  | .write v =>
    if !whole then s
    else if 0x4000000 ≤ off then
      (if off % 0x10000 = 0 then stateAfter (execNotify d (BitVec.ofNat 10 ((off - 0x4000000) / 0x10000)) s) s else s)
    else if off = 8 then yardCommand s d v
    else stateAfter (execYardRegisterWrite d (BitVec.ofNat 27 off) v s) s

/-- A hub access to LPDDR-6. -/
def hubMemory (s : State) (a : HubAccess) : State :=
  let pa := a.pa.toNat
  let n := 2 ^ a.logSize.toNat
  if hubBarred s pa then
    let s1 := logSecurity s (.hubRefusal a.pa)
    match a.op with
    | .write _ => s1
    | _ => hubAnswer s1 (some (BitVec.ofNat 64 (2 ^ (8 * n) - 1)))
  else
    let old := s.load pa n
    let failed := (readFails s pa n).isSome
    match a.op with
    | .read => hubAnswer (touch s pa 0 0 false) (if failed then none else some (BitVec.ofNat 64 old))
    | .write v => partyWrite s 0 pa n v.toNat 0
    | .amo op v expected =>
      if failed then hubAnswer s none
      else
        match amoNew op (8 * n) old (v.toNat % 2 ^ (8 * n)) (expected.toNat % 2 ^ (8 * n)) with
        | some new => hubAnswer (partyWrite s 0 pa n new 0) (some (BitVec.ofNat 64 old))
        | none => hubAnswer (touch s pa 0 0 false) (some (BitVec.ofNat 64 old))

/-- The command area of the reserve: the ring's header and its slots (R422, R427). -/
def commandArea (pa : Nat) : Bool := decide (pa < 0x20000)

/-- HUB_MEMORY_ACCESS (R367, R368, R427): an address outside the map, or one that is not aligned, faults on the hub and does nothing
here; so does any access while the compute dies are off, but in lull the command area still takes accesses, since a command that arrives
then is accepted (R448; DEDUCED, log 46). -/
def execHubMemoryAccess (acc : HubAccess) (s : State) : Out :=
  let pa := acc.pa.toNat
  .next (
    if s.pkg.power.state = .lull ∧ commandArea pa ∧ pa % 2 ^ acc.logSize.toNat = 0 then
      let s1 := hubMemory s acc
      s1.withPkg { s1.pkg with l2 := [] }
    else if !(s.pkg.power.state == .active || s.pkg.power.state == .breeze) then s
    else if isYard pa then hubYard s acc
    else if isLpddr pa ∧ pa % 2 ^ acc.logSize.toNat = 0 then hubMemory s acc
    else hubAnswer s none)

end Sys2Proof.Machine
end

