-- ==== Sys2Proof/Machine/Attest.lean ====
section
/-! DEFINITION. Identity and boot (R443, R444), attestation over SPDM (R446, R447) and the shares of custodians (R438). -/

namespace Sys2Proof.Machine

open Sys2Proof

/-! ## Boot (R444) -/

/-- The last key of a chain of certificates, each key signed by the one before it. -/
def chainEnd : BitVec 384 → List (BitVec 384 × BitVec 768) → Option (BitVec 384)
  | k, [] => some k
  | k, (next, sig) :: rest => if Config.ecdsaVerify k (Config.sha384 48 next.toNat) sig then chainEnd next rest else none

/-- The key of the signing certificate, if its chain begins at the root key whose digest the ROM holds (R444). -/
def signerKey (i : BootImage) : Option (BitVec 384) :=
  match i.chain with
  | [] => none
  | (root, _) :: rest => if Config.sha384 48 root.toNat = Config.rootDigest then chainEnd root rest else none

/-- The digest of an image: its security version, then its bytes (R444, R445). -/
def imageDigest (i : BootImage) : BitVec 384 := Config.sha384 (8 + i.size) (i.version.toNat + i.body % 2 ^ (8 * i.size) * 2 ^ 64)

/-- An image that the boot ROM accepts (R444): its signature verifies under a certificate that chains to the root, and it is not too old. -/
def imageAccepted (i : BootImage) : Bool :=
  i.arrived && decide (Config.minVersion.toNat ≤ i.version.toNat) &&
    (match signerKey i with
     | some k => Config.ecdsaVerify k (imageDigest i) i.signature
     | none => false)

/-- The segments that are owned. -/
def allOwned (s : State) : List Nat := (s.pkg.loft.owner.map Prod.fst).filter (fun seg => segState s seg == 1)

/-- Firmware runs: the tier engines, the cap and the ports take the configuration, and every owned segment is measured (R408, R444, R464). -/
def boot (s : State) (i : BootImage) (fromLoft : Bool) : State :=
  let f := s.pkg.config
  let s1 := s.withPkg { s.pkg with
    tiers := Vector.ofFn (fun n => { TierEngine.reset with
      ctl := f.tierCtl.get (BitVec.ofNat 2 n.val), thr := f.tierThr.get (BitVec.ofNat 2 n.val), ways := tierHotWays (f.tierCtl.get (BitVec.ofNat 2 n.val)) })
    power := { s.pkg.power with boot := .running, state := .active, changed := s.time, capw := f.capw, idleSince := s.time }
    ports := Vector.ofFn (fun (n : Fin 18) => { s.pkg.ports[n.val] with en := f.portEn.getLsbD n.val }) }
  let s2 := updSec s1 (fun z => { z with fwDigest := imageDigest i, fwVersion := i.version.toNat, fwFromLoft := fromLoft })
  updSec ((allOwned s2).foldl measureSeg s2) (fun z => { z with measured := true })

/-- COLD_START (R36, R435, R444): TIME 0, the loft's contents alone, new scrambler keys, and the image from the network if one came that is
acceptable; else the ROM waits for one. -/
def execColdStart (image : BootImage) (s : State) : Out :=
  let s0 := offState s true
  let z := s0.pkg.security
  let s1 : State := { s0 with
    pkg := { s0.pkg with
      time := 0
      bootTimer := 0
      power := { s0.pkg.power with state := .active, changed := 0 }
      security := { z with draws := z.draws + 1, scramblers := drawScramblers s0.freeCtr, worlds := z.worlds.set 0 World.zero } }
    freeCtr := s0.freeCtr + 1 }
  .next (if imageAccepted image then boot s1 image false else s1)

/-- The ticks that the ROM waits for an image: 60 s (R444). -/
def bootWait : Nat := 150000000000

/-- The ROM has no image yet and waits for one (R444). -/
def bootWaits (s : State) : Bool := decide (s.pkg.power.boot = .cold) && s.pkg.power.supply && decide (s.pkg.power.state ≠ .calm)

/-- An answer sent on the management port. -/
def answer (s : State) (message : String) (sess : Nat) (values : List (BitVec 384)) (sig : Option (BitVec 768)) : State :=
  updSec s (fun z => { z with answers := z.answers ++ [{ message := message, session := sess, values := values, signature := sig }] })

/-- The report of a failed boot (R444). -/
def reportBoot (s : State) : State := answer s "BOOT FAILURE" 0 [] none

/-- BOOT_FETCH_TIMEOUT (R444): an acceptable image that arrives within 60 s ends the wait; after 60 s the copy in the loft reserved region is
tried, and without an acceptable one the device stays halted and reports it. -/
def execBootFetchTimeout (image : BootImage) (s : State) : Out :=
  .next (
    if !bootWaits s then s
    else if (s.time - s.pkg.bootTimer).toNat < bootWait then (if imageAccepted image then boot s image false else s)
    else
      match s.pkg.loft.firmware.filter imageAccepted with
      | some i => boot s i true
      | none => reportBoot (logSecurity (updPower s (fun w => { w with boot := .failed })) .bootFailure))

/-! ## SPDM (R446, R447) -/

/-- The management port answers (R464). -/
def portUp (s : State) : Bool := s.pkg.power.supply && decide (s.pkg.power.boot = .running) && decide (s.pkg.power.state ≠ .calm)

/-- A management request: it wakes the package from breeze (R457), and a device that could not boot answers that (R444). -/
def request (s : State) (f : State → State) : State :=
  if portUp s then f (leaveBreeze s)
  else if s.pkg.power.supply && decide (s.pkg.power.boot = .failed) then reportBoot s
  else s

/-- A signature by the alias key over a nonce and values (R447). -/
def aliasSign (s : State) (nonce : Nat) (values : List (BitVec 384)) : BitVec 768 :=
  Config.ecdsa (aliasKey s) (Config.sha384 (32 + 48 * values.length) (nonce + packBits 384 (values.map BitVec.toNat) * 2 ^ 256))

/-- The identity key (R443). -/
def identityKey : BitVec 384 := Config.sha384 48 Config.pufSeed.toNat

/-- The signature of the alias certificate by the identity key (R443). -/
def aliasCert (s : State) : BitVec 768 := Config.ecdsa identityKey (Config.sha384 48 (Config.publicKey (aliasKey s)).toNat)

/-- The two halves of a signature, the lower first. -/
def sigHalves (x : BitVec 768) : List (BitVec 384) := [x.truncate 384, x.extractLsb' 384 384]

/-- The chain of slot 0 (R443): the key of the Welousil root, the identity key with Welousil's certification of it, and the alias key with
that of the identity key. -/
def certChain (s : State) : List (BitVec 384) :=
  [Config.rootPublic, Config.publicKey identityKey] ++ sigHalves Config.identityCert ++ [Config.publicKey (aliasKey s)] ++ sigHalves (aliasCert s)

/-- The digest of the chain. -/
def chainDigest (s : State) : BitVec 384 := Config.sha384 336 (packBits 384 ((certChain s).map BitVec.toNat))

/-- GET_VERSION (R446). -/
def execGetVersion (sess : Nat) (s : State) : Out := .next (request s (fun s => answer s "VERSION 1.3" sess [] none))

/-- GET_CAPABILITIES (R446). -/
def execGetCapabilities (sess : Nat) (s : State) : Out :=
  .next (request s (fun s => answer s "CAPABILITIES CERT CHAL MEAS KEY_EX MUT_AUTH HBEAT KEY_UPD" sess [] none))

/-- NEGOTIATE_ALGORITHMS (R446). -/
def execNegotiateAlgorithms (sess : Nat) (s : State) : Out :=
  .next (request s (fun s => answer s "ALGORITHMS ECDSA-P384 SHA-384 secp384r1 AES-256-GCM" sess [] none))

/-- GET_DIGESTS (R446). -/
def execGetDigests (sess : Nat) (s : State) : Out := .next (request s (fun s => answer s "DIGESTS" sess [chainDigest s] none))

/-- GET_CERTIFICATE (R443). -/
def execGetCertificate (sess : Nat) (s : State) : Out :=
  .next (request s (fun s => answer s "CERTIFICATE" sess (certChain s) (some (aliasCert s))))

/-- CHALLENGE (R446). -/
def execChallenge (sess : Nat) (nonce : BitVec 256) (s : State) : Out :=
  .next (request s (fun s => answer s "CHALLENGE_AUTH" sess [chainDigest s] (some (aliasSign s nonce.toNat [chainDigest s]))))

/-- The session of a number. -/
def sessionOf (s : State) (n : Nat) : Option Session := s.pkg.security.sessions.find? (fun x => x.id == n)

/-- Block 0x10 in the first measurements that a session is sent after a wake from lull, where they are not of that block alone (R448). -/
def wakeBlock (s : State) (sess : Nat) (index : BitVec 8) : List (BitVec 384) :=
  match sessionOf s sess with
  | some x => if x.wakeSeen ≠ s.pkg.power.wakeCnt ∧ index ≠ 0x10 then [BitVec.ofNat 384 s.pkg.power.wakeCnt] else []
  | none => []

/-- GET_MEASUREMENTS (R445, R447, R448): one block, signed over the requester's nonce, and WAKECNT with it where it is owed. -/
def execGetMeasurements (sess : Nat) (nonce : BitVec 256) (index : BitVec 8) (s : State) : Out :=
  .next (request s (fun s =>
    match measureBlock s index.toNat with
    | some b =>
      let v := b ++ wakeBlock s sess index
      let s1 := updSec s (fun z => { z with sessions := updFirst (fun x => x.id == sess) (fun x => { x with wakeSeen := s.pkg.power.wakeCnt }) z.sessions })
      answer s1 "MEASUREMENTS" sess v (some (aliasSign s nonce.toNat v))
    | none => answer s "ERROR InvalidRequest" sess [] none))

/-- The sessions at one time (R446). -/
def maxSessions : Nat := 64

/-- KEY_EXCHANGE (R446): a session of the requester whose certificate has the given digest; a 65th is refused. -/
def execKeyExchange (req : BitVec 384) (s : State) : Out :=
  .next (request s (fun s =>
    let z := s.pkg.security
    if maxSessions ≤ z.sessions.length then answer s "ERROR SessionLimitExceeded" 0 [] none
    else
      let n := z.nextSession + 1
      let x : Session := { id := n, requester := req, secured := false, beat := s.time, keyGen := 0, wakeSeen := 0 }
      answer (updSec s (fun z => { z with sessions := z.sessions ++ [x], nextSession := n })) "KEY_EXCHANGE_RSP HeartbeatPeriod 30" n
        [chainDigest s] (some (aliasSign s n [chainDigest s]))))

/-- A session changed, and the answer; without it an error. -/
def inSession (s : State) (n : Nat) (message : String) (f : Session → Session) : State :=
  request s (fun s =>
    if (sessionOf s n).isSome then
      answer (updSec s (fun z => { z with sessions := updFirst (fun x => x.id == n) f z.sessions })) message n [] none
    else answer s "ERROR InvalidSession" n [] none)

/-- FINISH (R446): the session is secured, both sides authenticated. -/
def execFinish (sess : Nat) (s : State) : Out :=
  .next (inSession s sess "FINISH_RSP" (fun x => { x with secured := true, beat := s.time }))

/-- HEARTBEAT (R446). -/
def execHeartbeat (sess : Nat) (s : State) : Out := .next (inSession s sess "HEARTBEAT_ACK" (fun x => { x with beat := s.time }))

/-- KEY_UPDATE (R446). -/
def execKeyUpdate (sess : Nat) (s : State) : Out := .next (inSession s sess "KEY_UPDATE_ACK" (fun x => { x with keyGen := x.keyGen + 1 }))

/-- A session ends. -/
def endSession (s : State) (n : Nat) : State := updSec s (fun z => { z with sessions := z.sessions.filter (fun x => x.id != n) })

/-- END_SESSION (R446). -/
def execEndSession (sess : Nat) (s : State) : Out :=
  .next (request s (fun s =>
    if (sessionOf s sess).isSome then endSession (answer s "END_SESSION_ACK" sess [] none) sess else answer s "ERROR InvalidSession" sess [] none))

/-- The heartbeat period: 30 s (R446). -/
def heartbeatTicks : Nat := 75000000000

/-- HEARTBEAT_TIMEOUT (R446): a session whose requester has missed its period ends, but not during lull (R448). -/
def execHeartbeatTimeout (sess : Nat) (s : State) : Out :=
  .next (match sessionOf s sess with
    | some x => if s.pkg.power.state ≠ .lull ∧ heartbeatTicks ≤ (s.time - x.beat).toNat then endSession s sess else s
    | none => s)

/-! ## Shares (R437, R438) -/

/-- An IMPORT waits for the world's shares (R442). -/
def importWaits (s : State) (w : BitVec 6) : Bool := s.pkg.security.queue.any (fun y => y.op == opImport && y.phase == 1 && secWorld y.cmd == w)

/-- The XOR of shares. -/
def xorShares (l : List (BitVec 4 × BitVec 512)) : BitVec 512 := l.foldl (fun k p => k ^^^ p.2) 0

/-- A share taken: with the last one the root key is checked, the slot loaded and the shares discarded (R438); the world is LIVE unless
an IMPORT has still to rebuild it (R442). -/
def takeShare (s : State) (w : BitVec 6) (j : BitVec 4) (share : BitVec 512) : State :=
  let r := worldOf s w
  let shares := assocPut r.shares j share
  let arrived := r.arrived ||| BitVec.ofNat 16 (2 ^ j.toNat)
  if arrived.toNat = 2 ^ r.n.toNat - 1 then
    let k := xorShares shares
    if r.check.isSome ∧ r.check ≠ some (checkValue k) then updWorld s w (fun r => { r with shares := [], arrived := 0 })
    else
      updWorld s w (fun r => { r.loaded w k with shares := [], arrived := arrived, check := some (checkValue k)
                                                 state := if importWaits s w then .keying else .live })
  else updWorld s w (fun r => { r with shares := shares, arrived := arrived })

/-- VENDOR_DEFINED_REQUEST (R438): the share of custodian j of a world in KEYING, from a secured session whose requester is that
custodian; any other is refused. -/
def execVendorDefinedRequest (sess : Nat) (world : BitVec 6) (custodian : BitVec 4) (share : BitVec 512) (s : State) : Out :=
  .next (request s (fun s =>
    let r := worldOf s world
    match sessionOf s sess with
    | some x =>
      if x.secured && decide (r.state = .keying) && r.key.isNone && decide (custodian.toNat < r.n.toNat) && r.custodians[custodian.toNat]? == some x.requester then
        answer (takeShare s world custodian share) "VENDOR_DEFINED_RESPONSE" sess [] none
      else answer s "ERROR Refused" sess [] none
    | none => answer s "ERROR Refused" sess [] none))

end Sys2Proof.Machine
end

