-- ==== Sys2Proof/Machine/Fleet.lean ====
section
/-! DEFINITION. Power capping (R455), links (R392, R450 to R453), errors in memory (R458), the farrier engines (R459 to R462), the
management service and telemetry (R464, R465). -/

namespace Sys2Proof.Machine

open Sys2Proof

/-! ## The power cap (R454, R455) -/

/-- A cap that PCAP takes (R455). -/
def capOk (n : Nat) : Bool := decide (1000 ≤ n) && decide (n ≤ 4200)

/-- PCAP (R455). -/
def pcap (s : State) : Word64 :=
  let w := s.pkg.power
  BitVec.ofNat 64 (w.throt.toNat + w.capw.toNat * 2 ^ 16 + w.pkgw.toNat * 2 ^ 32)

/-- A core runs or is about to run a task. -/
def coreBusy (s : State) (c : Nat) : Bool :=
  (c == s.core.coreId.toNat && decide (s.core.run ≠ .idle)) || s.pkg.peers.any (fun p => p.placed && p.core.toNat == c)

/-- The cores of an island of a floor. -/
def islandCores (i : Nat) : List Nat := (upTo 128).map (fun k => i / 5 * 512 + k * 4 + i % 5)

/-- An island of a floor (R454). -/
def isFloor (i : Nat) : Bool := decide (i < 20) && decide (i % 5 < 4)

/-- The manager may change the clock of an island for the cap: the periphery, hub and link islands at any time, a floor while none
of its cores runs a task, the always-on island never (R454, R455). -/
def mayLower (s : State) (i : Nat) : Bool := if isFloor i then (islandCores i).all (fun c => !coreBusy s c) else i != 21

/-- The lowest clock, 0.8 GHz (R454). -/
def lowestClock : Nat := 8

/-- A die whose floors run low for its heat is still too hot: what its sensor says is a free value (R456; DESIGN CHOICE, log 3, 32). -/
def stillHot (s : State) (i : Nat) : Bool := decide (Config.pick s.freeCtr (2 ^ 53 + i / 5) 2 % 2 = 1)

/-- An island after a millisecond in which the power was or was not above the cap (R455, R456): on a die that is still too hot it stays at the
lowest clock; freed and still to be lowered, or above the cap, it goes down a step where it may; else it goes up one, to its set clock. -/
def Island.step (x : Island) (hot down free : Bool) : Island :=
  if x.thermal && hot then { x with now := lowestClock }
  else if !free then x
  else if down then (if lowestClock < x.now then { x with now := x.now - 1 } else x)
  else if x.now < x.set then { x with now := x.now + 1, thermal := x.thermal && decide (x.now + 1 < x.set) } else x

/-- POWER_CAP_STEP (R455): one millisecond with its average power (DEDUCED, log 32). An island that was to be lowered before anything is dispatched
there is lowered once it is free, whatever the power is by then. -/
def execPowerCapStep (pkgw : BitVec 13) (s : State) : Out :=
  let w := s.pkg.power
  let tooMuch := decide (w.capw.toNat < pkgw.toNat)
  let next : Vector Island 24 := Vector.ofFn (fun (i : Fin 24) =>
    (w.islands[i.val]).step (stillHot s i.val) (tooMuch || w.lowering.contains i.val) (mayLower s i.val))
  .next (State.drawn (updPower s (fun w => { w with
    pkgw := pkgw
    overMs := if tooMuch then w.overMs + 1 else 0
    islands := next
    lowering := w.lowering.filter (fun i => !mayLower s i)
    throt := next.toList.any (fun x => decide (x.now < x.set) && !x.thermal) })))

/-- The milliseconds over the cap before groups are pre-empted (R455). -/
def capPatience : Nat := 10

/-- The running groups with a core on an island. -/
def groupsOn (s : State) (i : Nat) : List (Launch × Group) :=
  s.pkg.launches.flatMap (fun l => (l.groups.filter (fun g => decide (g.state = .running) && (coresOf s l.lid g.num).any (fun c => islandOf c == i))).map (fun g => (l, g)))

/-- The island whose groups have the lowest PRIO at most, the lowest island first among equals (DEDUCED, log 32); a group on its way in
is let come in first. -/
def islandToFree (s : State) : Option Nat :=
  let cand := (upTo 20).filter (fun i => isFloor i && !(groupsOn s i).isEmpty && !s.pkg.power.lowering.contains i &&
    (groupsOn s i).all (fun p => !groupStaging s p.1.lid p.2.num))
  (sortBy (fun i => ((groupsOn s i).map (fun p => p.1.prio)).foldl Nat.max 0) cand).head?

/-- A group halted for the cap; one whose world has too few save frames runs on, and the log is told (R440, R455). -/
def capHalt (s : State) (p : Launch × Group) : State :=
  if saveRoom s (p.1.world s) p.1.lid p.2.num then haltGroup s p.1.lid p.2.num else if p.2.short then s else reportShort s p.1 p.2.num

/-- CAP_EXCESS_PREEMPT (R455): after 10 ms over the cap the groups on one island are halted, and it is lowered before anything is
dispatched there again. -/
def execCapExcessPreempt (s : State) : Out :=
  .next (
    if s.pkg.power.overMs < capPatience then s
    else match islandToFree s with
      | none => s
      | some i =>
        let s1 := (groupsOn s i).foldl capHalt s
        updPower s1 (fun w => { w with lowering := i :: w.lowering, overMs := 0 }))

/-! ## Links (R392, R450 to R453) -/

/-- A port that goes down (R451). -/
def Port.down (p : Port) : Port :=
  if p.up then { p with up := false, width := 0, degrade := p.degrade + 1, replaying := false, failures := 0, retraining := false, sent := [] } else p

/-- A port goes down, and the requests that its replay buffer holds move to another plane, under their numbers (R451, R453). -/
def portDown (s : State) (n : Nat) : State :=
  if h : n < 18 then
    let p := s.pkg.ports[n]
    let s1 := updPort s n Port.down
    match portFor s1 with
    | some m =>
      let s2 := updPort s1 n (fun q => { q with rerouted := q.rerouted + BitVec.ofNat 64 (if p.up then p.sent.length else 0) })
      if p.up then p.sent.foldl (fun s r => updPort s m (fun q => q.send r.2)) s2 else s2
    | none => s1
  else s

/-- The port status word (R452). -/
def portWord (p : Port) : Word64 :=
  BitVec.ofNat 64 (p.en.toNat + p.up.toNat * 2 + p.width.toNat * 4 + p.retrains.toNat * 2 ^ 16 + p.peer.toNat * 2 ^ 32)

/-- EN of a port written: 0 takes it down (R451, R452). -/
def portEnable (s : State) (n : Nat) (en : Bool) : State :=
  updPort (if en then s else portDown s n) n (fun p => { p with en := en })

/-- The replays in a row that a flit may fail before its port retrains (R451). -/
def maxReplays : Nat := 16

/-- A port that takes flits: trained, and not holding its traffic for a retraining (R451). -/
def Port.takes (p : Port) : Bool := p.up && !p.retraining

/-- The flit is the next one in order, whole: the port delivers it, once (R450). -/
def Port.delivers (p : Port) (f : Flit) : Bool := p.takes && f.good && f.num == p.nextRx

/-- A replay that the far end asks for, from a flit on: the flits of the replay buffer from there are sent again (R450, R453). -/
def Port.replay (p : Port) (n : Nat) : Port :=
  { p with replayFlits := p.replayFlits + BitVec.ofNat 64 (p.sent.filter (fun x => decide (n ≤ x.1))).length }

/-- A flit at a port that takes it (R450, R451, R453): the next one in order ends a replay, a good one out of order is not delivered; a bad one
asks for a replay, or fails the one under way, the sixteenth time in a row making the port retrain (DEDUCED, log 49). -/
def Port.flit (p : Port) (f : Flit) : Port :=
  if !p.takes then p
  else if !f.good then
    (if p.replaying then { p with crcErr := p.crcErr + 1, failures := p.failures + 1, retraining := decide (maxReplays ≤ p.failures + 1) }
     else { p with crcErr := p.crcErr + 1, replays := p.replays + 1, replaying := true })
  else
    let q := { p with flitsRx := p.flitsRx + 1 }
    let q1 := if p.delivers f then { q with nextRx := q.nextRx + 1, replaying := false, failures := 0 } else q
    match f.replayFrom with
    | some n => q1.replay n
    | none => q1

/-- A request of another device performed, once: one that has performed already is dropped (R451). What it may reach is what a hub access may
(R427; DESIGN CHOICE, log 57). -/
def linkPerform (s : State) (r : LinkReq) : State :=
  let pa := r.pa.toNat
  let n := 2 ^ r.logSize.toNat
  if s.pkg.linkSeen.contains (r.source, r.num) then s
  else
    let s1 := s.withPkg { s.pkg with linkSeen := (r.source, r.num) :: s.pkg.linkSeen }
    if isLpddr pa && pa % n == 0 && !hubBarred s1 pa then partyWrite s1 0 pa n r.val.toNat 0 else s1

/-- FLIT_RECEIVE (R450, R451). -/
def execFlitReceive (port : Nat) (flit : Flit) (s : State) : Out :=
  let s1 := updPort s port (fun p => p.flit flit)
  .next (
    if h : port < 18 then
      match flit.request with
      | some r => if (s.pkg.ports[port]).delivers flit then linkPerform s1 r else s1
      | none => s1
    else s)

/-- A port that has been trained, or could not be (R451, R453): trained it keeps its lanes, or comes up with eight, at its switch port;
untrained it falls to four lanes. Its retraining is a step of R451 of its own, and so is the fall (DEDUCED, log 49). -/
def Port.train (p : Port) (n : Nat) (trained : Bool) : Port :=
  let q : Port :=
    { p with retrains := if p.up then p.retrains + 1 else p.retrains, degrade := if p.up then p.degrade + 1 else p.degrade
             replaying := false, failures := 0, retraining := false }
  if trained then { q with up := true, width := if p.up then p.width else 2, peer := Config.switchPort n }
  else if p.width = 2 then { q with width := 1, degrade := q.degrade + 1 }
  else q

/-- PORT_RETRAIN (R451): on four lanes a training that fails takes the port down. -/
def execPortRetrain (port : Nat) (trained : Bool) (s : State) : Out :=
  .next (
    if h : port < 18 then
      let p := s.pkg.ports[port]
      let s1 := updPort s port (fun p => p.train port trained)
      if !p.en then s else if !trained && p.width != 2 then portDown s1 port else s1
    else s)

/-- PLANE_DOWN (R451). -/
def execPlaneDown (port : Nat) (s : State) : Out := .next (portDown s port)

/-- The retraining of a port that one flit failed sixteen replays in a row; whether it trains is a free value (R451; DESIGN CHOICE, log 3). -/
def retrainStep (s : State) : Option State :=
  (s.pkg.ports.toList.findIdx? Port.retraining).map (fun n =>
    match execPortRetrain n (decide (Config.pick s.freeCtr (2 ^ 54) 2 % 2 = 1)) s with
    | .next t => t.drawn
    | _ => s)

/-- D2D_RETRY_FAILURE (R392): the retry of the boundary before the die has failed, and the die beyond it goes out of service. -/
def execD2dRetryFailure (die : BitVec 2) (s : State) : Out :=
  let b : BitVec 3 := (die - 1).zeroExtend 3
  let x := s.pkg.d2d.get b
  .next (failDie (s.withPkg { s.pkg with d2d := s.pkg.d2d.set b { x with retry := x.retry + 1, up := false } }) die)

/-! ## Errors (R458) -/

/-- The counter of a structure of a die. -/
def errIndex (e : ErrStruct) (d : BitVec 2) : BitVec 4 :=
  (match e with | .sram => 0#2 | .cache => 1#2 | .lpddr => 2#2 | .loft => 3#2) ++ d

/-- A counter changed. -/
def updErr (s : State) (e : ErrStruct) (d : BitVec 2) (f : ErrCount → ErrCount) : State :=
  s.withPkg { s.pkg with errors := s.pkg.errors.set (errIndex e d) (f (s.pkg.errors.get (errIndex e d))) }

/-- The structure and die of a memory key, where it names storage of this package. -/
def keyHome (s : State) (k : Nat) : Option (ErrStruct × BitVec 2) :=
  if isLoft k then some (.loft, BitVec.ofNat 2 ((k - loftKey 0) / 2 ^ 37))
  else if decide (ownKey 0 ≤ k) && decide (k < loftKey 0) then some (.sram, dieOf s.core.coreId)
  else if !isLpddr k then none
  else if s.pkg.l2.any (fun l => l.line == k / 128) then some (.cache, BitVec.ofNat 2 (k / 2 ^ 40))
  else some (.lpddr, BitVec.ofNat 2 (k / 2 ^ 40))

/-- The memory key at which an error strikes; the line tags of LPDDR-6 are by line. -/
def softKey : SoftWhere → Option Nat
  | .mem k => some k
  | .lineTag l => some (l * 128)
  | .l2Tag l => some (l * 128)
  | _ => none

/-- The structure and die that an error strikes: a line tag belongs to the LPDDR-6 controllers, and only data and save frames of protected
worlds have one (R424, R436); the tags of L1 and L2 stand for the lines that those hold. -/
def hitHome (s : State) : SoftWhere → Option (ErrStruct × BitVec 2)
  | .mem k => keyHome s k
  | .lineTag l =>
    let (kind, owner) := frameKind s (l * 128)
    if isLpddr (l * 128) && (kind == 1 || kind == 3) && owner != 0 then some (.lpddr, BitVec.ofNat 2 (l / 2 ^ 33)) else none
  | .l1Tag l => if s.core.l1.any (fun x => x.line == l) then some (.cache, dieOf s.core.coreId) else none
  | .l2Tag l => if s.pkg.l2.any (fun x => x.line == l) then some (.cache, BitVec.ofNat 2 (l / 2 ^ 33)) else none
  | _ => some (.sram, dieOf s.core.coreId)

/-- An uncorrectable error counted and kept among the last 64 (R458). -/
def uncorrectable (s : State) (e : ErrStruct) (d : BitVec 2) (addr : Nat) : State :=
  let s1 := updErr s e d (fun x => { x with ue := x.ue + 1 })
  let l := s1.pkg.ueEvents ++ [(e, addr, s.time)]
  s1.withPkg { s1.pkg with ueEvents := l.drop (l.length - 64) }

/-- The poison of a value whose own storage fails (R226). -/
def storagePoison : Poison := { cause := causeDataUncorrectable, addr := 0, word := 0 }

/-- Element `i` of a list changed. -/
def updNth {α : Type} (i : Nat) (f : α → α) (l : List α) : List α := (l.zipIdx).map (fun p => if p.2 = i then f p.1 else p.1)

/-- The keys of the 64-bit units of a line. -/
def lineUnits (line : Nat) : List Nat := (upTo 16).map (fun i => line * 128 + 8 * i)

/-- A tag of L1 or L2, which has parity alone (R458). -/
def isCacheTag : SoftWhere → Bool
  | .l1Tag _ => true
  | .l2Tag _ => true
  | _ => false

/-- The tag that an error strikes belongs to a line that is clean: the line is fetched anew, and nothing is counted (R458). L1 holds no line that
is modified. -/
def cleanTag (s : State) : SoftWhere → Bool
  | .l1Tag _ => true
  | .l2Tag l => (s.pkg.l2.find? (fun x => x.line == l)).all (fun x => !x.dirty)
  | _ => false

/-- What an uncorrectable error leaves at its place (R226, R458): a failing tag leaves its line of 128 bytes failing with INTEGRITY (R436); a
cache drops a clean line whose tag is hit, and a modified one fails whole; storage of the core without a poison of its own is broken. -/
def strike (s : State) : SoftWhere → State
  | .lineTag l => { s with bad := (l * 128, causeIntegrity) :: s.bad }
  | .l1Tag l => l1Drop s l
  | .l2Tag l =>
    if cleanTag s (.l2Tag l) then s.withPkg { s.pkg with l2 := s.pkg.l2.eraseP (fun x => x.line == l) }
    else { s with bad := (lineUnits l).map (fun k => (k, causeDataUncorrectable)) ++ s.bad }
  | .mem k => { s with bad := (k / 8 * 8, if isLoft k then causeLoftRead else causeDataUncorrectable) :: s.bad }
  | .xReg q r =>
    let sq := s.seq q
    if r = 0 then s else s.withSeq q { sq with xPoison := sq.xPoison.set r (some storagePoison) }
  | .vLane r l => s.withTask { s.task with vPoison := assocPut s.task.vPoison (r, l) storagePoison }
  | .tLane r l => s.withTask { s.task with tPoison := assocPut s.task.tPoison (r, l) storagePoison }
  | .qEntry n i => s.withTask { s.task with q := s.task.q.set n (updNth i (fun e => { e with poison := some storagePoison }) (s.task.q.get n)) }
  | .oEntry n i => s.withTask { s.task with o := s.task.o.set n (updNth i (fun e => { e with poison := some storagePoison }) (s.task.o.get n)) }
  | w => s.withTask { s.task with broken := w :: s.task.broken.filter (fun x => decide (x ≠ w)) }

/-- SOFT_ERROR (R458): one that can be corrected is counted, in LPDDR-6 and L2 when the scrubber meets it (DEDUCED, log 33); one that cannot is
counted and marks its place; parity corrects no tag. -/
def execSoftError (hit : SoftHit) (s : State) : Out :=
  let addr := match softKey hit.place with
    | some k => if isLoft k then k - loftKey 0 else if ownKey 0 ≤ k then k - ownKey 0 else k
    | none => 0
  .next (
    match hitHome s hit.place with
    | none => s
    | some (e, d) =>
      if cleanTag s hit.place then strike s hit.place
      else if hit.correctable && !isCacheTag hit.place then
        match softKey hit.place, e with
        | some k, .lpddr => s.withPkg { s.pkg with latent := k / 128 :: s.pkg.latent }
        | some k, .cache => s.withPkg { s.pkg with latent := k / 128 :: s.pkg.latent }
        | _, _ => updErr s e d (fun x => { x with ce := x.ce + 1 })
      else strike (uncorrectable s e d addr) hit.place)

/-- The line after a line in the scrubber's round over the LPDDR-6 of the four dies. -/
def scrubNext (line : Nat) : Nat :=
  let d := line / 2 ^ 33
  if line % 2 ^ 33 + 1 < 384 * 2 ^ 23 then line + 1 else (d + 1) % 4 * 2 ^ 33

/-- PATROL_SCRUB (R458): one line read, in L2 where that holds it, else in LPDDR-6; what can be corrected is written back and counted, no value
changes. -/
def execPatrolScrub (s : State) : Out :=
  let line := s.pkg.scrubPos
  let s1 := s.withPkg { s.pkg with scrubPos := scrubNext line, latent := s.pkg.latent.filter (fun x => x != line) }
  let e : ErrStruct := if s.pkg.l2.any (fun l => l.line == line) then .cache else .lpddr
  .next (if s.pkg.latent.contains line then updErr s1 e (BitVec.ofNat 2 (line / 2 ^ 33)) (fun x => { x with ce := x.ce + 1, scrubCe := x.scrubCe + 1 }) else s1)

/-! ## The farrier engines (R459 to R462) -/

/-- The number of a column in the package. -/
def columnIndex (die : BitVec 2) (column : BitVec 7) : Nat := die.toNat * 128 + column.toNat

/-- An engine command of the state's task reads or writes a space. -/
def spaceUsed (s : State) (sp : BitVec 2) : Bool :=
  let t := s.task
  t.copies.any (fun c =>
    let n := c.desc.toNat
    c.accepted && (copySsp n == sp || copyDsp n == sp || (namesBarrier c && (copyBar n).extractLsb 57 56 == sp) || (fnIndexed c.fn && copyXsp n == sp))) ||
    t.jobs.any (fun j => streamSp ((s.core.planes.get j.plane).streams.get j.slot).desc.toNat == sp) ||
    (sp == 1 && t.mats.any (fun m => m.issue.tpl.src1 == 0x39 || m.issue.tpl.src2 == 0x39)) ||
    t.deferred.any (fun d => d.obj.extractLsb 57 56 == sp)

/-- A response may be owed on a column's bus to an engine that works for the state's task: on its own column, on those of its cluster for what
it reads and writes there, and on any for the loft (R67, R459; DESIGN CHOICE, log 32). -/
def busOwed (s : State) (c : Nat) : Bool :=
  let own := s.core.coreId.toNat
  !enginesEmpty s && (own / 4 == c || (own / 32 == c / 8 && spaceUsed s 1) || spaceUsed s 3)

/-- The conditions of R459: no core of the column has a task, a dispatch or a resume, no response is owed on its bus, not to an engine that
works for a saved task either, and nothing holds the bank above it. -/
def mayClaim (s : State) (c : Nat) : Bool :=
  (upTo 4).all (fun k => !coreBusy s (c * 4 + k)) && !busOwed s c &&
    s.pkg.images.all (fun im => !(imageOwed s im && busOwed (viewOf s im) c)) && !s.pkg.loft.held.contains c &&
    !s.pkg.farrier.claimed.contains c

/-- Lanes of a vertical bus kept in reserve (ch. 20). -/
def spareLanes : Nat := 32

/-- A failed lane of a column noted, and a spare put in its place, the next one that is left (R461). -/
def failLane (f : Farrier) (c lane : Nat) : Farrier :=
  let n := (assoc f.failedLanes c).getD 0
  let r : LaneRepair := { column := c, lane := lane, spare := n, inUse := false }
  { f with
    failedLanes := assocPut f.failedLanes c (n + 1)
    repairs := if n < spareLanes then f.repairs.filter (fun x => !(x.column == c && x.lane == lane)) ++ [r] else f.repairs }

/-- A column's bus claimed and tested (R461, R462): the repairs of earlier claims are in use; failed lanes are remapped, or without a spare the
column is retired; weak rows that a spare can take are noted. -/
def claimColumn (f : Farrier) (c : Nat) (found : FarrierFinding) : Farrier :=
  let f0 := { f with repairs := f.repairs.map (fun r => if r.column = c then { r with inUse := true } else r) }
  let f1 := found.failedLanes.eraseDups.foldl (fun f l => failLane f c l) f0
  { f1 with
    claimed := c :: f1.claimed
    retired := if spareLanes < (assoc f1.failedLanes c).getD 0 ∧ !f1.retired.contains c then c :: f1.retired else f1.retired
    weak := f1.weak ++ ((found.weakRows.filter (fun r => rowBank r == c && !f1.stuck.contains r && !f1.weak.any (fun x => x.2 == r))).map (fun r =>
      (BitVec.ofNat 2 (c / 128), r))) }

/-- FARRIER_CLAIM (R459, R461, R462): a claim that may not be made waits. -/
def execFarrierClaim (die : BitVec 2) (column : BitVec 7) (found : FarrierFinding) (s : State) : Out :=
  let c := columnIndex die column
  let f := s.pkg.farrier
  let g := if mayClaim s c then claimColumn f c found else { f with waiting := f.waiting ++ [(c, found)] }
  .next (s.withPkg { s.pkg with farrier := g })

/-- A waiting claim is made as soon as it may be (R459). -/
def claimStep (s : State) : Option State :=
  let f := s.pkg.farrier
  (f.waiting.find? (fun p => mayClaim s p.1)).map (fun p =>
    s.withPkg { s.pkg with farrier := claimColumn { f with waiting := f.waiting.erase p } p.1 p.2 })

/-- FARRIER_YIELD (R460). -/
def execFarrierYield (die : BitVec 2) (column : BitVec 7) (s : State) : Out :=
  .next (s.withPkg { s.pkg with farrier := { s.pkg.farrier with claimed := s.pkg.farrier.claimed.erase (columnIndex die column) } })

/-! ## Management (R464, R465) -/

/-- A setting written to the device configuration and put into effect (R408, R455, R464); none where its value is refused. -/
def configure (s : State) : ConfigWrite → Option State
  | .tierPolicy d reg v =>
    let e := s.pkg.tiers.get d
    let s1 := tierWrite s d reg v
    if (tierWritten e.ctl e.thr reg v).isSome then
      let e1 := s1.pkg.tiers.get d
      some (s1.withPkg { s1.pkg with config := { s1.pkg.config with tierCtl := s1.pkg.config.tierCtl.set d e1.ctl
                                                                    tierThr := s1.pkg.config.tierThr.set d e1.thr } })
    else none
  | .powerCap v =>
    let n := bitsOf v.toNat 16 13
    if capOk n then some (updPower (s.withPkg { s.pkg with config := { s.pkg.config with capw := BitVec.ofNat 13 n } }) (fun w => { w with capw := BitVec.ofNat 13 n }))
    else none
  | .addOperator h => some (s.withPkg { s.pkg with config := { s.pkg.config with operators := h :: s.pkg.config.operators.filter (fun x => x != h) } })
  | .portEnable n en =>
    if n < 18 then
      let bits := s.pkg.config.portEn
      let bit : BitVec 18 := 1#18 <<< n
      some (portEnable (s.withPkg { s.pkg with config := { s.pkg.config with portEn := if en then bits ||| bit else bits &&& ~~~bit } }) n en)
    else none
  | .aperture n entry =>
    if n < 2047 then
      let others := s.pkg.apertures.filter (fun a => a.num != n)
      some (s.withPkg { s.pkg with apertures := match entry with | some e => { num := n, device := e.1, rbase := e.2 } :: others | none => others })
    else none

/-- An answer of the Redfish service. -/
def redfishAnswer (s : State) (a : RedfishAnswer) : State := s.withPkg { s.pkg with replies := s.pkg.replies ++ [a] }

/-- A setting written by a client of the management service, who must be in the operator list (R464) (DEDUCED, log 49). -/
def manage (s : State) (client : Option (BitVec 384)) (w : ConfigWrite) : State :=
  if !(match client with | some h => s.pkg.config.operators.contains h | none => false) then redfishAnswer s .forbidden
  else match configure s w with
    | some s1 => redfishAnswer s1 .done
    | none => redfishAnswer (match w with | .tierPolicy d reg v => tierWrite s d reg v | _ => s) .refused

/-- PCAP_WRITE (R455, R464): only CAPW is writable; a value out of range leaves it. -/
def execPcapWrite (val : Asked Word64) (s : State) : Out := .next (request s (fun s => manage s val.client (.powerCap val.value)))

/-- PORT_ENABLE_WRITE (R452, R464). -/
def execPortEnableWrite (port : Asked Nat) (en : Bool) (s : State) : Out :=
  .next (request s (fun s => manage s port.client (.portEnable port.value en)))

/-- The values that a port is exposed with: its status word and its counters (R452, R453, R465). -/
def portContent (p : Port) : List Nat :=
  (portWord p :: [p.flitsTx, p.flitsRx, p.crcErr, p.replays, p.replayFlits, p.degrade, p.rerouted]).map BitVec.toNat

/-- A structure whose errors are counted, as a number (R458). -/
def errNum : ErrStruct → Nat
  | .sram => 0
  | .cache => 1
  | .lpddr => 2
  | .loft => 3

/-- A band as a number (R463). -/
def bandNum : WearBand → Nat
  | .normal => 0
  | .warn => 1
  | .critical => 2
  | .exhausted => 3

/-- An entry of the security log as numbers: its kind, then what it names (R465). -/
def secLogContent : SecLog → List Nat
  | .hubRefusal pa => [0, pa.toNat, 0]
  | .refused op k => [1, op.toNat, k]
  | .bootFailure => [2, 0, 0]

/-- A power state as PSTATE numbers it (R423). -/
def powerNum : PowerState → Nat
  | .active => 0
  | .breeze => 1
  | .lull => 2
  | .calm => 3

/-- The content of a resource as the last sample has it, in the order of its row of R465; of the configuration, its settings (R464). The form of
an answer is the model's (DESIGN CHOICE, log 49). -/
def resourceContent (t : Telemetry) (c : DeviceConfig) : Resource → List Nat
  | .chassis => [t.pkgw.toNat, t.capw.toNat] ++ t.clocks ++ t.sensors.volts.map BitVec.toNat ++ t.sensors.watts.map BitVec.toNat ++ [t.throt.toNat]
  | .thermal => (t.sensors.junction ++ [t.sensors.inlet, t.sensors.outlet, t.sensors.flow]).map BitVec.toNat
  | .ports =>
    t.ports.flatMap portContent ++
      t.gbe.flatMap (fun g => [g.fecCorr, g.fecUncorr, g.framesTx, g.framesRx, g.drops, g.retx].map BitVec.toNat) ++
      t.d2d.flatMap (fun b => [b.retry, b.laneRepair])
  | .memory => t.errors.flatMap (fun e => [e.ce, e.ue, e.scrubCe]) ++ t.ueEvents.flatMap (fun e => [errNum e.1, e.2.1, e.2.2.toNat])
  | .farrier => t.failedLanes.flatMap (fun p => [p.1, spareLanes - p.2]) ++ t.retired ++ [t.refreshed]
  | .loft =>
    t.loftBands.flatMap (fun p => [p.1, bandNum p.2]) ++ t.loftSpares.flatMap (fun p => [p.1, p.2]) ++ t.loftRetired.flatMap (fun p => [p.1, p.2]) ++
      t.loftWorn.flatMap (fun p => [p.1, p.2])
  | .yard => t.ystat.map BitVec.toNat ++ t.doneByCode
  | .logServices => t.secLog.flatMap secLogContent
  | .powerState => [powerNum t.power, t.changed.toNat]
  | .configuration =>
    c.tierCtl.toList.map BitVec.toNat ++ c.tierThr.toList.map BitVec.toNat ++ [c.capw.toNat, c.portEn.toNat] ++ c.operators.map BitVec.toNat

/-- REDFISH_REQUEST (R464, R465): anyone may read a resource; only a client in the operator list may write. -/
def execRedfishRequest (req : RedfishReq) (s : State) : Out :=
  .next (request s (fun s =>
    match req.write with
    | none => redfishAnswer s (.content req.resource (resourceContent s.pkg.telemetry s.pkg.config req.resource))
    | some w => manage s req.client w))

/-- What the sensors read at a sample: free values, since no rule fixes them (log 3, 20). -/
def readSensors (ctr : Nat) : Sensors :=
  let w := fun (i : Nat) => Config.freeWord ctr (2 ^ 51 + i)
  { volts := (upTo 24).map w, watts := (upTo 24).map (fun i => w (24 + i)), junction := (upTo 4).map (fun i => w (48 + i))
    inlet := w 52, outlet := w 53, flow := w 54 }

/-- The counters of the scale-out ports and of the die-to-die boundaries after what their links did since the last sample: free values, since no
rule says when they do it (log 3, 20). Frames that this package sends are counted as they are sent. -/
def countLinks (s : State) : State :=
  let w := fun (i : Nat) => Config.freeWord s.freeCtr (2 ^ 52 + i)
  s.withPkg { s.pkg with
    gbe := Vector.ofFn (fun i =>
      let g := s.pkg.gbe.get (BitVec.ofNat 3 i.val)
      let k := 8 * i.val
      { g with fecCorr := g.fecCorr + w k, fecUncorr := g.fecUncorr + w (k + 1), framesRx := g.framesRx + w (k + 2), drops := g.drops + w (k + 3)
               retx := g.retx + w (k + 4) })
    d2d := Vector.ofFn (fun i =>
      let b := s.pkg.d2d.get (BitVec.ofNat 3 i.val)
      { b with retry := b.retry + (w (64 + i.val)).toNat, laneRepair := b.laneRepair + (w (72 + i.val)).toNat }) }

/-- TELEMETRY_SAMPLE (R465): all readings but those of the loft, which its own commands sample. -/
def execTelemetrySample (s0 : State) : Out :=
  let s := if portUp s0 then countLinks s0 else s0
  let k := s.pkg
  .next (
    if portUp s then
      { s.withPkg { k with telemetry := { k.telemetry with
          sampled := k.time
          sensors := readSensors s.freeCtr
          pkgw := k.power.pkgw
          capw := k.power.capw
          throt := k.power.throt
          clocks := k.power.islands.toList.map Island.now
          ports := k.ports.toList
          gbe := k.gbe.toList
          d2d := k.d2d.toList
          errors := k.errors.toList
          ueEvents := k.ueEvents
          failedLanes := k.farrier.failedLanes
          retired := k.farrier.retired
          refreshed := k.farrier.refreshed
          ystat := [0#2, 1#2, 2#2, 3#2].map (fun d => yardReg s d 0)
          doneByCode := k.doneByCode
          secLog := k.security.log
          power := k.power.state
          changed := k.power.changed } } with freeCtr := s.freeCtr + 1 }
    else s)

end Sys2Proof.Machine
end

