-- ==== Sys2Proof/Machine/Scalar.lean ====
section
/-! DEFINITION. Integer arithmetic, immediates, compares, flags and special registers (R197 to R203, R211, R212). -/

namespace Sys2Proof.Machine

open Sys2Proof

/-! ## Shared forms -/

/-- An operation on xA and the second operand into xD. -/
def alu2 (s : State) (q : SeqId) (d a : BitVec 4) (b : Src) (bound : Nat) (f : Word64 → Word64 → Word64) : Effect :=
  withX s q a 0 (fun x => withSrcVal s q b 1 (fun y => .write s bound [.x d (f x y) none]))

/-- An operation on xA into xD. -/
def alu1 (s : State) (q : SeqId) (d a : BitVec 4) (bound : Nat) (f : Word64 → Word64) : Effect :=
  withX s q a 0 (fun x => .write s bound [.x d (f x) none])

/-- The shift amount b[5:0] (R198). -/
def shamt (b : Word64) : Nat := b.toNat % 64

/-- ROL (R198). -/
def rolVal (a b : Word64) : Word64 := a.rotateLeft (shamt b)

/-- Bits [127:64] of the exact signed product (R198). -/
def mulhVal (a b : Word64) : Word64 := BitVec.ofInt 64 (a.toInt * b.toInt / 2 ^ 64)

/-- Bits [127:64] of the exact unsigned product (R198). -/
def mulhuVal (a b : Word64) : Word64 := BitVec.ofNat 64 (a.toNat * b.toNat / 2 ^ 64)

/-- DIV: rounded toward zero; all ones for b = 0; the overflow case wraps to -2^63 (R199). -/
def divVal (a b : Word64) : Word64 := if b = 0 then BitVec.allOnes 64 else BitVec.ofInt 64 (a.toInt.tdiv b.toInt)

/-- DIVU (R199). -/
def divuVal (a b : Word64) : Word64 := if b = 0 then BitVec.allOnes 64 else BitVec.ofNat 64 (a.toNat / b.toNat)

/-- REM: the sign of the dividend; a for b = 0 (R199). -/
def remVal (a b : Word64) : Word64 := if b = 0 then a else BitVec.ofInt 64 (a.toInt.tmod b.toInt)

/-- REMU (R199). -/
def remuVal (a b : Word64) : Word64 := if b = 0 then a else BitVec.ofNat 64 (a.toNat % b.toNat)

/-- Leading zero bits among `n` bits from the top (R198). -/
def clzFrom (v : Nat) : Nat → Nat
  | 0 => 0
  | n + 1 => if v.testBit n then 0 else 1 + clzFrom v n

/-- Trailing zero bits among `n` bits from bit `k` (R198). -/
def ctzFrom (v k : Nat) : Nat → Nat
  | 0 => 0
  | n + 1 => if v.testBit k then 0 else 1 + ctzFrom v (k + 1) n

/-- One bits among the low `n` bits (R198). -/
def popFrom (v : Nat) : Nat → Nat
  | 0 => 0
  | n + 1 => (if v.testBit n then 1 else 0) + popFrom v n

/-- The length field Min(b[14:8], 64) (R198). -/
def fieldLen (b : Word64) : Nat := Nat.min (bitsOf b.toNat 8 7) 64

/-- BEXT (R198). -/
def bextVal (a b : Word64) : Word64 := BitVec.ofNat 64 (a.toNat / 2 ^ shamt b % 2 ^ fieldLen b)

/-- BINS: the field of d replaced by the low bits of a; bits beyond 63 are dropped (R198). -/
def binsVal (d a b : Word64) : Word64 :=
  let mask := BitVec.ofNat 64 ((2 ^ fieldLen b - 1) * 2 ^ shamt b)
  (d &&& ~~~mask) ||| ((a <<< shamt b) &&& mask)

/-- ADDW (R198). -/
def addwVal (a b : Word64) : Word64 := sext64 32 (a + b).toNat

/-- IMM of BI, sign-extended (R170). -/
def imm14 (i : BitVec 14) : Word64 := i.signExtend 64

/-! ## ALU (R197, R198) -/

/-- ADD (R198). -/
def execAdd (k : Tok) (d a : BitVec 4) (b : Src) (s : State) : Out :=
  issue (.add k d a b) (fun s q => alu2 s q d a b 1 (fun x y => x + y)) s

/-- SUB (R198). -/
def execSub (k : Tok) (d a : BitVec 4) (b : Src) (s : State) : Out :=
  issue (.sub k d a b) (fun s q => alu2 s q d a b 1 (fun x y => x - y)) s

/-- AND (R198). -/
def execAnd (k : Tok) (d a : BitVec 4) (b : Src) (s : State) : Out :=
  issue (.and k d a b) (fun s q => alu2 s q d a b 1 (fun x y => x &&& y)) s

/-- OR (R198). -/
def execOr (k : Tok) (d a : BitVec 4) (b : Src) (s : State) : Out :=
  issue (.or k d a b) (fun s q => alu2 s q d a b 1 (fun x y => x ||| y)) s

/-- XOR (R198). -/
def execXor (k : Tok) (d a : BitVec 4) (b : Src) (s : State) : Out :=
  issue (.xor k d a b) (fun s q => alu2 s q d a b 1 (fun x y => x ^^^ y)) s

/-- ANDN (R198). -/
def execAndn (k : Tok) (d a : BitVec 4) (b : Src) (s : State) : Out :=
  issue (.andn k d a b) (fun s q => alu2 s q d a b 1 (fun x y => x &&& ~~~y)) s

/-- SLL (R198). -/
def execSll (k : Tok) (d a : BitVec 4) (b : Src) (s : State) : Out :=
  issue (.sll k d a b) (fun s q => alu2 s q d a b 1 (fun x y => x <<< shamt y)) s

/-- SRL (R198). -/
def execSrl (k : Tok) (d a : BitVec 4) (b : Src) (s : State) : Out :=
  issue (.srl k d a b) (fun s q => alu2 s q d a b 1 (fun x y => x >>> shamt y)) s

/-- SRA (R198). -/
def execSra (k : Tok) (d a : BitVec 4) (b : Src) (s : State) : Out :=
  issue (.sra k d a b) (fun s q => alu2 s q d a b 1 (fun x y => x.sshiftRight (shamt y))) s

/-- ROL (R198). -/
def execRol (k : Tok) (d a : BitVec 4) (b : Src) (s : State) : Out :=
  issue (.rol k d a b) (fun s q => alu2 s q d a b 1 (rolVal)) s

/-- MUL (R198). -/
def execMul (k : Tok) (d a : BitVec 4) (b : Src) (s : State) : Out :=
  issue (.mul k d a b) (fun s q => alu2 s q d a b 3 (fun x y => x * y)) s

/-- MULH (R198). -/
def execMulh (k : Tok) (d a : BitVec 4) (b : Src) (s : State) : Out :=
  issue (.mulh k d a b) (fun s q => alu2 s q d a b 3 (mulhVal)) s

/-- MULHU (R198). -/
def execMulhu (k : Tok) (d a : BitVec 4) (b : Src) (s : State) : Out :=
  issue (.mulhu k d a b) (fun s q => alu2 s q d a b 3 (mulhuVal)) s

/-- DIV (R199). -/
def execDiv (k : Tok) (d a : BitVec 4) (b : Src) (s : State) : Out :=
  issue (.div k d a b) (fun s q => alu2 s q d a b 20 (divVal)) s

/-- DIVU (R199). -/
def execDivu (k : Tok) (d a : BitVec 4) (b : Src) (s : State) : Out :=
  issue (.divu k d a b) (fun s q => alu2 s q d a b 20 (divuVal)) s

/-- REM (R199). -/
def execRem (k : Tok) (d a : BitVec 4) (b : Src) (s : State) : Out :=
  issue (.rem k d a b) (fun s q => alu2 s q d a b 20 (remVal)) s

/-- REMU (R199). -/
def execRemu (k : Tok) (d a : BitVec 4) (b : Src) (s : State) : Out :=
  issue (.remu k d a b) (fun s q => alu2 s q d a b 20 (remuVal)) s

/-- MIN (R198). -/
def execMin (k : Tok) (d a : BitVec 4) (b : Src) (s : State) : Out :=
  issue (.min k d a b) (fun s q => alu2 s q d a b 1 (fun x y => if x.toInt ≤ y.toInt then x else y)) s

/-- MAX (R198). -/
def execMax (k : Tok) (d a : BitVec 4) (b : Src) (s : State) : Out :=
  issue (.max k d a b) (fun s q => alu2 s q d a b 1 (fun x y => if x.toInt ≤ y.toInt then y else x)) s

/-- MINU (R198). -/
def execMinu (k : Tok) (d a : BitVec 4) (b : Src) (s : State) : Out :=
  issue (.minu k d a b) (fun s q => alu2 s q d a b 1 (fun x y => if x.toNat ≤ y.toNat then x else y)) s

/-- MAXU (R198). -/
def execMaxu (k : Tok) (d a : BitVec 4) (b : Src) (s : State) : Out :=
  issue (.maxu k d a b) (fun s q => alu2 s q d a b 1 (fun x y => if x.toNat ≤ y.toNat then y else x)) s

/-- ADDSH1 (R198). -/
def execAddsh1 (k : Tok) (d a : BitVec 4) (b : Src) (s : State) : Out :=
  issue (.addsh1 k d a b) (fun s q => alu2 s q d a b 1 (fun x y => x + (y <<< 1))) s

/-- ADDSH2 (R198). -/
def execAddsh2 (k : Tok) (d a : BitVec 4) (b : Src) (s : State) : Out :=
  issue (.addsh2 k d a b) (fun s q => alu2 s q d a b 1 (fun x y => x + (y <<< 2))) s

/-- ADDSH3 (R198). -/
def execAddsh3 (k : Tok) (d a : BitVec 4) (b : Src) (s : State) : Out :=
  issue (.addsh3 k d a b) (fun s q => alu2 s q d a b 1 (fun x y => x + (y <<< 3))) s

/-- ADDSH4 (R198). -/
def execAddsh4 (k : Tok) (d a : BitVec 4) (b : Src) (s : State) : Out :=
  issue (.addsh4 k d a b) (fun s q => alu2 s q d a b 1 (fun x y => x + (y <<< 4))) s

/-- BEXT (R198). -/
def execBext (k : Tok) (d a : BitVec 4) (b : Src) (s : State) : Out :=
  issue (.bext k d a b) (fun s q => alu2 s q d a b 1 (bextVal)) s

/-- ADDW (R198). -/
def execAddw (k : Tok) (d a : BitVec 4) (b : Src) (s : State) : Out :=
  issue (.addw k d a b) (fun s q => alu2 s q d a b 1 (addwVal)) s

/-- BINS reads xD as a source (R198). -/
def execBins (k : Tok) (d a : BitVec 4) (b : Src) (s : State) : Out :=
  issue (.bins k d a b) (fun s q => withX s q d 2 (fun z => alu2 s q d a b 1 (binsVal z))) s

/-- CLZ (R198). -/
def execClz (k : Tok) (d a : BitVec 4) (s : State) : Out :=
  issue (.clz k d a) (fun s q => alu1 s q d a 1 (fun x => BitVec.ofNat 64 (clzFrom x.toNat 64))) s

/-- CTZ (R198). -/
def execCtz (k : Tok) (d a : BitVec 4) (s : State) : Out :=
  issue (.ctz k d a) (fun s q => alu1 s q d a 1 (fun x => BitVec.ofNat 64 (ctzFrom x.toNat 0 64))) s

/-- POPC (R198). -/
def execPopc (k : Tok) (d a : BitVec 4) (s : State) : Out :=
  issue (.popc k d a) (fun s q => alu1 s q d a 1 (fun x => BitVec.ofNat 64 (popFrom x.toNat 64))) s

/-- SEXTB (R198). -/
def execSextb (k : Tok) (d a : BitVec 4) (s : State) : Out :=
  issue (.sextb k d a) (fun s q => alu1 s q d a 1 (fun x => sext64 8 x.toNat)) s

/-- SEXTH (R198). -/
def execSexth (k : Tok) (d a : BitVec 4) (s : State) : Out :=
  issue (.sexth k d a) (fun s q => alu1 s q d a 1 (fun x => sext64 16 x.toNat)) s

/-- SEXTW (R198). -/
def execSextw (k : Tok) (d a : BitVec 4) (s : State) : Out :=
  issue (.sextw k d a) (fun s q => alu1 s q d a 1 (fun x => sext64 32 x.toNat)) s

/-- ZEXTW (R198). -/
def execZextw (k : Tok) (d a : BitVec 4) (s : State) : Out :=
  issue (.zextw k d a) (fun s q => alu1 s q d a 1 (fun x => (x.truncate 32).zeroExtend 64)) s

/-! ## Immediates (R170, R200) -/

/-- ADDI (R200). -/
def execAddi (k : Tok) (d a : BitVec 4) (imm : BitVec 14) (s : State) : Out :=
  issue (.addi k d a imm) (fun s q => alu1 s q d a 1 (fun x => x + imm14 imm)) s

/-- ANDI (R200). -/
def execAndi (k : Tok) (d a : BitVec 4) (imm : BitVec 14) (s : State) : Out :=
  issue (.andi k d a imm) (fun s q => alu1 s q d a 1 (fun x => x &&& imm14 imm)) s

/-- ORI (R200). -/
def execOri (k : Tok) (d a : BitVec 4) (imm : BitVec 14) (s : State) : Out :=
  issue (.ori k d a imm) (fun s q => alu1 s q d a 1 (fun x => x ||| imm14 imm)) s

/-- XORI (R200). -/
def execXori (k : Tok) (d a : BitVec 4) (imm : BitVec 14) (s : State) : Out :=
  issue (.xori k d a imm) (fun s q => alu1 s q d a 1 (fun x => x ^^^ imm14 imm)) s

/-- MULI (R200). -/
def execMuli (k : Tok) (d a : BitVec 4) (imm : BitVec 14) (s : State) : Out :=
  issue (.muli k d a imm) (fun s q => alu1 s q d a 3 (fun x => x * imm14 imm)) s

/-- SLLI (R170, R200). -/
def execSlli (k : Tok) (d a : BitVec 4) (n : BitVec 6) (s : State) : Out :=
  issue (.slli k d a n) (fun s q => alu1 s q d a 1 (fun x => x <<< n.toNat)) s

/-- SRLI (R170, R200). -/
def execSrli (k : Tok) (d a : BitVec 4) (n : BitVec 6) (s : State) : Out :=
  issue (.srli k d a n) (fun s q => alu1 s q d a 1 (fun x => x >>> n.toNat)) s

/-- SRAI (R170, R200). -/
def execSrai (k : Tok) (d a : BitVec 4) (n : BitVec 6) (s : State) : Out :=
  issue (.srai k d a n) (fun s q => alu1 s q d a 1 (fun x => x.sshiftRight n.toNat)) s

/-! ## Compares and flags (R201 to R203) -/

/-- CMP (R201). -/
def execCmp (k : Tok) (f : BitVec 3) (a : BitVec 4) (b : Src) (c : BitVec 3) (s : State) : Out :=
  issue (.cmp k f a b c) (fun s q => withX s q a 0 (fun x => withSrcVal s q b 1 (fun y =>
    .write s 1 [.flag f (bitOf (condHolds c x y))]))) s

/-- CMPI: the immediate is sign-extended before every comparison (R201). -/
def execCmpi (k : Tok) (f c : BitVec 3) (a : BitVec 4) (imm : BitVec 12) (s : State) : Out :=
  issue (.cmpi k f c a imm) (fun s q => withX s q a 0 (fun x =>
    .write s 1 [.flag f (bitOf (condHolds c x (imm.signExtend 64)))])) s

/-- SEL reads both registers and the flag (R202). -/
def execSel (k : Tok) (d a b : BitVec 4) (f : BitVec 3) (s : State) : Out :=
  issue (.sel k d a b f) (fun s q => withX s q a 0 (fun x => withX s q b 1 (fun y =>
    .write s 1 [.x d (if s.readF q f 2 = 1 then x else y) none]))) s

/-- FAND (R202). -/
def execFlagAnd (k : Tok) (d a b : BitVec 3) (s : State) : Out :=
  issue (.flagAnd k d a b) (fun s q => .write s 1 [.flag d (s.readF q a 0 &&& s.readF q b 1)]) s

/-- FOR (R202). -/
def execFlagOr (k : Tok) (d a b : BitVec 3) (s : State) : Out :=
  issue (.flagOr k d a b) (fun s q => .write s 1 [.flag d (s.readF q a 0 ||| s.readF q b 1)]) s

/-- FXOR (R202). -/
def execFlagXor (k : Tok) (d a b : BitVec 3) (s : State) : Out :=
  issue (.flagXor k d a b) (fun s q => .write s 1 [.flag d (s.readF q a 0 ^^^ s.readF q b 1)]) s

/-- FNOT (R202). -/
def execFlagNot (k : Tok) (d a : BitVec 3) (s : State) : Out :=
  issue (.flagNot k d a) (fun s q => .write s 1 [.flag d (~~~(s.readF q a 0))]) s

/-- FMOV (R202). -/
def execFlagMov (k : Tok) (d a : BitVec 3) (s : State) : Out :=
  issue (.flagMov k d a) (fun s q => .write s 1 [.flag d (s.readF q a 0)]) s

/-- FSET (R202). -/
def execFlagSet (k : Tok) (d : BitVec 3) (s : State) : Out :=
  issue (.flagSet k d) (fun s _ => .write s 1 [.flag d 1]) s

/-- FCLR (R202). -/
def execFlagClr (k : Tok) (d : BitVec 3) (s : State) : Out :=
  issue (.flagClr k d) (fun s _ => .write s 1 [.flag d 0]) s

/-- The eight flags packed, flag i at bit i (R202). -/
def packFlags (s : State) (q : SeqId) : Word64 :=
  BitVec.ofNat 64 (packBits 1 ((upTo 8).map (fun i => (s.readF q (BitVec.ofNat 3 i) i).toNat)))

/-- FRD (R202). -/
def execFlagRead (k : Tok) (d : BitVec 4) (s : State) : Out :=
  issue (.flagRead k d) (fun s q => .write s 1 [.x d (packFlags s q) none]) s

/-- The effect that needs the mask of VANY, VALL and VNONE: a lane mask on C, an x register elsewhere (R203). -/
def withMask (s : State) (q : SeqId) (a : BitVec 4) (k : BitVec 64 → Effect) : Effect :=
  if q = .C then k (s.readM (a.truncate 3) 0) else withX s q a 0 k

/-- VANY (R203). -/
def execVany (k : Tok) (d : BitVec 3) (a : BitVec 4) (s : State) : Out :=
  issue (.vany k d a) (fun s q => withMask s q a (fun m => .write s 1 [.flag d (bitOf (anySet m))])) s

/-- VALL (R203). -/
def execVall (k : Tok) (d : BitVec 3) (a : BitVec 4) (s : State) : Out :=
  issue (.vall k d a) (fun s q => withMask s q a (fun m => .write s 1 [.flag d (bitOf (allSet m))])) s

/-- VNONE (R203). -/
def execVnone (k : Tok) (d : BitVec 3) (a : BitVec 4) (s : State) : Out :=
  issue (.vnone k d a) (fun s q => withMask s q a (fun m => .write s 1 [.flag d (bitOf (noneSet m))])) s

/-! ## Special registers (R211, R212) -/

/-- The value of a special register (R28, R29, R34, R36, R37, R51, R118, R132, R157, R211, R212, R227, R229). -/
def readSr (s : State) (q : SeqId) (n : BitVec 13) : Word64 :=
  let t := s.task
  let sq := s.seq q
  let k := n.toNat
  if k = 0x000 then s.time
  else if k = 0x001 then t.tofs
  else if k = 0x002 then t.ident.taskId
  else if k = 0x003 then s.core.coreId.zeroExtend 64
  else if k = 0x004 then t.ident.world.zeroExtend 64
  else if k = 0x005 then BitVec.ofNat 64 (t.active.toNat + 2 * s.core.ready.toNat + 4 * s.core.loading.toNat)
  else if 0x010 ≤ k ∧ k ≤ 0x017 then (t.ident.lvc.get (BitVec.ofNat 3 k)).zeroExtend 64
  else if 0x018 ≤ k ∧ k ≤ 0x01F then (t.ident.lve.get (BitVec.ofNat 3 k)).zeroExtend 64
  else if k = 0x020 then t.split.zeroExtend 64
  else if k = 0x021 then (s.readFflags 0).zeroExtend 64
  else if k = 0x022 then sq.lvs.zeroExtend 64
  else if k = 0x023 then t.seed
  else if k = 0x030 then t.faults.cause
  else if k = 0x031 then t.faults.pc
  else if k = 0x032 then t.faults.seq
  else if k = 0x033 then t.faults.addr
  else if 0x034 ≤ k ∧ k ≤ 0x03B then t.faults.snap.get (BitVec.ofNat 3 (k - 0x034))
  else if 0x040 ≤ k ∧ k ≤ 0x04F then t.acct.get (BitVec.ofNat 4 k)
  else if k = 0x050 then sq.issueCnt.zeroExtend 64
  else 0

/-- RDSR (R211). -/
def execRdsr (k : Tok) (d : BitVec 4) (n : BitVec 13) (s : State) : Out :=
  issue (.rdsr k d n) (fun s q => .write s 1 [.x d (readSr s q n) none]) s

/-- A write of LVS, FFLAGS or SEED; zero into SEED stores 1 (R29, R118, R132, R211). R187 bounds it by one cycle: it is made in its issue cycle, so
that flags of an operation that retires in that cycle stand in FFLAGS after it (DESIGN CHOICE, log 4). -/
def writeSr (s : State) (q : SeqId) (n : BitVec 13) (v : Word64) : State :=
  if n = 0x022 then s.withSeq q { s.seq q with lvs := v.truncate 3 }
  else if n = 0x021 then s.withTask { s.task with fflags := v.truncate 7 }
  else if n = 0x023 then s.withTask { s.task with seed := if v = 0 then 1 else v }
  else s

/-- WRSR takes effect for the instructions after it (R211). -/
def execWrsr (k : Tok) (a : BitVec 4) (n : BitVec 13) (s : State) : Out :=
  issue (.wrsr k a n) (fun s q => withX s q a 0 (fun v => .act (writeSr s q n v))) s

end Sys2Proof.Machine
end

