-- ==== Sys2Proof/Machine/Dispatch.lean ====
section
/-! DEFINITION. The meaning of every instruction and event: one arm per constructor of `Instr`. -/

namespace Sys2Proof.Machine

open Sys2Proof

/-- One instruction or event on a state. -/
def exec (i : Instr) (s : State) : Host.Outcome State Fault Refusal :=
  match i with
  | .nop k => Sys2Proof.Machine.execNop k s
  | .trap k c => Sys2Proof.Machine.execTrap k c s
  | .brk k => Sys2Proof.Machine.execBrk k s
  | .exit k a => Sys2Proof.Machine.execExit k a s
  | .swap k => Sys2Proof.Machine.execSwap k s
  | .yield k => Sys2Proof.Machine.execYield k s
  | .waitt k d a => Sys2Proof.Machine.execWaitt k d a s
  | .twait p d a b => Sys2Proof.Machine.execTwait p d a b s
  | .tcnt p d => Sys2Proof.Machine.execTcnt p d s
  | .eret => Sys2Proof.Machine.execEret s
  | .splitw k a => Sys2Proof.Machine.execSplitw k a s
  | .cflush k a => Sys2Proof.Machine.execCflush k a s
  | .cinv k a => Sys2Proof.Machine.execCinv k a s
  | .cwb k a => Sys2Proof.Machine.execCwb k a s
  | .spin k sp a => Sys2Proof.Machine.execSpin k sp a s
  | .spun k sp a => Sys2Proof.Machine.execSpun k sp a s
  | .hint k kk a => Sys2Proof.Machine.execHint k kk a s
  | .qx k d a f => Sys2Proof.Machine.execQx k d a f s
  | .add k d a b => Sys2Proof.Machine.execAdd k d a b s
  | .sub k d a b => Sys2Proof.Machine.execSub k d a b s
  | .and k d a b => Sys2Proof.Machine.execAnd k d a b s
  | .or k d a b => Sys2Proof.Machine.execOr k d a b s
  | .xor k d a b => Sys2Proof.Machine.execXor k d a b s
  | .andn k d a b => Sys2Proof.Machine.execAndn k d a b s
  | .sll k d a b => Sys2Proof.Machine.execSll k d a b s
  | .srl k d a b => Sys2Proof.Machine.execSrl k d a b s
  | .sra k d a b => Sys2Proof.Machine.execSra k d a b s
  | .rol k d a b => Sys2Proof.Machine.execRol k d a b s
  | .mul k d a b => Sys2Proof.Machine.execMul k d a b s
  | .mulh k d a b => Sys2Proof.Machine.execMulh k d a b s
  | .mulhu k d a b => Sys2Proof.Machine.execMulhu k d a b s
  | .div k d a b => Sys2Proof.Machine.execDiv k d a b s
  | .divu k d a b => Sys2Proof.Machine.execDivu k d a b s
  | .rem k d a b => Sys2Proof.Machine.execRem k d a b s
  | .remu k d a b => Sys2Proof.Machine.execRemu k d a b s
  | .min k d a b => Sys2Proof.Machine.execMin k d a b s
  | .max k d a b => Sys2Proof.Machine.execMax k d a b s
  | .minu k d a b => Sys2Proof.Machine.execMinu k d a b s
  | .maxu k d a b => Sys2Proof.Machine.execMaxu k d a b s
  | .clz k d a => Sys2Proof.Machine.execClz k d a s
  | .ctz k d a => Sys2Proof.Machine.execCtz k d a s
  | .popc k d a => Sys2Proof.Machine.execPopc k d a s
  | .sextb k d a => Sys2Proof.Machine.execSextb k d a s
  | .sexth k d a => Sys2Proof.Machine.execSexth k d a s
  | .sextw k d a => Sys2Proof.Machine.execSextw k d a s
  | .zextw k d a => Sys2Proof.Machine.execZextw k d a s
  | .addsh1 k d a b => Sys2Proof.Machine.execAddsh1 k d a b s
  | .addsh2 k d a b => Sys2Proof.Machine.execAddsh2 k d a b s
  | .addsh3 k d a b => Sys2Proof.Machine.execAddsh3 k d a b s
  | .addsh4 k d a b => Sys2Proof.Machine.execAddsh4 k d a b s
  | .bext k d a b => Sys2Proof.Machine.execBext k d a b s
  | .bins k d a b => Sys2Proof.Machine.execBins k d a b s
  | .addw k d a b => Sys2Proof.Machine.execAddw k d a b s
  | .addi k d a imm => Sys2Proof.Machine.execAddi k d a imm s
  | .andi k d a imm => Sys2Proof.Machine.execAndi k d a imm s
  | .ori k d a imm => Sys2Proof.Machine.execOri k d a imm s
  | .xori k d a imm => Sys2Proof.Machine.execXori k d a imm s
  | .slli k d a n => Sys2Proof.Machine.execSlli k d a n s
  | .srli k d a n => Sys2Proof.Machine.execSrli k d a n s
  | .srai k d a n => Sys2Proof.Machine.execSrai k d a n s
  | .muli k d a imm => Sys2Proof.Machine.execMuli k d a imm s
  | .cmp k f a b c => Sys2Proof.Machine.execCmp k f a b c s
  | .cmpi k f c a imm => Sys2Proof.Machine.execCmpi k f c a imm s
  | .sel k d a b f => Sys2Proof.Machine.execSel k d a b f s
  | .flagAnd k d a b => Sys2Proof.Machine.execFlagAnd k d a b s
  | .flagOr k d a b => Sys2Proof.Machine.execFlagOr k d a b s
  | .flagXor k d a b => Sys2Proof.Machine.execFlagXor k d a b s
  | .flagNot k d a => Sys2Proof.Machine.execFlagNot k d a s
  | .flagMov k d a => Sys2Proof.Machine.execFlagMov k d a s
  | .flagSet k d => Sys2Proof.Machine.execFlagSet k d s
  | .flagClr k d => Sys2Proof.Machine.execFlagClr k d s
  | .flagRead k d => Sys2Proof.Machine.execFlagRead k d s
  | .vany k d a => Sys2Proof.Machine.execVany k d a s
  | .vall k d a => Sys2Proof.Machine.execVall k d a s
  | .vnone k d a => Sys2Proof.Machine.execVnone k d a s
  | .pbtDisp k b d => Sys2Proof.Machine.execPbtDisp k b d s
  | .pbtReg k b a => Sys2Proof.Machine.execPbtReg k b a s
  | .brtAlways k b e kk => Sys2Proof.Machine.execBrtAlways k b e kk s
  | .brtCond k b f sp e kk => Sys2Proof.Machine.execBrtCond k b f sp e kk s
  | .loop k c a e => Sys2Proof.Machine.execLoop k c a e s
  | .rdsr k d sp => Sys2Proof.Machine.execRdsr k d sp s
  | .wrsr k a sp => Sys2Proof.Machine.execWrsr k a sp s
  | .fence k c sp kk => Sys2Proof.Machine.execFence k c sp kk s
  | .fencex k a b sp => Sys2Proof.Machine.execFencex k a b sp s
  | .ld k d a o sp z g imm r f => Sys2Proof.Machine.execLd k d a o sp z g imm r f s
  | .st k d a o sp z g r f => Sys2Proof.Machine.execSt k d a o sp z g r f s
  | .ldx k d a b o z sp g r => Sys2Proof.Machine.execLdx k d a b o z sp g r s
  | .stx k d a b o z sp g r => Sys2Proof.Machine.execStx k d a b o z sp g r s
  | .amo k d a b op sz oc scope ord c sp => Sys2Proof.Machine.execAmo k d a b op sz oc scope ord c sp s
  | .waitm k d a b o z sp g r => Sys2Proof.Machine.execWaitm k d a b o z sp g r s
  | .sdef k n a => Sys2Proof.Machine.execSdef k n a s
  | .sset k n f b => Sys2Proof.Machine.execSset k n f b s
  | .sget k d n f => Sys2Proof.Machine.execSget k d n f s
  | .sld k n m => Sys2Proof.Machine.execSld k n m s
  | .sldn k n m b => Sys2Proof.Machine.execSldn k n m b s
  | .sst k m n => Sys2Proof.Machine.execSst k m n s
  | .sstn k d m n => Sys2Proof.Machine.execSstn k d m n s
  | .sadv k m b => Sys2Proof.Machine.execSadv k m b s
  | .srst k m => Sys2Proof.Machine.execSrst k m s
  | .spos k d m => Sys2Proof.Machine.execSpos k d m s
  | .cpy k a => Sys2Proof.Machine.execCpy k a s
  | .cpys k a => Sys2Proof.Machine.execCpys k a s
  | .gath k a => Sys2Proof.Machine.execGath k a s
  | .scat k a => Sys2Proof.Machine.execScat k a s
  | .cpyq k a n => Sys2Proof.Machine.execCpyq k a n s
  | .cpyf k a => Sys2Proof.Machine.execCpyf k a s
  | .rinit k d a b => Sys2Proof.Machine.execRinit k d a b s
  | .rclaim k d a b => Sys2Proof.Machine.execRclaim k d a b s
  | .rwfree k d a b => Sys2Proof.Machine.execRwfree k d a b s
  | .rpub k d a b => Sys2Proof.Machine.execRpub k d a b s
  | .rwfill k d a b => Sys2Proof.Machine.execRwfill k d a b s
  | .rtake k d a b => Sys2Proof.Machine.execRtake k d a b s
  | .rrel k d a b => Sys2Proof.Machine.execRrel k d a b s
  | .rstat k d a => Sys2Proof.Machine.execRstat k d a s
  | .binit k a b => Sys2Proof.Machine.execBinit k a b s
  | .barv k a b => Sys2Proof.Machine.execBarv k a b s
  | .bard k a b => Sys2Proof.Machine.execBard k a b s
  | .bexp k a b => Sys2Proof.Machine.execBexp k a b s
  | .bwait k d a b => Sys2Proof.Machine.execBwait k d a b s
  | .btest k d a b => Sys2Proof.Machine.execBtest k d a b s
  | .binv k a => Sys2Proof.Machine.execBinv k a s
  | .tld k a q n => Sys2Proof.Machine.execTld k a q n s
  | .tset k a b => Sys2Proof.Machine.execTset k a b s
  | .tget k d a => Sys2Proof.Machine.execTget k d a s
  | .tclr k a => Sys2Proof.Machine.execTclr k a s
  | .mkld k sp a b => Sys2Proof.Machine.execMkld k sp a b s
  | .mkev k n a => Sys2Proof.Machine.execMkev k n a s
  | .mkel k d kk b => Sys2Proof.Machine.execMkel k d kk b s
  | .mkct k d m a b => Sys2Proof.Machine.execMkct k d m a b s
  | .thr k d a b => Sys2Proof.Machine.execThr k d a b s
  | .kmop k d a b => Sys2Proof.Machine.execKmop k d a b s
  | .kmioIn k h kk q n => Sys2Proof.Machine.execKmioIn k h kk q n s
  | .kmioOut k o kk => Sys2Proof.Machine.execKmioOut k o kk s
  | .attq k d a => Sys2Proof.Machine.execAttq k d a s
  | .attw k d a => Sys2Proof.Machine.execAttw k d a s
  | .acct k a b => Sys2Proof.Machine.execAcct k a b s
  | .acctz k b => Sys2Proof.Machine.execAcctz k b s
  | .retiredConversion x => Sys2Proof.Machine.execRetiredConversion x s
  | .patchWord ti t f v lits => Sys2Proof.Machine.execPatchWord ti t f v lits s
  | .vmov ti => Sys2Proof.Machine.execVmov ti s
  | .vadd ti => Sys2Proof.Machine.execVadd ti s
  | .vsub ti => Sys2Proof.Machine.execVsub ti s
  | .vmul ti => Sys2Proof.Machine.execVmul ti s
  | .vfma ti => Sys2Proof.Machine.execVfma ti s
  | .vfms ti => Sys2Proof.Machine.execVfms ti s
  | .vfnma ti => Sys2Proof.Machine.execVfnma ti s
  | .vmin ti => Sys2Proof.Machine.execVmin ti s
  | .vmax ti => Sys2Proof.Machine.execVmax ti s
  | .vabs ti => Sys2Proof.Machine.execVabs ti s
  | .vneg ti => Sys2Proof.Machine.execVneg ti s
  | .vcmp ti => Sys2Proof.Machine.execVcmp ti s
  | .vsel ti => Sys2Proof.Machine.execVsel ti s
  | .vand ti => Sys2Proof.Machine.execVand ti s
  | .vor ti => Sys2Proof.Machine.execVor ti s
  | .vxor ti => Sys2Proof.Machine.execVxor ti s
  | .vnot ti => Sys2Proof.Machine.execVnot ti s
  | .vshl ti => Sys2Proof.Machine.execVshl ti s
  | .vshr ti => Sys2Proof.Machine.execVshr ti s
  | .vsra ti => Sys2Proof.Machine.execVsra ti s
  | .vcvt ti => Sys2Proof.Machine.execVcvt ti s
  | .vqnt ti => Sys2Proof.Machine.execVqnt ti s
  | .vdqnt ti => Sys2Proof.Machine.execVdqnt ti s
  | .vexp2 ti => Sys2Proof.Machine.execVexp2 ti s
  | .vlog2 ti => Sys2Proof.Machine.execVlog2 ti s
  | .vrcp ti => Sys2Proof.Machine.execVrcp ti s
  | .vrsq ti => Sys2Proof.Machine.execVrsq ti s
  | .vsqrt ti => Sys2Proof.Machine.execVsqrt ti s
  | .vrope ti => Sys2Proof.Machine.execVrope ti s
  | .vred ti => Sys2Proof.Machine.execVred ti s
  | .vscan ti => Sys2Proof.Machine.execVscan ti s
  | .vperm ti => Sys2Proof.Machine.execVperm ti s
  | .vbcast ti => Sys2Proof.Machine.execVbcast ti s
  | .vsplat ti => Sys2Proof.Machine.execVsplat ti s
  | .viota ti => Sys2Proof.Machine.execViota ti s
  | .vpopc ti => Sys2Proof.Machine.execVpopc ti s
  | .vmlog ti => Sys2Proof.Machine.execVmlog ti s
  | .vsmx ti => Sys2Proof.Machine.execVsmx ti s
  | .vmrg ti => Sys2Proof.Machine.execVmrg ti s
  | .vmadd ti => Sys2Proof.Machine.execVmadd ti s
  | .vmsub ti => Sys2Proof.Machine.execVmsub ti s
  | .vmmul ti => Sys2Proof.Machine.execVmmul ti s
  | .vntt ti => Sys2Proof.Machine.execVntt ti s
  | .vintt ti => Sys2Proof.Machine.execVintt ti s
  | .vmred ti => Sys2Proof.Machine.execVmred ti s
  | .vclamp ti => Sys2Proof.Machine.execVclamp ti s
  | .vpack ti => Sys2Proof.Machine.execVpack ti s
  | .vunpk ti => Sys2Proof.Machine.execVunpk ti s
  | .vdot4 ti => Sys2Proof.Machine.execVdot4 ti s
  | .mma ti => Sys2Proof.Machine.execMma ti s
  | .mmax ti => Sys2Proof.Machine.execMmax ti s
  | .mmb ti => Sys2Proof.Machine.execMmb ti s
  | .mmod ti => Sys2Proof.Machine.execMmod ti s
  | .mzero ti => Sys2Proof.Machine.execMzero ti s
  | .mst ti => Sys2Proof.Machine.execMst ti s
  | .mld ti => Sys2Proof.Machine.execMld ti s
  | .madda ti => Sys2Proof.Machine.execMadda ti s
  | .mtrn ti => Sys2Proof.Machine.execMtrn ti s
  | .scout ti => Sys2Proof.Machine.execScout ti s
  | .mscr ti => Sys2Proof.Machine.execMscr ti s
  | .timeTick => Sys2Proof.Machine.execTimeTick s
  | .taskDispatch core lid task => Sys2Proof.Machine.execTaskDispatch core lid task s
  | .planeLoadComplete => Sys2Proof.Machine.execPlaneLoadComplete s
  | .planeFlip => Sys2Proof.Machine.execPlaneFlip s
  | .successorStart => Sys2Proof.Machine.execSuccessorStart s
  | .taskDrainPoint core => Sys2Proof.Machine.execTaskDrainPoint core s
  | .deadlockDetect => Sys2Proof.Machine.execDeadlockDetect s
  | .preemptRequest lid group => Sys2Proof.Machine.execPreemptRequest lid group s
  | .sequencerHalt q => Sys2Proof.Machine.execSequencerHalt q s
  | .saveImageComplete core => Sys2Proof.Machine.execSaveImageComplete core s
  | .faultResume svc => Sys2Proof.Machine.execFaultResume svc s
  | .gangResume lid group => Sys2Proof.Machine.execGangResume lid group s
  | .drainAndClear => Sys2Proof.Machine.execDrainAndClear s
  | .scratchRefill page => Sys2Proof.Machine.execScratchRefill page s
  | .copyBufferLeave => Sys2Proof.Machine.execCopyBufferLeave s
  | .copyPageCheck cmd => Sys2Proof.Machine.execCopyPageCheck cmd s
  | .copyComplete cmd => Sys2Proof.Machine.execCopyComplete cmd s
  | .stampedMatrixIssue => Sys2Proof.Machine.execStampedMatrixIssue s
  | .matrixGroupBoundary => Sys2Proof.Machine.execMatrixGroupBoundary s
  | .mkevRetire => Sys2Proof.Machine.execMkevRetire s
  | .streamEntryMove job => Sys2Proof.Machine.execStreamEntryMove job s
  | .deferredArrival => Sys2Proof.Machine.execDeferredArrival s
  | .barrierWaitWake q => Sys2Proof.Machine.execBarrierWaitWake q s
  | .barrierTimeout q => Sys2Proof.Machine.execBarrierTimeout q s
  | .waitmWake q => Sys2Proof.Machine.execWaitmWake q s
  | .waitmLimit q => Sys2Proof.Machine.execWaitmLimit q s
  | .ringWaitWake q => Sys2Proof.Machine.execRingWaitWake q s
  | .ringWaitTimeout q => Sys2Proof.Machine.execRingWaitTimeout q s
  | .twaitWake q => Sys2Proof.Machine.execTwaitWake q s
  | .twaitLimit q => Sys2Proof.Machine.execTwaitLimit q s
  | .waittWake q => Sys2Proof.Machine.execWaittWake q s
  | .attqPageConsume req page => Sys2Proof.Machine.execAttqPageConsume req page s
  | .attqDeadline req => Sys2Proof.Machine.execAttqDeadline req s
  | .attqComplete req => Sys2Proof.Machine.execAttqComplete req s
  | .tierEvaluation die => Sys2Proof.Machine.execTierEvaluation die s
  | .migrationSwitchOver die => Sys2Proof.Machine.execMigrationSwitchOver die s
  | .translationWalkComplete die queue va => Sys2Proof.Machine.execTranslationWalkComplete die queue va s
  | .shootdownComplete => Sys2Proof.Machine.execShootdownComplete s
  | .demandRewalk lid => Sys2Proof.Machine.execDemandRewalk lid s
  | .logRecordWrite die => Sys2Proof.Machine.execLogRecordWrite die s
  | .notify die queue => Sys2Proof.Machine.execNotify die queue s
  | .queuePollTimer die queue => Sys2Proof.Machine.execQueuePollTimer die queue s
  | .qenable die cmd => Sys2Proof.Machine.execQenable die cmd s
  | .qdisable die cmd => Sys2Proof.Machine.execQdisable die cmd s
  | .lresume die cmd => Sys2Proof.Machine.execLresume die cmd s
  | .labort die cmd => Sys2Proof.Machine.execLabort die cmd s
  | .yardRegisterWrite die off val => Sys2Proof.Machine.execYardRegisterWrite die off val s
  | .depSignalSatisfied lid => Sys2Proof.Machine.execDepSignalSatisfied lid s
  | .stagingDone lid => Sys2Proof.Machine.execStagingDone lid s
  | .stagemaxExpiry lid => Sys2Proof.Machine.execStagemaxExpiry lid s
  | .groupPlacement lid group => Sys2Proof.Machine.execGroupPlacement lid group s
  | .agingTick die => Sys2Proof.Machine.execAgingTick die s
  | .launchComplete lid => Sys2Proof.Machine.execLaunchComplete lid s
  | .yardReset die => Sys2Proof.Machine.execYardReset die s
  | .dieFailure die => Sys2Proof.Machine.execDieFailure die s
  | .secCommandAccept => Sys2Proof.Machine.execSecCommandAccept s
  | .fassign c => Sys2Proof.Machine.execFassign c s
  | .frelease c => Sys2Proof.Machine.execFrelease c s
  | .mapset c => Sys2Proof.Machine.execMapset c s
  | .hcreate c => Sys2Proof.Machine.execHcreate c s
  | .hretire c => Sys2Proof.Machine.execHretire c s
  | .wcreate c => Sys2Proof.Machine.execWcreate c s
  | .wdestroy c => Sys2Proof.Machine.execWdestroy c s
  | .krevoke c => Sys2Proof.Machine.execKrevoke c s
  | .exportWorld c => Sys2Proof.Machine.execExportWorld c s
  | .importWorld c => Sys2Proof.Machine.execImportWorld c s
  | .wstat c => Sys2Proof.Machine.execWstat c s
  | .pstateActive c => Sys2Proof.Machine.execPstateActive c s
  | .pstateBreeze c => Sys2Proof.Machine.execPstateBreeze c s
  | .pstateLull c => Sys2Proof.Machine.execPstateLull c s
  | .pstateCalm c => Sys2Proof.Machine.execPstateCalm c s
  | .lgrant c => Sys2Proof.Machine.execLgrant c s
  | .lprog c => Sys2Proof.Machine.execLprog c s
  | .lzero c => Sys2Proof.Machine.execLzero c s
  | .lpeRowProgram die pulse => Sys2Proof.Machine.execLpeRowProgram die pulse s
  | .lhash c => Sys2Proof.Machine.execLhash c s
  | .lwear c => Sys2Proof.Machine.execLwear c s
  | .getVersion sess => Sys2Proof.Machine.execGetVersion sess s
  | .getCapabilities sess => Sys2Proof.Machine.execGetCapabilities sess s
  | .negotiateAlgorithms sess => Sys2Proof.Machine.execNegotiateAlgorithms sess s
  | .getDigests sess => Sys2Proof.Machine.execGetDigests sess s
  | .getCertificate sess => Sys2Proof.Machine.execGetCertificate sess s
  | .challenge sess nonce => Sys2Proof.Machine.execChallenge sess nonce s
  | .getMeasurements sess nonce index => Sys2Proof.Machine.execGetMeasurements sess nonce index s
  | .keyExchange req => Sys2Proof.Machine.execKeyExchange req s
  | .finish sess => Sys2Proof.Machine.execFinish sess s
  | .heartbeat sess => Sys2Proof.Machine.execHeartbeat sess s
  | .keyUpdate sess => Sys2Proof.Machine.execKeyUpdate sess s
  | .endSession sess => Sys2Proof.Machine.execEndSession sess s
  | .vendorDefinedRequest sess world custodian share => Sys2Proof.Machine.execVendorDefinedRequest sess world custodian share s
  | .coldStart image => Sys2Proof.Machine.execColdStart image s
  | .bootFetchTimeout image => Sys2Proof.Machine.execBootFetchTimeout image s
  | .breezeEntry => Sys2Proof.Machine.execBreezeEntry s
  | .breezeWake => Sys2Proof.Machine.execBreezeWake s
  | .lullWake => Sys2Proof.Machine.execLullWake s
  | .hubMemoryAccess acc => Sys2Proof.Machine.execHubMemoryAccess acc s
  | .pcapWrite val => Sys2Proof.Machine.execPcapWrite val s
  | .powerCapStep pkgw => Sys2Proof.Machine.execPowerCapStep pkgw s
  | .capExcessPreempt => Sys2Proof.Machine.execCapExcessPreempt s
  | .thermal105 die => Sys2Proof.Machine.execThermal105 die s
  | .thermal115 => Sys2Proof.Machine.execThermal115 s
  | .thermal125 => Sys2Proof.Machine.execThermal125 s
  | .tierctlWrite die reg val => Sys2Proof.Machine.execTierctlWrite die reg val s
  | .tierstatRejectClear die val => Sys2Proof.Machine.execTierstatRejectClear die val s
  | .portEnableWrite port en => Sys2Proof.Machine.execPortEnableWrite port en s
  | .flitReceive port flit => Sys2Proof.Machine.execFlitReceive port flit s
  | .portRetrain port trained => Sys2Proof.Machine.execPortRetrain port trained s
  | .planeDown port => Sys2Proof.Machine.execPlaneDown port s
  | .d2dRetryFailure die => Sys2Proof.Machine.execD2dRetryFailure die s
  | .patrolScrub => Sys2Proof.Machine.execPatrolScrub s
  | .farrierClaim die column found => Sys2Proof.Machine.execFarrierClaim die column found s
  | .farrierYield die column => Sys2Proof.Machine.execFarrierYield die column s
  | .weakRowRefresh die row => Sys2Proof.Machine.execWeakRowRefresh die row s
  | .redfishRequest req => Sys2Proof.Machine.execRedfishRequest req s
  | .telemetrySample => Sys2Proof.Machine.execTelemetrySample s
  | .instructionRetire q => Sys2Proof.Machine.execInstructionRetire q s
  | .quantumExpiry lid group => Sys2Proof.Machine.execQuantumExpiry lid group s
  | .dieReturn die => Sys2Proof.Machine.execDieReturn die s
  | .heartbeatTimeout sess => Sys2Proof.Machine.execHeartbeatTimeout sess s
  | .supplyLoss => Sys2Proof.Machine.execSupplyLoss s
  | .softError hit => Sys2Proof.Machine.execSoftError hit s

end Sys2Proof.Machine
end

