-- ==== Sys2Proof/Machine/Engines.lean ====
section
/-! DEFINITION. What happens by itself: the engines, the yards, the tier engines, the security core, power and the farrier engines, in
the order in which the model lets it happen (DESIGN CHOICE, log 2). Each entry is the meaning of a row of the table where its conditions hold. -/

namespace Sys2Proof.Machine

open Sys2Proof

/-- The compute dies are on and firmware runs. -/
def diesOn (s : State) : Bool := secUp s

/-- The dies. -/
def allDies : List (BitVec 2) := [0, 1, 2, 3]

/-- A meaning made where its condition holds. -/
def due (p : State → Bool) (f : State → Out) (s : State) : Option State := if p s then some (stateAfter (f s) s) else none

/-! ## Accesses of other cores (R50) -/

/-- An access of another core carried out at the page of the state's task, in its frame or in the backing region; nothing is checked any more
(R50). The record of an arrival that the object refuses is the other core's (R101; DESIGN CHOICE, log 1). -/
def peerPerform (s : State) (a : PeerAccess) : State :=
  let put := fun (size v : Nat) =>
    match taskByte s a.addr.toNat with
    | some k => writeKey s k size v 0
    | none => s
  match a.op with
  | .store n v => put (2 ^ n.toNat) (v.toNat % 2 ^ (8 * 2 ^ n.toNat))
  | .arrive c =>
    match taskByte s a.addr.toNat with
    | none => s
    | some k =>
      match barArrive c.toNat 0 (barAt s k) with
      | .ok b => put 16 b.toBits
      | .errored b => put 16 b.toBits
      | .refused => s
      | .discarded => s

/-- The oldest access of another core performs, at the page of this core's task or of a saved one (R50). -/
def arrivalStep (s : State) : Option State :=
  match s.pkg.arrivals with
  | [] => none
  | a :: rest =>
    let s1 := s.withPkg { s.pkg with arrivals := rest }
    some ((onTasks (fun v =>
      if v.task.ident.lid == a.lid && v.task.ident.taskId == a.task && decide (v.core.run ≠ .idle) then some (peerPerform v a) else none) s1).getD s1)

/-! ## The core -/

/-- SEQUENCER_HALT, PREEMPT_REQUEST for an offer of YIELD, SAVE_IMAGE_COMPLETE. -/
def haltEvents : List (State → Option State) :=
  allSeqs.map (fun q s => haltStep s q) ++
    [ fun s => firstSome (fun (l : Launch) => firstSome (fun (g : Group) => if g.yieldTo then requestStep s l.lid g.num else none) l.groups) s.pkg.launches,
      saveOwn,
      fun s => firstSome (fun (p : Peer) => savePeer s p.core) s.pkg.peers ]

/-- ERET of the firmware context, DRAIN_AND_CLEAR, PLANE_LOAD_COMPLETE, TASK_DISPATCH, PLANE_FLIP, SUCCESSOR_START, TASK_DRAIN_POINT,
SCRATCH_REFILL, DEADLOCK_DETECT. A peer's drain point comes from outside (DESIGN CHOICE, log 1). -/
def taskEvents : List (State → Option State) :=
  [ firmwareStep,
    drainClearStep,
    loadStep,
    fun s => match s.core.next with | some i => dispatchOwn s i.lid i.taskId | none => none,
    fun s => firstSome (fun (p : Peer) => if p.core = s.core.coreId then none else dispatchStep s p.core p.lid p.task) s.pkg.peers,
    flipStep,
    successorStep,
    drainOwn,
    fun s => firstSome (fun q => match (s.seq q).stall with | some (.page p) => refillStep s p | _ => none) allSeqs,
    deadlockStep ]

/-- One event of an attention request (R162, R163, R318). -/
def attEvent (s : State) (id : Nat) : Option State :=
  match attqLate s id with
  | some s1 => some s1
  | none =>
    match firstSome (fun i => attqConsume s id i) (upTo 512) with
    | some s1 => some s1
    | none => attqDone s id

/-- The attention requests of the running task and of saved ones. -/
def attIds (s : State) : List Nat := (s.task.atts ++ s.pkg.images.flatMap (fun i => i.task.atts)).map AttReq.id

/-- The events of the engines and of sleeping sequencers. A held stamped operation issues or misses in C's own turn, and a fault of a sleeping
instruction is taken in its sequencer's (R223). -/
def engineEvents : List (State → Option State) :=
  [ fun s => (matStep s).map State.drawn,
    mkevStep,
    fun s => (copyLeaving s).map (fun c => s.withTask (s.task.updCopy c.id (fun c => { c with accepted := true }))),
    fun s => (onTasks (fun v => firstSome (fun (c : CopyCmd) => copyStep v c.id) v.task.copies) s).map State.drawn,
    onTasks (fun v => firstSome (fun (c : CopyCmd) => copyDone v c.id) v.task.copies),
    fun s => firstSome (fun (j : StreamJob) => (streamStep s j.id).map State.drawn) s.task.jobs,
    onTasks deferredStep,
    fun s => firstSome (attEvent s) (attIds s) ] ++
  allSeqs.flatMap (fun q =>
    [ fun s => waitmStep s q false, fun s => waitmStep s q true, fun s => bwaitStep s q, fun s => bwaitExpire s q, fun s => ringStep s q,
      fun s => ringExpire s q, fun s => twaitStep s q false, fun s => twaitStep s q true, fun s => waittStep s q ])

/-! ## The yards -/

/-- STAGEMAX_EXPIRY is due. -/
def stagemaxDue (s : State) (l : Launch) : Bool :=
  decide (l.state = .staging) && l.code.isNone && readyInOrder s l && decide ((s.pkg.yards.get l.queueDie).stageMax.toNat ≤ (s.time - l.since).toNat)

/-- The events of the yards. -/
def yardEvents : List (State → Option State) :=
  allDies.map (fun d s => logStep s d) ++
    [ trapResume,
      fun s => firstSome (fun (l : Launch) => completeStep s l.lid) s.pkg.launches,
      fun s => firstSome (fun d => firstSome (fun (x : Queue) =>
        if pollDue s d x then some (stateAfter (execQueuePollTimer d x.num s) s) else none) (s.pkg.yards.get d).queues) allDies,
      fun s => firstSome (fun (l : Launch) => depStep s l.lid) s.pkg.launches,
      fun s => firstSome (fun (l : Launch) => stagedStep s l.lid) s.pkg.launches,
      fun s => firstSome (fun (l : Launch) => if stagemaxDue s l then some (stateAfter (execStagemaxExpiry l.lid s) s) else none) s.pkg.launches,
      fun s => firstSome (fun (l : Launch) => if (demandHeld s l.lid).any (demandOver s) then some (rewalk s l.lid) else none) s.pkg.launches,
      fun s => firstSome (fun (l : Launch) => firstSome (fun (g : Group) =>
        if quantumDue s l g then some (stateAfter (execQuantumExpiry l.lid g.num s) s) else none) l.groups) s.pkg.launches,
      fun s => firstSome (fun d => if s.pkg.launches.any (fun l => l.queueDie == d && !decide (ageLaunch s l = l)) then
        some (stateAfter (execAgingTick d s) s) else none) allDies,
      fun s => (nextServed s).bind (fun p => serve s p.1 p.2) ]

/-! ## The security core and the loft -/

/-- What the cells of a row do under pulses, where no outside party says: a free value (R432; DESIGN CHOICE, log 3, 20). -/
def freePulse (s : State) (d : BitVec 2) : PulseResult :=
  let w := (Config.freeWord s.freeCtr (2 ^ 40 + d.toNat)).toNat
  { pulses := w % 8 + 1, ok := bitAt w 3, sparePulses := bitsOf w 4 3 + 1, spareOk := bitAt w 7 }

/-- A command carried out by its meaning. -/
def runCommand (s : State) (x : LaneCmd) : State :=
  let c := x.cmd
  let o : Out :=
    match x.op.toNat with
    | 0x01 => execFassign c s
    | 0x02 => execFrelease c s
    | 0x03 => execMapset c s
    | 0x04 => execHcreate c s
    | 0x05 => execHretire c s
    | 0x06 => execWcreate c s
    | 0x07 => execWdestroy c s
    | 0x08 => execKrevoke c s
    | 0x09 => execExportWorld c s
    | 0x0A => execImportWorld c s
    | 0x0B => execWstat c s
    | 0x0C =>
      (match secWord c 2 % 4 with
       | 0 => execPstateActive c s
       | 1 => execPstateBreeze c s
       | 2 => execPstateLull c s
       | _ => execPstateCalm c s)
    | 0x10 => execLgrant c s
    | 0x11 => execLprog c s
    | 0x12 => execLzero c s
    | 0x13 => execLhash c s
    | _ => execLwear c s
  stateAfter o s

/-- A command that has begun can go on. -/
def mayGoOn (s : State) (x : LaneCmd) : Bool :=
  match x.op.toNat with
  | 0x03 => s.pkg.shootdowns.isEmpty
  | 0x05 => !handleHeld s (secWorld x.cmd) (secWord x.cmd 3)
  | 0x08 => !migrationOpen s (secWorld x.cmd)
  | 0x0A => (worldOf s (secWorld x.cmd)).key.isSome
  | 0x0C => (lullStep s).isSome
  | _ => false

/-- The head of a lane begins or goes on. -/
def laneStep (s : State) (lane : Nat) : Option State :=
  match laneHead s lane with
  | some x => if x.phase = 0 || mayGoOn s x then some (runCommand s x) else none
  | none => none

/-- The events of the security core, the loft programming engines and the tier engines. -/
def firmwareEvents : List (State → Option State) :=
  [ shootStep, acceptStep ] ++ (upTo 5).map (fun n s => laneStep s n) ++
    allDies.map (fun d s => (lpeStep s d (freePulse s d)).map (fun t => { t with freeCtr := t.freeCtr + 1 })) ++
    allDies.map (fun d s => switchStep s d) ++ allDies.map (fun d s => (tierStep s d).map (fun t => { t with freeCtr := t.freeCtr + 1 })) ++
    [ fun s => firstSome (fun (p : BitVec 2 × Nat) => if s.pkg.loft.refresh.get p.1 = some p.2 then none else refreshStep s p.1 p.2) s.pkg.farrier.weak,
      fun s => firstSome (fun d => (s.pkg.loft.refresh.get d).bind (refreshStep s d)) allDies ]

/-! ## Power, management and repair -/

/-- The ticks between two lines of the patrol scrubber: 24 hours over every line of the four dies (R458). -/
def scrubTicks : Nat := 16763

/-- The place of a line in the scrubber's round. -/
def scrubIndex (line : Nat) : Nat := line / 2 ^ 33 * (384 * 2 ^ 23) + line % 2 ^ 33

/-- The scrubber is behind its round. -/
def scrubDue (s : State) : Bool := s.time.toNat / scrubTicks % (4 * (384 * 2 ^ 23)) != scrubIndex s.pkg.scrubPos

/-- The ticks between two samples of telemetry: 100 ms (R465). -/
def sampleTicks : Nat := 250000000

/-- A dispatch or a resume waits for the bus that a farrier engine holds (R460). -/
def busWanted (s : State) (c : Nat) : Bool :=
  (upTo 4).any (fun k => coreBusy s (c * 4 + k)) || (serviceOrder s).any (fun p => (resumeBlocked s p.1 p.2).contains c)

/-- The events of power, sessions, repair and telemetry. -/
def powerEvents : List (State → Option State) :=
  [ fun s => if decide (s.pkg.power.toLull) && !s.pkg.security.queue.any (fun x => x.op == opPstate && x.phase == 1) then lullStep s else none,
    fun s => (s.pkg.farrier.claimed.find? (busWanted s)).map (fun c =>
      stateAfter (execFarrierYield (BitVec.ofNat 2 (c / 128)) (BitVec.ofNat 7 c) s) s),
    claimStep,
    retrainStep,
    due (fun s => decide (capPatience ≤ s.pkg.power.overMs) && (islandToFree s).isSome) execCapExcessPreempt,
    fun s => (s.pkg.security.sessions.find? (fun x => decide (heartbeatTicks ≤ (s.time - x.beat).toNat))).map (fun x =>
      stateAfter (execHeartbeatTimeout x.id s) s),
    due (fun s => portUp s && decide (sampleTicks ≤ (s.time - s.pkg.telemetry.sampled).toNat)) execTelemetrySample,
    due scrubDue execPatrolScrub,
    due breezeDue execBreezeEntry ]

/-- The next thing that happens by itself, if anything does (DESIGN CHOICE, log 2). -/
def nextInternal (s : State) : Option State :=
  if diesOn s then firstSome (fun f => f s) ([due wakeDue execBreezeWake, arrivalStep] ++ haltEvents ++ taskEvents ++ engineEvents ++ yardEvents ++ firmwareEvents ++ powerEvents)
  else if portUp s then acceptStep s
  else none

end Sys2Proof.Machine
end

