-- ==== Sys2Proof/Machine/Fetch.lean ====
section
/-! DEFINITION. Fetching and decoding a sequencer's next instruction (R16, R166, R167), and the turns of the machine (DESIGN CHOICE, log 2). -/

namespace Sys2Proof.Machine

open Sys2Proof

/-- The bytes of instruction memory (R15). -/
def imBytes : Nat := 0x8000

/-- The words after the one at `pc`, at most four, as far as instruction memory goes (R16, R166). -/
def followers (p : Plane) (q : SeqId) (pc : Nat) : Nat → List Word32
  | 0 => []
  | n + 1 => if pc + 4 < imBytes then p.word q (pc + 4) :: followers p q (pc + 4) n else []

/-- A fault at a word that is no instruction of `q`: its record holds a body and an origin (R229). -/
def faultWord (s : State) (q : SeqId) (cause : BitVec 8) (body : BitVec 256) (origin : Word64) : State :=
  faultPrecise s q (.retiredConversion 0) { cause := cause, addr := 0, body := some body, origin := some origin, progress := 0 }
    (s.seq q).popped 0

/-- The literals that a word announces: the second word of AMO is none (R168). -/
def literalCount (w : Word32) : Nat := if w.extractLsb 31 26 = 0x15#6 then 0 else announced w

/-- A fault at a word that is not a template's: BODY holds it with the literals that it announces, as far as they lie in memory (R229). -/
def faultBase (s : State) (q : SeqId) (w : Word32) (ls : List Word32) (cause : BitVec 8) : State :=
  faultWord s q cause (BitVec.ofNat 256 (packBits 32 (w.toNat :: (ls.take (literalCount w)).map BitVec.toNat))) 0

/-- A fault at a PC past the memory, where there is no word: R229 gives BODY no value, so it is free (DESIGN CHOICE, log 3). -/
def faultPast (s : State) (q : SeqId) : State :=
  { faultWord s q causeIllegalInstr (refusedBody s) 0 with freeCtr := s.freeCtr + 1 }

/-- A patch word off C, or one whose literals pass the end of memory, which comes first (R167); the record holds the amended template and the patch
word (R229). -/
def faultPatch (s : State) (q : SeqId) (w : Word32) (ls : List Word32) : State :=
  let f := w.extractLsb 21 16
  let ok := (Instr.patchWord (w.extractLsb 29 24) (w.extractLsb 23 22) f (w.extractLsb 15 0) ls).wellFormed && decide (amendWords f ≤ ls.length)
  let t := patchRecord s (w.extractLsb 29 24) f (w.extractLsb 15 0) ls
  let n := if ok then patchWords f t else amendWords f
  let body := if ok then t.toBits else refusedBody s
  let origin := instrOrigin (.mma { patch := w, lits := ls.take (amendWords f), tpl := t })
  { faultWord s q (if pastMemory (s.seq q).pc.toNat n ls.length then causeIllegalInstr else causeSeqIllegal) body origin with freeCtr := s.freeCtr + 1 }

/-- A word of the instruction at the PC of `q` fails correction in its instruction memory (R226, R458). -/
def imBroken (s : State) (q : SeqId) (pc : Nat) : Bool :=
  s.task.broken.any (fun b => (upTo (widthAt s.plane q pc)).any (fun i => decide (b = .imWord q (pc / 4 + i))))

/-- Sequencer `q` fetches the instruction at its PC and reaches it, with the checks of R167 in their order; words that fail correction come
before what they say. -/
def fetchStep (s : State) (q : SeqId) : Out :=
  if !canIssue s q then .next s
  else
    match heldFault s q (fun _ => false) with
    | some (s1, r) => .next (faultDeliver s1 q r (s.seq q).popped)
    | none =>
      let pc := (s.seq q).pc.toNat
      if imBytes ≤ pc then .next (faultPast s q)
      else
        let w := s.plane.word q pc
        let ls := followers s.plane q pc 4
        if imBroken s q pc then .next (faultWord s q causeDataUncorrectable 0 0)
        else if w.extractLsb 31 30 = 3#2 ∧ (q ≠ .C ∨ ls.length < announced w) then .next (faultPatch s q w ls)
        else if ls.length < announced w then .next (faultBase s q w ls causeIllegalInstr)
        else if 0x1E ≤ (w.extractLsb 31 26).toNat ∧ (w.extractLsb 31 26).toNat ≤ 0x2E then .next (faultBase s q w ls causeIllegalInstr)
        else if !seqAllowed w q then .next (faultBase s q w ls causeSeqIllegal)
        else
          match decodeWord w ls with
          | some (i, _) => exec i { s with cur := q }
          | none => .next (faultBase s q w ls causeIllegalInstr)

/-- A term that is an event of the table, not an instruction of a sequencer. -/
def isEvent (i : Instr) : Bool := (encode i).isEmpty

/-- The turn after a sequencer's. -/
def nextTurn : SeqId → Turn
  | .S => .seq .L
  | .L => .seq .C
  | .C => .seq .W
  | .W => .engines

/-- A state with another turn. -/
def State.withTurn (s : State) (t : Turn) : State := { s with turn := t }

/-- The outcome with the turn set. -/
def thenTurn (o : Out) (t : Turn) : Out :=
  match o with
  | .next s => .next (s.withTurn t)
  | .fault r => .fault r
  | .refused r => .refused r

/-- The package has neither supply nor, in calm, anything that runs (R13, R449). -/
def off (s : State) : Bool := !s.pkg.power.supply || decide (s.pkg.power.state = .calm)

/-- A fault that a sleeping instruction of `q` meets in this cycle: it is taken in the turn of `q`, in the order of R223. -/
def sleeperFault (s : State) (q : SeqId) : Option State :=
  match firstSome (fun (f : State → Option State) => f s)
      [fun s => waitmStep s q false, fun s => bwaitStep s q, fun s => bwaitExpire s q, fun s => ringStep s q, fun s => ringExpire s q] with
  | some t => if t.core.run = .stopped then some t else none
  | none => none

/-- One turn of the machine where no event from outside waits. -/
def turnStep (s : State) : Out :=
  match s.turn with
  | .seq q => thenTurn (match sleeperFault s q with | some t => .next t | none => fetchStep s q) (nextTurn q)
  | .engines =>
    match nextInternal s with
    | some t => .next t
    | none => .next (s.withTurn .tick)
  | .tick => thenTurn (execTimeTick s) (.seq .S)

/-- One step (DESIGN CHOICE, log 2): the oldest event from outside, or, with the power on and the boot not failed, the next turn. -/
def machineStep (s : State) : Out :=
  match s.inputs with
  | i :: rest => if isEvent i then exec i { s with inputs := rest } else .refused .notAnEvent
  | [] =>
    if off s then .fault .poweredOff
    else if s.pkg.power.boot = .failed then .fault .bootHalted
    else turnStep s

/-! ## Placing an instruction -/

/-- The sequencer on which the word may issue (R17, R175). -/
def seqFor (w : Word32) : SeqId :=
  if w.extractLsb 31 30 = 3#2 then .C
  else if seqAllowed w .S then .S else if seqAllowed w .L then .L else if seqAllowed w .C then .C else .W

/-- The words of an instruction stored at the start of an instruction memory (R166). -/
def imWith (fill : Word32) (l : List (Nat × Word32)) (w : Nat) : List (Nat × Word32) :=
  cellPut fill (cellPut fill (cellPut fill (cellPut fill (cellPut fill l 0 (BitVec.ofNat 32 w)) 1 (BitVec.ofNat 32 (w / 2 ^ 32)))
    2 (BitVec.ofNat 32 (w / 2 ^ 64))) 3 (BitVec.ofNat 32 (w / 2 ^ 96))) 4 (BitVec.ofNat 32 (w / 2 ^ 128))

/-- The state with that instruction at word 0 of the active plane for a sequencer that may issue it, the core running a task
in which that sequencer is present, and its turn next: what the yard's loader and dispatch leave (R32, R382; DEDUCED, log 7). -/
def placeWord (s : State) (w : Nat) : State :=
  let q := seqFor (BitVec.ofNat 32 w)
  let p := s.plane
  let s1 := s.withPlane { p with im := p.im.set q.num (imWith p.fill (p.im.get q.num) w) }
  let s2 := s1.withSeq q { s1.seq q with present := true, exited := false, halted := false, pc := 0 }
  { s2 with core := { s2.core with run := .running }, turn := .seq q, cur := q, inputs := [] }

end Sys2Proof.Machine
end

