-- ==== Sys2Proof/Machine/Step.lean ====
section
/-! DEFINITION. One step of the machine, and placing an instruction for it. -/

namespace Sys2Proof.Machine

open Sys2Proof

/-- One step (DESIGN CHOICE, log 2). -/
def step (s : State) : Host.Outcome State Fault Refusal := machineStep s

/-- The state in which the next step fetches and runs the given instruction (DEDUCED, log 7). -/
def State.withFetchWord (s : State) (_nbits w : Nat) : State := placeWord s w

end Sys2Proof.Machine
end

