-- ==== Sys2Proof/Safety.lean ====
section
/-! DEFINITION. What counts as a safe state, and when an instruction is free to issue, in the terms that claims use. -/

namespace Sys2Proof

open Machine

/-! ## Invariants -/

/-- Memory keeps its canonical form. -/
def Safety.memOk (s : State) : Prop := Memory.wf s.mem = true

/-- The register that reads zero holds zero, without poison, in every sequencer of the running task (R15). -/
def Safety.zeroOk (s : State) : Prop := ∀ q : SeqId, (s.seq q).x.get 0 = 0 ∧ (s.seq q).xPoison.get 0 = none

/-! ## An instruction that nothing holds back -/

/-- The pop of an instruction, where it still has one to make, finds a token of value 1 (R20). -/
def popReady (s : State) (q : SeqId) (i : Instr) : Bool :=
  match instrTokens i with
  | some (tk, peer) =>
    if tk.getLsbD 0 && !(s.seq q).popped then
      match popFifo s.task q peer with
      | [] => false
      | hd :: _ => hd.filled && popValue s.task q peer hd
    else true
  | none => true

/-- The sequencer's block is known to the scoreboard, and the step's free values are its own (R205; DESIGN CHOICE, log 3). -/
def armed (s : State) (q : SeqId) : State := { s.withSeq q (armIf (s.seq q)) with freeCtr := s.freeCtr + 1 }

/-- The state in which the effect of an instruction is carried out: its pop made (R20). -/
def reached (s : State) (q : SeqId) (i : Instr) : State :=
  let s1 := armed s q
  match instrTokens i with
  | some (tk, peer) =>
    if tk.getLsbD 0 && !(s.seq q).popped then popFences (s1.withTask (dropToken s1.task q peer)) q else s1
  | none => s1

/-- Whether the instruction holds a pop when its effect is carried out. -/
def holdsPop (s : State) (q : SeqId) (i : Instr) : Bool :=
  match instrTokens i with
  | some (tk, _) => tk.getLsbD 0 || (s.seq q).popped
  | none => (s.seq q).popped

/-- The place of the instruction is legal: no branch, LOOP or other excluded instruction in a delay slot or at a loop end, and no delay
slot at a loop end (R208, R210); and no storage that it reads fails correction (R226). -/
def placeLegal (s : State) (q : SeqId) (i : Instr) : Bool :=
  let sq := s.seq q
  !readsBroken s.task q i && !(decide (sq.delay.owed ≠ 0) && noSlot i) &&
    !((noEnd i || decide (sq.delay.owed ≠ 0)) && !(endingLoops sq sq.pc.toNat (sq.pc.toNat + 4 * instrWords i)).isEmpty)

/-- Sequencer `q` reaches instruction `i` and nothing holds it back: the sequencer runs (R33, R42), no result is late (R22), no held
fault is due (R89, R247), the sequencer may issue it and its fields are legal (R167, R175, R176), no covered destination is named (R205),
its push has a slot (R20), its pop finds a 1 (R20), and its place is legal (R208, R210). -/
def readyOn (s : State) (q : SeqId) (i : Instr) : Bool :=
  canIssue s q && !boundMissed s q && (heldFault s q (ordersWrite s.task q i)).isNone &&
    seqMayIssue i q && i.wellFormed && pushLegal i && seqFieldsOk i q &&
    !coveredHit (armed s q).task q (instrLocs q i) && !(pushTokens i && fencedPoint (armed s q) q) && pushRoom s q i &&
    popReady s q i && placeLegal s q i

/-- The same for the sequencer under step. -/
def ready (s : State) (i : Instr) : Bool := readyOn s s.cur i

/-- The state with which the instruction meets its effect. -/
def met (s : State) (i : Instr) : State := reached s s.cur i

/-- The state after instruction `i` of sequencer `q` has issued from `t`, its effect on the state made: its push reserved, its
destinations in flight with their bound, ISSUECNT counted, the sequencer advanced (R20, R22, R212). -/
def issuedOn (s : State) (q : SeqId) (i : Instr) (t : State) (bound : Nat) (writes : List Write) (flow : Flow) : State :=
  perform t q i (holdsPop s q i) (.done t bound writes flow)

/-- The same for the sequencer under step, where the effect is on destinations alone. -/
def issued (s : State) (i : Instr) (bound : Nat) (writes : List Write) : State :=
  issuedOn s s.cur i (met s i) bound writes .next

/-- The same, the effect on the state being `t`. -/
def issuedAt (s : State) (i : Instr) (t : State) (bound : Nat) (writes : List Write) : State :=
  issuedOn s s.cur i t bound writes .next

/-- The x register that an instruction reads holds no poison (R226). -/
def cleanX (s : State) (i : Instr) (r : BitVec 4) (tag : Nat) : Bool := ((met s i).readX s.cur r tag).2.isNone

/-- The value that an instruction reads of an x register (R22, R23). -/
def xVal (s : State) (i : Instr) (r : BitVec 4) (tag : Nat) : Word64 := ((met s i).readX s.cur r tag).1

/-- A second operand holds no poison. -/
def cleanSrc (s : State) (i : Instr) (b : Src) (tag : Nat) : Bool :=
  match b with
  | .reg r => cleanX s i r tag
  | .lit32 _ => true
  | .lit64 _ => true

/-- The value of a second operand: a register, or its literal, one word being sign-extended (R169). -/
def srcVal (s : State) (i : Instr) (b : Src) (tag : Nat) : Word64 :=
  match b with
  | .reg r => xVal s i r tag
  | .lit32 w => w.signExtend 64
  | .lit64 w => w

end Sys2Proof
end

