-- ==== Sys2Proof/Certificates/Slice0/Obligations.lean ====
section
/-! DEFINITION. The statements of this slice, one proposition each, with the rows and the words they are stated in. A statement of
several claims is their conjunction. -/

open Sys2Proof Machine

/-! ## Rows: each instruction of a shape with its bound and what the spec says it computes -/

/-- A two-operand ALU instruction, its bound (R187) and its function (R198). -/
abbrev AluRow := (Tok → BitVec 4 → BitVec 4 → Src → Instr) × Nat × (Word64 → Word64 → Word64)

/-- Sums, bit operations and shifts (R198). -/
def aluBasic : List AluRow :=
  [ (Instr.add, 1, fun a b => a + b),
    (Instr.sub, 1, fun a b => a - b),
    (Instr.and, 1, fun a b => a &&& b),
    (Instr.or, 1, fun a b => a ||| b),
    (Instr.xor, 1, fun a b => a ^^^ b),
    (Instr.andn, 1, fun a b => a &&& ~~~b),
    (Instr.sll, 1, fun a b => a <<< (b.toNat % 64)),
    (Instr.srl, 1, fun a b => a >>> (b.toNat % 64)),
    (Instr.sra, 1, fun a b => a.sshiftRight (b.toNat % 64)) ]

/-- Rotation, products and quotients (R198, R199). -/
def aluMulDiv : List AluRow :=
  [ (Instr.rol, 1, fun a b => a.rotateLeft (b.toNat % 64)),
    (Instr.mul, 3, fun a b => a * b),
    (Instr.mulh, 3, fun a b => BitVec.ofInt 64 (a.toInt * b.toInt / 2 ^ 64)),
    (Instr.mulhu, 3, fun a b => BitVec.ofNat 64 (a.toNat * b.toNat / 2 ^ 64)),
    (Instr.div, 20, fun a b => if b = 0 then BitVec.allOnes 64 else BitVec.ofInt 64 (a.toInt.tdiv b.toInt)),
    (Instr.divu, 20, fun a b => if b = 0 then BitVec.allOnes 64 else BitVec.ofNat 64 (a.toNat / b.toNat)),
    (Instr.rem, 20, fun a b => if b = 0 then a else BitVec.ofInt 64 (a.toInt.tmod b.toInt)),
    (Instr.remu, 20, fun a b => if b = 0 then a else BitVec.ofNat 64 (a.toNat % b.toNat)) ]

/-- Minima and maxima, scaled sums, fields and the word sum (R198). -/
def aluMore : List AluRow :=
  [ (Instr.min, 1, fun a b => if a.toInt ≤ b.toInt then a else b),
    (Instr.max, 1, fun a b => if a.toInt ≤ b.toInt then b else a),
    (Instr.minu, 1, fun a b => if a.toNat ≤ b.toNat then a else b),
    (Instr.maxu, 1, fun a b => if a.toNat ≤ b.toNat then b else a),
    (Instr.addsh1, 1, fun a b => a + (b <<< 1)),
    (Instr.addsh2, 1, fun a b => a + (b <<< 2)),
    (Instr.addsh3, 1, fun a b => a + (b <<< 3)),
    (Instr.addsh4, 1, fun a b => a + (b <<< 4)),
    (Instr.bext, 1, fun a b => BitVec.ofNat 64 (a.toNat / 2 ^ (b.toNat % 64) % 2 ^ Nat.min (b.toNat / 2 ^ 8 % 2 ^ 7) 64)),
    (Instr.addw, 1, fun a b => ((a + b).truncate 32).signExtend 64) ]

/-- Every ALU instruction with two operands but BINS. -/
def aluRows : List AluRow := aluBasic ++ aluMulDiv ++ aluMore

/-- ALU instructions with one operand, and those with a six-bit shift count (R198, R200). -/
def aluOneRows : List ((Tok → BitVec 4 → BitVec 4 → Instr) × (Word64 → Word64)) :=
  [ (Instr.clz, fun a => BitVec.ofNat 64 (if a = 0 then 64 else 63 - Nat.log2 a.toNat)),
    (Instr.ctz, fun a => BitVec.ofNat 64 ((List.range 64).takeWhile (fun n => !a.getLsbD n)).length),
    (Instr.popc, fun a => BitVec.ofNat 64 ((List.range 64).filter (fun n => a.getLsbD n)).length),
    (Instr.sextb, fun a => (a.truncate 8).signExtend 64),
    (Instr.sexth, fun a => (a.truncate 16).signExtend 64),
    (Instr.sextw, fun a => (a.truncate 32).signExtend 64),
    (Instr.zextw, fun a => (a.truncate 32).zeroExtend 64) ]

/-- Instructions with a 14-bit immediate, sign-extended, with their bounds (R170, R187, R200). -/
def immRows : List ((Tok → BitVec 4 → BitVec 4 → BitVec 14 → Instr) × Nat × (Word64 → Word64 → Word64)) :=
  [ (Instr.addi, 1, fun a n => a + n),
    (Instr.andi, 1, fun a n => a &&& n),
    (Instr.ori, 1, fun a n => a ||| n),
    (Instr.xori, 1, fun a n => a ^^^ n),
    (Instr.muli, 3, fun a n => a * n) ]

/-- Shifts by an immediate count (R170, R200). -/
def shiftImmRows : List ((Tok → BitVec 4 → BitVec 4 → BitVec 6 → Instr) × (Word64 → Nat → Word64)) :=
  [ (Instr.slli, fun a n => a <<< n),
    (Instr.srli, fun a n => a >>> n),
    (Instr.srai, fun a n => a.sshiftRight n) ]

/-- The condition that a code names (R201). -/
def condRule (c : BitVec 3) (a b : Word64) : Bool :=
  match c.toNat with
  | 0 => a == b
  | 1 => a != b
  | 2 => decide (a.toInt < b.toInt)
  | 3 => decide (b.toInt ≤ a.toInt)
  | 4 => decide (a.toNat < b.toNat)
  | 5 => decide (b.toNat ≤ a.toNat)
  | 6 => (a &&& b) != 0
  | _ => (a &&& b) == 0

/-- The flag instructions with two flags (R202). -/
def flagTwoRows : List ((Tok → BitVec 3 → BitVec 3 → BitVec 3 → Instr) × (BitVec 1 → BitVec 1 → BitVec 1)) :=
  [ (Instr.flagAnd, fun a b => a &&& b), (Instr.flagOr, fun a b => a ||| b), (Instr.flagXor, fun a b => a ^^^ b) ]

/-- The flag instructions with one flag (R202). -/
def flagOneRows : List ((Tok → BitVec 3 → BitVec 3 → Instr) × (BitVec 1 → BitVec 1)) :=
  [ (Instr.flagNot, fun a => ~~~a), (Instr.flagMov, fun a => a) ]

/-- The flag instructions without a source (R202). -/
def flagSetRows : List ((Tok → BitVec 3 → Instr) × BitVec 1) := [ (Instr.flagSet, 1), (Instr.flagClr, 0) ]

/-- The tests of a 64-bit mask (R203). -/
def maskTestRows : List ((Tok → BitVec 3 → BitVec 4 → Instr) × (BitVec 64 → Bool)) :=
  [ (Instr.vany, fun m => m != 0), (Instr.vall, fun m => m == BitVec.allOnes 64), (Instr.vnone, fun m => m == 0) ]

/-- The value that an instruction reads of a flag (R22, R23). -/
def fVal (s : State) (i : Instr) (r : BitVec 3) (tag : Nat) : BitVec 1 := (met s i).readF s.cur r tag

/-- The bit of a condition. -/
def flagOf (b : Bool) : BitVec 1 := if b then 1 else 0

/-! ## Scalar arithmetic -/

/-- R198 and R199: from every state in which nothing holds the instruction back and its sources hold no poison, each two-operand ALU
instruction issues with the result of its row in flight towards xD. -/
def Claims.AluTwoOperands : Prop :=
  ∀ r ∈ aluRows, ∀ (s : State) (k : Tok) (d a : BitVec 4) (b : Src), ready s (r.1 k d a b) = true →
    cleanX s (r.1 k d a b) a 0 = true → cleanSrc s (r.1 k d a b) b 1 = true →
    exec (r.1 k d a b) s =
      .next (issued s (r.1 k d a b) r.2.1 [.x d (r.2.2 (xVal s (r.1 k d a b) a 0) (srcVal s (r.1 k d a b) b 1)) none])

/-- R198: BINS replaces bits [pos + len - 1 : pos] of d by the low bits of a, as far as bit 63; it reads xD as a source. -/
def Claims.BinsReplacesField : Prop :=
  ∀ (s : State) (k : Tok) (d a : BitVec 4) (b : Src), let i := Instr.bins k d a b
    ready s i = true → cleanX s i d 2 = true → cleanX s i a 0 = true → cleanSrc s i b 1 = true →
    ∃ v : Word64, exec i s = .next (issued s i 1 [.x d v none]) ∧
      ∀ n < 64, v.getLsbD n =
        (let pos := (srcVal s i b 1).toNat % 64
         let len := Nat.min ((srcVal s i b 1).toNat / 2 ^ 8 % 2 ^ 7) 64
         if pos ≤ n ∧ n < pos + len then (xVal s i a 0).getLsbD (n - pos) else (xVal s i d 2).getLsbD n)

/-- R198: the one-operand ALU instructions. -/
def Claims.AluOneOperand : Prop :=
  ∀ r ∈ aluOneRows, ∀ (s : State) (k : Tok) (d a : BitVec 4), ready s (r.1 k d a) = true → cleanX s (r.1 k d a) a 0 = true →
    exec (r.1 k d a) s = .next (issued s (r.1 k d a) 1 [.x d (r.2 (xVal s (r.1 k d a) a 0)) none])

/-- R170 and R200: the immediate forms, with the immediate sign-extended, and the shifts by an immediate count. -/
def Claims.AluImmediate : Prop :=
  (∀ r ∈ immRows, ∀ (s : State) (k : Tok) (d a : BitVec 4) (n : BitVec 14), ready s (r.1 k d a n) = true →
    cleanX s (r.1 k d a n) a 0 = true →
    exec (r.1 k d a n) s = .next (issued s (r.1 k d a n) r.2.1 [.x d (r.2.2 (xVal s (r.1 k d a n) a 0) (n.signExtend 64)) none])) ∧
  (∀ r ∈ shiftImmRows, ∀ (s : State) (k : Tok) (d a : BitVec 4) (n : BitVec 6), ready s (r.1 k d a n) = true →
    cleanX s (r.1 k d a n) a 0 = true →
    exec (r.1 k d a n) s = .next (issued s (r.1 k d a n) 1 [.x d (r.2 (xVal s (r.1 k d a n) a 0) n.toNat) none]))

/-- R201 and R203: the compares set the flag of their condition, CMPI with its immediate sign-extended even before an unsigned
comparison; VANY, VALL and VNONE test a lane mask on C and an x register elsewhere. -/
def Claims.CompareSetsFlag : Prop :=
  (∀ (s : State) (k : Tok) (f c : BitVec 3) (a : BitVec 4) (b : Src), let i := Instr.cmp k f a b c
    ready s i = true → cleanX s i a 0 = true → cleanSrc s i b 1 = true →
    exec i s = .next (issued s i 1 [.flag f (flagOf (condRule c (xVal s i a 0) (srcVal s i b 1)))])) ∧
  (∀ (s : State) (k : Tok) (f c : BitVec 3) (a : BitVec 4) (n : BitVec 12), let i := Instr.cmpi k f c a n
    ready s i = true → cleanX s i a 0 = true →
    exec i s = .next (issued s i 1 [.flag f (flagOf (condRule c (xVal s i a 0) (n.signExtend 64)))])) ∧
  (∀ r ∈ maskTestRows, ∀ (s : State) (k : Tok) (f : BitVec 3) (a : BitVec 4), ready s (r.1 k f a) = true →
    (if s.cur = .C then
      exec (r.1 k f a) s = .next (issued s (r.1 k f a) 1 [.flag f (flagOf (r.2 ((met s (r.1 k f a)).readM (a.truncate 3) 0)))])
     else cleanX s (r.1 k f a) a 0 = true →
      exec (r.1 k f a) s = .next (issued s (r.1 k f a) 1 [.flag f (flagOf (r.2 (xVal s (r.1 k f a) a 0)))])))

/-- R202: the flag instructions. -/
def Claims.FlagOperations : Prop :=
  (∀ (s : State) (k : Tok) (d a b : BitVec 4) (f : BitVec 3), let i := Instr.sel k d a b f
    ready s i = true → cleanX s i a 0 = true → cleanX s i b 1 = true →
    exec i s = .next (issued s i 1 [.x d (if fVal s i f 2 = 1 then xVal s i a 0 else xVal s i b 1) none])) ∧
  (∀ r ∈ flagTwoRows, ∀ (s : State) (k : Tok) (d a b : BitVec 3), ready s (r.1 k d a b) = true →
    exec (r.1 k d a b) s = .next (issued s (r.1 k d a b) 1 [.flag d (r.2 (fVal s (r.1 k d a b) a 0) (fVal s (r.1 k d a b) b 1))])) ∧
  (∀ r ∈ flagOneRows, ∀ (s : State) (k : Tok) (d a : BitVec 3), ready s (r.1 k d a) = true →
    exec (r.1 k d a) s = .next (issued s (r.1 k d a) 1 [.flag d (r.2 (fVal s (r.1 k d a) a 0))])) ∧
  (∀ r ∈ flagSetRows, ∀ (s : State) (k : Tok) (d : BitVec 3), ready s (r.1 k d) = true →
    exec (r.1 k d) s = .next (issued s (r.1 k d) 1 [.flag d r.2])) ∧
  (∀ (s : State) (k : Tok) (d : BitVec 4), let i := Instr.flagRead k d
    ready s i = true → ∃ v : Word64, exec i s = .next (issued s i 1 [.x d v none]) ∧
      ∀ n < 64, v.getLsbD n = (decide (n < 8) && (fVal s i (BitVec.ofNat 3 n) n).getLsbD 0))

/-! ## Special registers, system instructions, branches and loops -/

/-- A precise fault that stops the task: its cause and FADDR, with every byte of memory as it was. -/
def faults (s : State) (i : Instr) (cause : BitVec 8) (addr : Word64) : Prop :=
  ∃ t, exec i s = .next t ∧ t.core.run = .stopped ∧ t.core.firmware = true ∧ t.task.faults.cause.extractLsb 7 0 = cause ∧
    t.task.faults.addr = addr ∧ t.mem = s.mem ∧ (t.seq s.cur).pc = (s.seq s.cur).pc

/-- R211 and the rules it names: the value of each special register as sequencer `q` reads it. -/
def srnHolds (s : State) (q : SeqId) (n : Nat) (v : Word64) : Prop :=
  (n = 0x000 → v = s.pkg.time) ∧
  (n = 0x001 → v = s.task.tofs) ∧
  (n = 0x002 → v = s.task.ident.taskId) ∧
  (n = 0x003 → v = s.core.coreId.zeroExtend 64) ∧
  (n = 0x004 → v = s.task.ident.world.zeroExtend 64) ∧
  (n = 0x005 → v.getLsbD 0 = s.task.active.getLsbD 0 ∧ v.getLsbD 1 = s.core.ready ∧ v.getLsbD 2 = s.core.loading ∧ v.toNat < 8) ∧
  (∀ m : BitVec 3, n = 0x010 + m.toNat → v = (s.task.ident.lvc.get m).zeroExtend 64) ∧
  (∀ m : BitVec 3, n = 0x018 + m.toNat → v = (s.task.ident.lve.get m).zeroExtend 64) ∧
  (n = 0x020 → v = s.task.split.zeroExtend 64) ∧
  (n = 0x021 → v = (s.readFflags 0).zeroExtend 64) ∧
  (n = 0x022 → v = (s.seq q).lvs.zeroExtend 64) ∧
  (n = 0x023 → v = s.task.seed) ∧
  (n = 0x030 → v = s.task.faults.cause) ∧
  (n = 0x031 → v = s.task.faults.pc) ∧
  (n = 0x032 → v = s.task.faults.seq) ∧
  (n = 0x033 → v = s.task.faults.addr) ∧
  (∀ m : BitVec 3, n = 0x034 + m.toNat → v = s.task.faults.snap.get m) ∧
  (∀ m : BitVec 4, n = 0x040 + m.toNat → v = s.task.acct.get m) ∧
  (n = 0x050 → v = (s.seq q).issueCnt.zeroExtend 64)

/-- R211: RDSR reads each special register with bound 1. -/
def Claims.RdsrReads : Prop :=
  ∀ (s : State) (k : Tok) (d : BitVec 4) (n : BitVec 13), let i := Instr.rdsr k d n
    ready s i = true → ∃ v : Word64, exec i s = .next (issued s i 1 [.x d v none]) ∧ srnHolds (met s i) s.cur n.toNat v

/-- A sequencer that may issue the major of an instruction reaches it: it runs, no result is late, no held fault is due (R167). -/
def decoded (s : State) (i : Instr) : Prop :=
  canIssue s s.cur = true ∧ boundMissed s s.cur = false ∧ heldFault s s.cur (ordersWrite s.task s.cur i) = none ∧ seqMayIssue i s.cur = true

/-- R29, R118, R132, R172 and R211: WRSR of LVS takes bits [2:0], of FFLAGS bits [6:0], of SEED the whole value, where 0 stores 1; nothing
else of the state changes. A WRSR of any other register, one of FFLAGS or SEED on S, L or W, and an RDSR or WRSR of an SRN that names no
register, or one from 0x1000 on, raise ILLEGAL_INSTR and change no register. -/
def Claims.WrsrWrites : Prop :=
  (∀ (s : State) (k : Tok) (a : BitVec 4) (n : BitVec 13), let i := Instr.wrsr k a n
    (ready s i = true → cleanX s i a 0 = true →
      (n = 0x022 → exec i s =
        .next (issuedAt s i ((met s i).withSeq s.cur { (met s i).seq s.cur with lvs := (xVal s i a 0).truncate 3 }) 1 [])) ∧
      (n = 0x021 → exec i s =
        .next (issuedAt s i ((met s i).withTask { (met s i).task with fflags := (xVal s i a 0).truncate 7 }) 1 [])) ∧
      (n = 0x023 → exec i s =
        .next (issuedAt s i ((met s i).withTask { (met s i).task with seed := if xVal s i a 0 = 0 then 1 else xVal s i a 0 }) 1 []))) ∧
    (decoded s i → n ≠ 0x022 → (s.cur = .C → n ≠ 0x021 ∧ n ≠ 0x023) → faults s i 0x01 0)) ∧
  (∀ (s : State) (k : Tok) (d : BitVec 4) (n : BitVec 13), let i := Instr.rdsr k d n
    decoded s i → (5 < n.toNat ∧ n.toNat < 0x10 ∨ 0x23 < n.toNat ∧ n.toNat < 0x30 ∨ 0x3B < n.toNat ∧ n.toNat < 0x40 ∨ 0x50 < n.toNat) →
    faults s i 0x01 0)

/-- R20, R202, R211, R212: what an instruction that issues without a branch leaves, whatever its effect `t` on the state it met. It counts
one in ISSUECNT, its words past the PC; every register of its sequencer is as it was until its retire cycle; its destinations are in flight,
due `bound` cycles after its issue; of the task only sequencers and token FIFOs have changed, of the core only the task, and no byte of
memory. The state it met differs from the one before by its pop alone: no register, no other sequencer and no byte has changed.
The fields in flight are the model's own (log 4 and 50). -/
def Obligations.IssueKeeps : Prop :=
  (∀ (s : State) (i : Instr) (t : State) (bound : Nat) (writes : List Write), (t.seq s.cur).delay.owed = 0 →
    endingLoops (t.seq s.cur) (t.seq s.cur).pc.toNat ((t.seq s.cur).pc.toNat + 4 * instrWords i) = [] →
    let u := issuedAt s i t bound writes
    let a := t.seq s.cur
    let b := u.seq s.cur
    b.issueCnt = a.issueCnt + 1 ∧ b.pc = BitVec.ofNat 16 (a.pc.toNat + 4 * instrWords i) ∧ b.x = a.x ∧ b.xPoison = a.xPoison ∧ b.f = a.f ∧
      b.bt = a.bt ∧ b.lc = a.lc ∧ b.loops = a.loops ∧ b.lvs = a.lvs ∧ b.popped = false ∧ b.wait = a.wait ∧
      u.mem = t.mem ∧ u.bad = t.bad ∧ u.pkg = t.pkg ∧ u.inputs = t.inputs ∧ u.core = { t.core with task := u.task } ∧
      u.task = { t.task with seqs := u.task.seqs, fifos := u.task.fifos } ∧ (∀ q, q ≠ s.cur → u.seq q = t.seq q) ∧
      ∃ push, b.pend = a.pend ++ [{ due := t.core.cycle + bound, writes := writes, push := push, covered := false, op := none }]) ∧
  (∀ (s : State) (i : Instr), let m := met s i
    let a := s.seq s.cur
    let b := m.seq s.cur
    m.mem = s.mem ∧ m.bad = s.bad ∧ m.pkg = s.pkg ∧ m.inputs = s.inputs ∧ m.core = { s.core with task := m.task } ∧
      m.task = { s.task with seqs := m.task.seqs, fifos := m.task.fifos } ∧ (∀ q, q ≠ s.cur → m.seq q = s.seq q) ∧
      b.x = a.x ∧ b.xPoison = a.xPoison ∧ b.f = a.f ∧ b.bt = a.bt ∧ b.lc = a.lc ∧ b.loops = a.loops ∧ b.lvs = a.lvs ∧ b.pc = a.pc ∧
      b.issueCnt = a.issueCnt ∧ b.wait = a.wait ∧ b.delay = a.delay)

/-- R213: NOP issues with its token actions alone, and YIELD is the offer of its group, nothing else where no group that waits has as
high a priority. -/
def Claims.NopAndYield : Prop :=
  ∀ (s : State) (k : Tok),
    (ready s (.nop k) = true → exec (.nop k) s = .next (issued s (.nop k) 1 [])) ∧
    (ready s (.yield k) = true → ∃ t, exec (.yield k) s = .next (issuedAt s (.yield k) t 1 []) ∧ t.core = (met s (.yield k)).core ∧
      t.mem = s.mem ∧ (waitingGroups (met s (.yield k)) = [] → t = met s (.yield k)))

/-- R33, R215: EXIT ends its sequencer at the PC after it, with the successor tag of xA on S. -/
def Claims.ExitEnds : Prop :=
  ∀ (s : State) (k : Tok) (a : BitVec 4), let i := Instr.exit k a
    ready s i = true → cleanX s i a 0 = true →
    ∃ t, exec i s = .next t ∧ (t.seq s.cur).exited = true ∧ (t.seq s.cur).succTag = xVal s i a 0 ∧
      (t.seq s.cur).pc = (s.seq s.cur).pc + 4 ∧ (t.seq s.cur).issueCnt = (s.seq s.cur).issueCnt + 1 ∧ t.mem = s.mem ∧ t.pkg = s.pkg

/-- R216: SWAP issues and its sequencer waits past it for the flip; a push it carries is held back until then. -/
def Claims.SwapWaits : Prop :=
  ∀ (s : State) (k : Tok), let i := Instr.swap k
    ready s i = true →
    ∃ t, exec i s = .next t ∧ (t.seq s.cur).swapWait = true ∧ canIssue t s.cur = false ∧
      (t.seq s.cur).pc = (s.seq s.cur).pc + 4 ∧ (t.seq s.cur).issueCnt = (s.seq s.cur).issueCnt + 1 ∧
      ((t.seq s.cur).wait.isSome = k.tk.getLsbD 1) ∧ t.mem = s.mem ∧ t.pkg = s.pkg

/-- R217 and R218: WAITT writes TIME - TOFS once task time has reached a, else sleeps; TCNT writes the tokens present in the FIFO and
those of value 0; TWAIT writes the same once a tokens are present, else sleeps, and is illegal for a above 32. -/
def Obligations.TimeAndTokenWaits : Prop :=
  (∀ (s : State) (k : Tok) (d a : BitVec 4), let i := Instr.waitt k d a
    ready s i = true → cleanX s i a 0 = true →
    (if (xVal s i a 0 + s.task.tofs).toNat ≤ s.pkg.time.toNat then
      exec i s = .next (issued s i 1 [.x d (s.pkg.time - s.task.tofs) none])
     else exec i s = .next (issuedOn s s.cur i (met s i) 1 [] (.sleep (.waitt d (xVal s i a 0)))))) ∧
  (∀ (s : State) (p : BitVec 2) (d : BitVec 4), let i := Instr.tcnt p d
    ready s i = true → ∃ v : Word64, exec i s = .next (issued s i 1 [.x d v none]) ∧
      (let l := (popFifo s.task s.cur p).filter Slot.filled
       l.length ≤ 63 → v.toNat = l.length + 2 ^ 8 * (l.filter (fun x => !x.val)).length)) ∧
  (∀ (s : State) (p : BitVec 2) (d a b : BitVec 4), let i := Instr.twait p d a b
    ready s i = true → cleanX s i a 0 = true → cleanX s i b 1 = true →
    (if 32 < (xVal s i a 0).toNat then
      ∃ t, exec i s = .next t ∧ t.core.run = .stopped ∧ t.task.faults.cause.extractLsb 7 0 = 0x01#8
     else if (xVal s i a 0).toNat ≤ ((popFifo s.task s.cur p).filter Slot.filled).length then
      exec i s = .next (issued s i 1 [.x d (tcntVal (popFifo s.task s.cur p)) none])
     else ∃ t, exec i s = .next t ∧ canIssue t s.cur = false ∧ (t.seq s.cur).pc = (s.seq s.cur).pc ∧ (t.seq s.cur).wait.isSome = true))

/-- R206: PBT prepares its target, from its own address and a displacement in words, or from a register. -/
def Claims.PbtPrepares : Prop :=
  (∀ (s : State) (k : Tok) (b : BitVec 2) (d : BitVec 19), let i := Instr.pbtDisp k b d
    ready s i = true → exec i s = .next (issued s i 1 [.bt b ((s.seq s.cur).pc.zeroExtend 64 + d.signExtend 64 * 4)])) ∧
  (∀ (s : State) (k : Tok) (b : BitVec 2) (a : BitVec 4), let i := Instr.pbtReg k b a
    ready s i = true → cleanX s i a 0 = true → exec i s = .next (issued s i 1 [.bt b (xVal s i a 0)]))

/-- The target that a BRT reads (R22, R23, R206). -/
def btVal (s : State) (i : Instr) (b : BitVec 2) : Word64 := (met s i).readBt s.cur b 0

/-- A target that R16 allows. -/
def targetLegal (v : Word64) : Bool := v.toNat % 4 == 0 && decide (v.toNat ≤ 0x7FFC)

/-- What R207 says of a BRT that has issued: without delay slots the next instruction is the target's, or the one after; with them the
slots come first, with what they owe. -/
def branched (s t : State) (i : Instr) (b e : BitVec 2) (taken : Bool) : Prop :=
  (t.seq s.cur).issueCnt = (s.seq s.cur).issueCnt + 1 ∧ t.mem = s.mem ∧ t.pkg = s.pkg ∧ (t.seq s.cur).x = (s.seq s.cur).x ∧
    (e = 0 → (t.seq s.cur).pc = if taken then (btVal s i b).truncate 16 else (s.seq s.cur).pc + 4) ∧
    (e ≠ 0 → (t.seq s.cur).pc = (s.seq s.cur).pc + 4 ∧ (t.seq s.cur).delay.owed = e ∧ (t.seq s.cur).delay.taken = taken ∧
      (t.seq s.cur).delay.next = (btVal s i b).truncate 16)

/-- R16, R206 and R207: a BRT that is not taken, or whose target is legal, issues as R207 says; a taken one with an illegal target faults
ILLEGAL_INSTR at the BRT. -/
def Claims.BranchGoes : Prop :=
  (∀ (s : State) (k : Tok) (b e : BitVec 2) (l : BitVec 1), let i := Instr.brtAlways k b e l
    ready s i = true →
    (if targetLegal (btVal s i b) = true then ∃ t, exec i s = .next t ∧ branched s t i b e true
     else ∃ t, exec i s = .next t ∧ t.core.run = .stopped ∧ t.task.faults.cause.extractLsb 7 0 = 0x01#8)) ∧
  (∀ (s : State) (k : Tok) (b : BitVec 2) (f : BitVec 3) (n : BitVec 1) (e : BitVec 2) (l : BitVec 1), let i := Instr.brtCond k b f n e l
    ready s i = true →
    (if fVal s i f 1 = n → targetLegal (btVal s i b) = true then ∃ t, exec i s = .next t ∧ branched s t i b e (decide (fVal s i f 1 = n))
     else ∃ t, exec i s = .next t ∧ t.core.run = .stopped ∧ t.task.faults.cause.extractLsb 7 0 = 0x01#8))

/-- R207: with LINK, x15 takes the address after the last delay slot one cycle after the BRT, where no slot is a patch word. -/
def Claims.BranchLinks : Prop :=
  ∀ (s : State) (k : Tok) (b e : BitVec 2), let i := Instr.brtAlways k b e 1
    ready s i = true → targetLegal (btVal s i b) = true → slotsPatch s.plane s.cur ((s.seq s.cur).pc.toNat + 4) e.toNat = false →
    ∃ t, exec i s = .next t ∧ ({ due := s.core.cycle + 1, covered := false, push := none, op := none
                                 writes := [.x 15 (BitVec.ofNat 64 (slotsEnd s.plane s.cur ((s.seq s.cur).pc.toNat + 4) e.toNat)) none] } : Pending) ∈
      (t.seq s.cur).pend

/-- R209: LOOP takes its count; 0 goes on after the body, else the loop is active from the next word to the word END names. An end word
outside instruction memory is ILLEGAL_INSTR (the model's reading, log 39). -/
def Claims.LoopStarts : Prop :=
  ∀ (s : State) (k : Tok) (c : BitVec 2) (a : BitVec 4) (e : BitVec 16), let i := Instr.loop k c a e
    let stop := (s.seq s.cur).pc.toNat + e.toNat * 4
    ready s i = true → cleanX s i a 0 = true →
    (0x8000 ≤ stop → faults s i 0x01 0) ∧ (stop < 0x8000 →
    ∃ t, exec i s = .next t ∧ (t.seq s.cur).lc.get c = xVal s i a 0 ∧ (t.seq s.cur).issueCnt = (s.seq s.cur).issueCnt + 1 ∧ t.mem = s.mem ∧
      (xVal s i a 0 = 0 → ((t.seq s.cur).loops.get c).active = false ∧
        (t.seq s.cur).pc = BitVec.ofNat 16 (Nat.min 0x8000 (stop + 4 * widthAt s.plane s.cur stop))) ∧
      (xVal s i a 0 ≠ 0 → ((t.seq s.cur).loops.get c).active = true ∧ (t.seq s.cur).pc = (s.seq s.cur).pc + 4 ∧
        ((t.seq s.cur).loops.get c).start = (s.seq s.cur).pc + 4 ∧
        ((t.seq s.cur).loops.get c).stop = BitVec.ofNat 16 stop))

/-- R209: after the instruction that holds the end word of the one active loop that ends there, a count above 1 goes down by one and the
body starts again; otherwise the count becomes 0 and the loop is inactive. NOP stands for an instruction that does not branch. -/
def Claims.LoopEnds : Prop :=
  ∀ (s : State) (k : Tok) (c : BitVec 2), let i := Instr.nop k
    let a := s.seq s.cur
    ready s i = true → a.delay.owed = 0 → endingLoops a a.pc.toNat (a.pc.toNat + 4) = [c] →
    ∃ t, exec i s = .next t ∧
      (1 < (a.lc.get c).toNat → (t.seq s.cur).pc = (a.loops.get c).start ∧ (t.seq s.cur).lc = a.lc.set c (a.lc.get c - 1) ∧
        (t.seq s.cur).loops = a.loops) ∧
      ((a.lc.get c).toNat ≤ 1 → (t.seq s.cur).pc = a.pc + 4 ∧ (t.seq s.cur).lc = a.lc.set c 0 ∧
        ((t.seq s.cur).loops.get c).active = false)

/-- R214, R222, R227: TRAP, BRK and a retired conversion stop the task with their cause: the record names the instruction, the code of a
TRAP stands in FCAUSE [31:24], every sequencer is halted, the PC stays, and firmware takes over. -/
def Claims.TrapsStop : Prop :=
  ∀ (s : State) (i : Instr) (cause code : BitVec 8),
    ((∃ k, i = .trap k code) ∧ cause = 0x16 ∨ (∃ k, i = .brk k) ∧ cause = 0x17 ∧ code = 0 ∨
      (∃ x, i = .retiredConversion x) ∧ cause = 0x15 ∧ code = 0) →
    ready s i = true →
    ∃ t, exec i s = .next t ∧ t.core.run = .stopped ∧ t.core.firmware = true ∧
      t.task.faults.cause.extractLsb 7 0 = cause ∧ t.task.faults.cause.extractLsb 31 24 = code ∧
      t.task.faults.cause.extractLsb 13 12 = s.cur.num ∧ t.task.faults.cause.getLsbD 16 = false ∧ t.task.faults.cause.getLsbD 17 = true ∧
      t.task.faults.pc = BitVec.ofNat 64 ((s.seq s.cur).pc.toNat + s.task.active.toNat * 2 ^ 16) ∧
      t.task.faults.seq = (s.seq s.cur).issueCnt.zeroExtend 64 ∧
      (∀ q, (t.seq q).halted = true ∧ (t.seq q).pc = (s.seq q).pc) ∧ t.mem = s.mem ∧ t.pkg = s.pkg

/-- R221, R414: ERET on the firmware context of a staged task starts it, each present sequencer at its PC; met on the sequencer of a task
that is not staged, it is illegal. -/
def Claims.EretStarts : Prop :=
  (∀ s : State, s.core.firmware = true → s.core.run = .staging →
    ∃ t, exec .eret s = .next t ∧ t.core.run = .running ∧ t.core.firmware = false ∧
      (∀ q, (t.seq q).halted = !(s.seq q).present ∧ (t.seq q).pc = (s.seq q).pc ∧ (t.seq q).x = (s.seq q).x) ∧
      t.mem = s.mem ∧ t.pkg = s.pkg) ∧
  (∀ s : State, ready s .eret = true → s.core.run ≠ .staging →
    ∃ t, exec .eret s = .next t ∧ t.core.run = .stopped ∧ t.task.faults.cause.extractLsb 7 0 = 0x01#8)

/-- R219: QX reads lane 0, lanes 1 and 0, or lane 0 sign-extended of the head of its queue, popping it where A[3] is set. -/
def Claims.QxReads : Prop :=
  ∀ (s : State) (k : Tok) (d a : BitVec 4) (f : BitVec 2) (hd : QEntry) (tl : List QEntry), let i := Instr.qx k d a f
    ready s i = true → f ≠ 3 → matAhead (met s i) (a.truncate 3) = false → (met s i).task.q.get (a.truncate 3) = hd :: tl →
    hd.filled = true → hd.poison = none →
    exec i s = .next (issuedAt s i (if a.getLsbD 3 then popQ (met s i) (a.truncate 3) else met s i) 2
      [.x d (if f = 0 then (hd.data.truncate 32).zeroExtend 64 else if f = 1 then hd.data.truncate 64 else (hd.data.truncate 32).signExtend 64)
        none])

/-- R174: a FENCE of KIND 5 to 7, a FENCE or FENCEX of SCOPE 7, and a FENCEX with bit 7 in PATHA or PATHB raise ILLEGAL_INSTR; the masks
zero are legal, as is every other value. -/
def Claims.FenceFields : Prop :=
  (∀ (s : State) (k : Tok) (c : BitVec 16) (n m : BitVec 3), let i := Instr.fence k c n m
    (decoded s i → 5 ≤ m.toNat ∨ n = 7 → faults s i 0x01 0) ∧ (tokOk k = true → m.toNat ≤ 4 → n ≠ 7 → i.wellFormed = true)) ∧
  (∀ (s : State) (k : Tok) (a b : BitVec 8) (n : BitVec 3), let i := Instr.fencex k a b n
    (decoded s i → a.getLsbD 7 = true ∨ b.getLsbD 7 = true ∨ n = 7 → faults s i 0x01 0) ∧
    (tokOk k = true → a.getLsbD 7 = false → b.getLsbD 7 = false → n ≠ 7 → i.wellFormed = true))

/-- R79, R81 and R220: a FENCE that no earlier fence holds issues with its token actions alone; FENCEX issues and adds a fence that holds
PATHB and waits for the outstanding commands on PATHA and for what the fences still open wait for; a HINT issues whatever its address,
leaves every register of its task, and leaves every byte of memory but for kind 4, which brings a page of the own scratchpad in.
That FENCE issues with its token actions alone and completes at once is the model's choice (log 2), and that FENCEX goes by what is outstanding on path 6 as on the others is its reading (log 43). -/
def Claims.FencesAndHints : Prop :=
  (∀ (s : State) (k : Tok) (c : BitVec 16) (n m : BitVec 3), let i := Instr.fence k c n m
    ready s i = true → fencedPoint (met s i) s.cur = false → exec i s = .next (issued s i 1 [])) ∧
  (∀ (s : State) (k : Tok) (a b : BitVec 8) (n : BitVec 3), let i := Instr.fencex k a b n
    ready s i = true → ∃ f : FenceHold, f.paths = b ∧
      (∀ x, x ∈ f.waits ↔ (∃ p, (x, p) ∈ outstanding (met s i) s.cur ∧ a.getLsbD p = true) ∨
        ∃ g ∈ openFences (met s i) s.cur, x ∈ g.waits) ∧
      exec i s = .next (issuedAt s i ((met s i).withSeq s.cur
        { (met s i).seq s.cur with fences := openFences (met s i) s.cur ++ [f], newFence := ((met s i).seq s.cur).newFence ||| b }) 1 [])) ∧
  (∀ (s : State) (k : Tok) (m a : BitVec 4), let i := Instr.hint k m a
    ready s i = true → cleanX s i a 0 = true →
    ∃ t, exec i s = .next (issuedAt s i t 1 []) ∧ t = hintEffect (met s i) m.toNat (xVal s i a 0) ∧ t.task = (met s i).task ∧
      (m ≠ 4 → t.mem = s.mem))

/-! ## Memory -/

/-- The bytes of a size code (R173). -/
def bytesOf (z : BitVec 2) : Nat := 2 ^ z.toNat

/-- The value that a load of `size` bytes gives: extended by sign or by zero (R233). -/
def loadedVal (g : BitVec 1) (size v : Nat) : Word64 :=
  if g = 1 then (BitVec.ofNat (8 * size) v).signExtend 64 else BitVec.ofNat 64 v

/-- The bound of a result by the space of its location (R187). -/
def boundOf (sp : BitVec 2) : Nat := if sp = 0 then 6 else if sp = 1 then 40 else if sp = 2 then 256 else 64

/-- A load that has issued: the value of the bytes at its place in flight, poisoned where they fail correction; memory and the units
that fail are as before, and so is the task but for the model's record of the writes that come before a load. The value is that of the bytes
as they are, or, outside the yard window, as they were before the last of the late writes that no order puts before the load (log 2). -/
def loaded (s : State) (i : Instr) (d oc : BitVec 4) (inv : Bool) (sp : BitVec 2) (addr size : Nat) (g : BitVec 1) (s1 : State) (key : Nat) : Prop :=
  let late := (met s i).passable s.cur oc inv key size
  ∃ t p v, exec i s = .next (issuedAt s i t (boundOf sp) [.x d (loadedVal g size v) p]) ∧
    (isYard key = true ∨ late = [] → v = if isYard key then 0 else memRead s.mem key size) ∧
    (isYard key = false → ∃ n, v < 2 ^ (8 * size) ∧ ∀ b < size, bitsOf v (8 * b) 8 = (pastByte (late.drop n) s.mem (key + b)).toNat) ∧
    t.mem = s.mem ∧ t.bad = s.bad ∧
    (∃ a f, t.task = ((met s i).withSeq s.cur { (met s i).seq s.cur with seen := a, newFence := f }).task) ∧ (readFails s1 key size = none → p = none) ∧
    (∀ c, readFails s1 key size = some c → ∃ x, p = some x ∧ x.cause = c ∧ x.addr = faddr sp (BitVec.ofNat 64 addr))

/-- R58, R187, R226 and R233: LD and LDX give the extended value of the bytes at their address, in the bound of its space, poisoned with
its cause where the bytes fail correction; they change no byte of memory and of the task nothing but what their issue does. The address of
LD is a + OFS * size, a sum without bound, that of LDX is a + b modulo 2^64. A global read of L to an L1 set whose ways are all locked is
left out: it waits; and so does a load of bytes that a stream store from before a halt has still to write (R91). The value is that which the bytes have, or had before late writes that the load may pass: those of other
sequencers on path 0 whose bound has not passed, that no earlier load and no point of order has put before it; none after a pop, a fence, an
atomic or an acquire on an object. What a load may pass is the model's choice among the outcomes that R5 permits (log 2). -/
def Claims.LoadsRead : Prop :=
  (∀ (s : State) (k : Tok) (d a o : BitVec 4) (sp z : BitVec 2) (g v r : BitVec 1) (f : BitVec 3) (s1 : State) (key : Nat) (leaf : Word64),
    let i := Instr.ld k d a o sp z g v r f
    let addr := (xVal s i a 0).toNat + f.toNat * bytesOf z
    ready s i = true → cleanX s i a 0 = true → fenced (met s i) s.cur 0 = false →
    checkAccess (met s i) sp addr (bytesOf z) false = (s1, .key key leaf) → lockStalls s s.cur sp addr = false → storeOwed (met s i) sp addr (bytesOf z) = false →
    loaded s i d o (decide (v = 1) && (decide (sp = 3) || decide (sp = 2) && leaf.getLsbD 5)) sp addr (bytesOf z) g s1 key) ∧
  (∀ (s : State) (k : Tok) (d a b o : BitVec 4) (z sp : BitVec 2) (g r : BitVec 1) (s1 : State) (key : Nat) (leaf : Word64),
    let i := Instr.ldx k d a b o z sp g r
    let addr := (xVal s i a 0 + xVal s i b 1).toNat
    ready s i = true → cleanX s i a 0 = true → cleanX s i b 1 = true → fenced (met s i) s.cur 0 = false →
    checkAccess (met s i) sp addr (bytesOf z) false = (s1, .key key leaf) → lockStalls s s.cur sp addr = false → storeOwed (met s i) sp addr (bytesOf z) = false →
    loaded s i d o false sp addr (bytesOf z) g s1 key) ∧
  (∀ (s : State) (q : SeqId) (oc : BitVec 4) (key n : Nat), ((s.seq q).newFence.getLsbD 0 = true → s.passable q oc false key n = []) ∧
    ∀ x ∈ s.passable q oc false key n, x ∈ s.core.olds ∧ (s.time - x.time).toNat < writeBound x.key ∧ (s.seq q).seen.get 0 ≤ x.num ∧
      ∃ p c, x.by_ = some (p, c) ∧ p ≠ q)

/-- A store that has issued: the low bytes of the value lie at the place of its address, little-endian, and every other byte of memory is
as before; no register of any sequencer has changed. -/
def stored (s : State) (i : Instr) (v : Word64) (size : Nat) (key : Nat) : Prop :=
  ∃ t, exec i s = .next (issuedAt s i t 1 []) ∧ t.task = (met s i).task ∧
    (∀ n < size, memGet t.mem (key + n) = BitVec.ofNat 8 (v.toNat / 2 ^ (8 * n))) ∧
    (∀ b, b < key ∨ key + size ≤ b → memGet t.mem b = memGet s.mem b)

/-- Nothing holds a store back at its fences: no earlier fence holds path 0, and a release waits for none (R74, R81). -/
def storeFree (s : State) (i : Instr) (ord : BitVec 1) : Prop :=
  fenced (met s i) s.cur 0 = false ∧ (ord = 1 → fencedPoint (met s i) s.cur = false)

/-- R7 and R233: ST and STX store the low bytes of d at their address, outside the yard window and where a route leads to it, and no other
byte; they leave the task as their issue does. The address of ST is a + OFS * size, a sum without bound, that of STX is a + b modulo
2^64. -/
def Claims.StoresWrite : Prop :=
  (∀ (s : State) (k : Tok) (d a o : BitVec 4) (sp z : BitVec 2) (g r : BitVec 1) (f : BitVec 3) (s1 : State) (key : Nat) (leaf : Word64),
    let i := Instr.st k d a o sp z g r f
    let addr := (xVal s i a 0).toNat + f.toNat * bytesOf z
    ready s i = true → Safety.memOk s → cleanX s i a 0 = true → cleanX s i d 1 = true → storeFree s i r →
    checkAccess (met s i) sp addr (bytesOf z) true = (s1, .key key leaf) → isYard key = false → noRoute s key = false →
    stored s i (xVal s i d 1) (bytesOf z) key) ∧
  (∀ (s : State) (k : Tok) (d a b o : BitVec 4) (z sp : BitVec 2) (g r : BitVec 1) (s1 : State) (key : Nat) (leaf : Word64),
    let i := Instr.stx k d a b o z sp g r
    let addr := (xVal s i a 0 + xVal s i b 1).toNat
    ready s i = true → Safety.memOk s → cleanX s i a 0 = true → cleanX s i b 1 = true → cleanX s i d 2 = true → storeFree s i r →
    checkAccess (met s i) sp addr (bytesOf z) true = (s1, .key key leaf) → isYard key = false → noRoute s key = false →
    stored s i (xVal s i d 2) (bytesOf z) key)

/-- R370: a store to the yard window changes no byte of memory; one of 8 bytes at the start of a NOTIFY page is a notify of its queue, and
any other is ignored. -/
def Claims.StoreNotifies : Prop :=
  ∀ (s : State) (k : Tok) (d a o : BitVec 4) (z : BitVec 2) (g r : BitVec 1) (f : BitVec 3) (s1 : State) (key : Nat) (leaf : Word64)
    (die : BitVec 2) (n : BitVec 10),
    let i := Instr.st k d a o 2 z g r f
    let addr := (xVal s i a 0).toNat + f.toNat * bytesOf z
    ready s i = true → cleanX s i a 0 = true → cleanX s i d 1 = true → storeFree s i r →
    checkAccess (met s i) 2 addr (bytesOf z) true = (s1, .key key leaf) → isYard key = true → notifyOf key = some (die, n) →
    ∃ t, exec i s = .next (issuedAt s i t 1 []) ∧ t.mem = s.mem ∧ t.pkg = s.pkg ∧
      t.inputs = s.inputs ++ (if z = 3 ∧ key % 2 ^ 16 = 0 then [.notify die n] else [])

/-- The new value of an atomic (R235); none for a CAS that fails. -/
def amoRule (op : BitVec 4) (w : Nat) (old bv cv : BitVec w) : Option (BitVec w) :=
  match op.toNat with
  | 0 => some (old + bv)
  | 1 => some (old &&& bv)
  | 2 => some (old ||| bv)
  | 3 => some (old ^^^ bv)
  | 4 => some (if old.toInt ≤ bv.toInt then old else bv)
  | 5 => some (if old.toInt ≤ bv.toInt then bv else old)
  | 6 => some (if old.toNat ≤ bv.toNat then old else bv)
  | 7 => some (if old.toNat ≤ bv.toNat then bv else old)
  | 8 => some bv
  | _ => if old = cv then some bv else none

/-- R86, R178, R235 and R236: an AMO outside the yard window, on bytes that a route leads to and that do not fail correction, gives their
old value in the bound of its space, sign-extended for SMIN and SMAX, stores the new value in the same step, and leaves every other byte as
it was; a CAS that finds another value stores nothing. -/
def Claims.AtomicsUpdate : Prop :=
  ∀ (s : State) (k : Tok) (d a b op : BitVec 4) (sz : BitVec 1) (oc : BitVec 4) (scope : BitVec 3) (ord : BitVec 2) (c : BitVec 4)
    (sp : BitVec 2) (s1 : State) (key : Nat) (leaf : Word64),
    let i := Instr.amo k d a b op sz oc scope ord c sp
    let size := if sz = 1 then 8 else 4
    let old := BitVec.ofNat (8 * size) (memRead s.mem key size)
    ready s i = true → Safety.memOk s → cleanX s i a 0 = true → cleanX s i b 1 = true → cleanX s i c 2 = true →
    fenced (met s i) s.cur 0 = false → (ord.getLsbD 1 = true → fencedPoint (met s i) s.cur = false) →
    checkAccess (met s i) sp (xVal s i a 0).toNat size true = (s1, .key key leaf) → storeOwed (met s i) sp (xVal s i a 0).toNat size = false → isYard key = false → noRoute s key = false →
    readFails s1 key size = none →
    ∃ t, exec i s = .next (issuedAt s i t (boundOf sp)
        [.x d (if op = 4 ∨ op = 5 then old.signExtend 64 else BitVec.ofNat 64 old.toNat) none]) ∧
      t.task = (met s i).task ∧
      (match amoRule op (8 * size) old (BitVec.ofNat (8 * size) (xVal s i b 1).toNat) (BitVec.ofNat (8 * size) (xVal s i c 2).toNat) with
       | some v => memRead t.mem key size = v.toNat
       | none => t.mem = s.mem) ∧
      (∀ x, x < key ∨ key + size ≤ x → memGet t.mem x = memGet s.mem x)

/-- R173 and R178: OP 0xA to 0xF, SP 11, SCOPE 7 and a C other than 0 without CAS raise ILLEGAL_INSTR. -/
def Claims.AtomicFields : Prop :=
  ∀ (s : State) (k : Tok) (d a b op : BitVec 4) (sz : BitVec 1) (oc : BitVec 4) (scope : BitVec 3) (ord : BitVec 2) (c : BitVec 4)
    (sp : BitVec 2), let i := Instr.amo k d a b op sz oc scope ord c sp
    decoded s i → 10 ≤ op.toNat ∨ sp = 3 ∨ scope = 7 ∨ (c ≠ 0 ∧ op ≠ 9) → faults s i 0x01 0

/-- An address of a space as FADDR holds it (R229). -/
def faultAddr (sp : BitVec 2) (a : Word64) : Word64 := (sp.zeroExtend 64 <<< 56) ||| (a &&& 0x00FFFFFFFFFFFFFF)

/-- R48 and R234: LD, ST, LDX, STX, AMO and WAITM of 2, 4 or 8 bytes at an address that is no multiple of their size fault MISALIGNED with
that address and change no byte of memory, whatever the address otherwise is; an aligned access lies within one 16 KiB and one 64 KiB
page. -/
def Obligations.MisalignedFaults : Prop :=
  (∀ (s : State) (k : Tok) (d a o : BitVec 4) (sp z : BitVec 2) (g v r : BitVec 1) (f : BitVec 3), let i := Instr.ld k d a o sp z g v r f
    let addr := (xVal s i a 0).toNat + f.toNat * bytesOf z
    ready s i = true → cleanX s i a 0 = true → fenced (met s i) s.cur 0 = false → addr % bytesOf z ≠ 0 →
    faults s i 0x04 (faultAddr sp (BitVec.ofNat 64 addr))) ∧
  (∀ (s : State) (k : Tok) (d a o : BitVec 4) (sp z : BitVec 2) (g r : BitVec 1) (f : BitVec 3), let i := Instr.st k d a o sp z g r f
    let addr := (xVal s i a 0).toNat + f.toNat * bytesOf z
    ready s i = true → cleanX s i a 0 = true → cleanX s i d 1 = true → storeFree s i r → addr % bytesOf z ≠ 0 →
    faults s i 0x04 (faultAddr sp (BitVec.ofNat 64 addr))) ∧
  (∀ (s : State) (k : Tok) (d a b op : BitVec 4) (sz : BitVec 1) (oc : BitVec 4) (scope : BitVec 3) (ord : BitVec 2) (c : BitVec 4)
    (sp : BitVec 2), let i := Instr.amo k d a b op sz oc scope ord c sp
    ready s i = true → cleanX s i a 0 = true → cleanX s i b 1 = true → cleanX s i c 2 = true →
    fenced (met s i) s.cur 0 = false → (ord.getLsbD 1 = true → fencedPoint (met s i) s.cur = false) →
    (xVal s i a 0).toNat % (if sz = 1 then 8 else 4) ≠ 0 → faults s i 0x04 (faultAddr sp (xVal s i a 0))) ∧
  (∀ (s : State) (k : Tok) (d a b o : BitVec 4) (z sp : BitVec 2) (g r : BitVec 1), let i := Instr.ldx k d a b o z sp g r
    let addr := (xVal s i a 0 + xVal s i b 1).toNat
    ready s i = true → cleanX s i a 0 = true → cleanX s i b 1 = true → fenced (met s i) s.cur 0 = false → addr % bytesOf z ≠ 0 →
    faults s i 0x04 (faultAddr sp (BitVec.ofNat 64 addr))) ∧
  (∀ (s : State) (k : Tok) (d a b o : BitVec 4) (z sp : BitVec 2) (g r : BitVec 1), let i := Instr.stx k d a b o z sp g r
    let addr := (xVal s i a 0 + xVal s i b 1).toNat
    ready s i = true → cleanX s i a 0 = true → cleanX s i b 1 = true → cleanX s i d 2 = true → storeFree s i r →
    addr % bytesOf z ≠ 0 → faults s i 0x04 (faultAddr sp (BitVec.ofNat 64 addr))) ∧
  (∀ (s : State) (k : Tok) (d a b o : BitVec 4) (z sp : BitVec 2) (g r : BitVec 1), let i := Instr.waitm k d a b o z sp g r
    ready s i = true → cleanX s i a 0 = true → cleanX s i b 1 = true → cleanX s i d 2 = true → fenced (met s i) s.cur 0 = false →
    (xVal s i a 0).toNat % bytesOf z ≠ 0 → faults s i 0x04 (faultAddr sp (xVal s i a 0))) ∧
  (∀ (z : BitVec 2) (a n : Nat), a % bytesOf z = 0 → n < bytesOf z → (a + n) / 2 ^ 14 = a / 2 ^ 14 ∧ (a + n) / 2 ^ 16 = a / 2 ^ 16)

/-- R47, R49, R53 and R433: an address outside the form of its space faults, and so does any own-scratchpad address with SPLIT 8. Loft bytes
have a place only where the world of the task owns their segment, and wait while their bank is held. A byte of the own scratchpad lies in
the frame that holds its page; a page that is not resident makes a running task wait.
The ways in which the model keeps frames are its own (log 1). -/
def Claims.SpacesPlaced : Prop :=
  ∀ (s : State) (addr : Nat) (w : Bool),
    (2 ^ 21 ≤ addr → place s 0 addr w = (s, .fault 0x18) ∧ place s 1 addr w = (s, .fault 0x18)) ∧
    (2 ^ 56 ≤ addr → place s 2 addr w = (s, .fault 0x06)) ∧
    (2 ^ 39 ≤ addr → place s 3 addr w = (s, .fault 0x06)) ∧
    (addr < 2 ^ 21 → s.task.split = 8 → place s 0 addr w = (s, .fault 0x18)) ∧
    (addr < 2 ^ 21 → s.task.split ≠ 8 → ∀ r, frameOf s (addr / 2 ^ 14) = some r →
      place s 0 addr w = (s, .key (frameKey r + addr % 2 ^ 14) 0)) ∧
    (addr < 2 ^ 21 → s.task.split ≠ 8 → s.core.run ≠ .saved → frameOf s (addr / 2 ^ 14) = none →
      place s 0 addr w = (s, .stall (.page (BitVec.ofNat 7 (addr / 2 ^ 14))))) ∧
    (addr < 2 ^ 39 → let e := cellGet (0 : BitVec 8) s.pkg.loft.owner (addr / 2 ^ 24)
      place s 3 addr w = (s, if e.extractLsb 7 6 = 3 then .fault 0x11
        else if e.extractLsb 7 6 = 1 ∧ e.extractLsb 5 0 = s.task.ident.world then
          (if bankHeld s (addr / 2 ^ 30) = true then .stall .engine else .key (loftKey addr) 0)
        else .fault 0x07))

/-- R394 to R397: a global access whose translation is not cached walks the levels from PTROOT of its queue: an entry that is not valid is
XLATE_NOT_PRESENT, a malformed one XLATE_PERMISSION, in that order, shown for the first level. The leaf it comes to is then checked for a
refused write before its world, outside the yard window, and one that passes is cached, with the VA and the leaf. -/
def Claims.GlobalTranslated : Prop :=
  ∀ (s : State) (va : Nat) (w : Bool), va < 2 ^ 56 →
    let id := s.task.ident
    tlbFind s id.world (id.die ++ id.queue) va = none →
    let root := ptRoot s id.die id.queue
    let e0 := memWord s.mem (keyOf s (root + 8 * (va / 2 ^ 43 % 2 ^ 13)))
    (e0.getLsbD 0 = false → place s 2 va w = (s, .fault 0x05)) ∧
    (e0.getLsbD 0 = true → pteMalformed e0 0 = true → place s 2 va w = (s, .fault 0x06)) ∧
    (∀ e level pte, walkFrom s va root walkLevels = .leaf e level pte →
      let pa := leafPa e (levelLog level) va
      (w = true → e.getLsbD 2 = false → place s 2 va w = (s, .fault 0x06)) ∧
      ((w = true → e.getLsbD 2 = true) → isYard (leafFrame e) = false → e.extractLsb 13 8 ≠ id.world →
        place s 2 va w = (s, .fault 0x07)) ∧
      ((w = true → e.getLsbD 2 = true) → isYard (leafFrame e) = false → e.extractLsb 13 8 = id.world →
        ∃ t, place s 2 va w = (t, .key (keyOf s pa) e) ∧ t.mem = s.mem ∧ t.task = s.task ∧ t.pkg = s.pkg ∧ t.core.tlb.length ≤ 256 ∧
          ∃ x ∈ t.core.tlb, x.world = id.world ∧ x.leaf = e ∧ x.va = va / 2 ^ levelLog level * 2 ^ levelLog level))

/-- R237: WAITM whose bytes do not fail correction completes at once with a value that differs from the low bytes of b, in the bound of its
space, and with an equal one sleeps at its PC, not issued. It changes no byte of memory. -/
def Claims.WaitmReads : Prop :=
  ∀ (s : State) (k : Tok) (d a b o : BitVec 4) (z sp : BitVec 2) (g r : BitVec 1) (s1 : State) (key : Nat) (leaf : Word64),
    let i := Instr.waitm k d a b o z sp g r
    let v := if isYard key then 0 else memRead s.mem key (bytesOf z)
    ready s i = true → cleanX s i a 0 = true → cleanX s i b 1 = true → cleanX s i d 2 = true → fenced (met s i) s.cur 0 = false →
    checkAccess (met s i) sp (xVal s i a 0).toNat (bytesOf z) false = (s1, .key key leaf) → storeOwed (met s i) sp (xVal s i a 0).toNat (bytesOf z) = false → readFails s1 key (bytesOf z) = none →
    (v ≠ (xVal s i b 1).toNat % 2 ^ (8 * bytesOf z) →
      ∃ t, exec i s = .next (issuedAt s i t (boundOf sp) [.x d (loadedVal g (bytesOf z) v) none]) ∧ t.mem = s.mem ∧ t.task = (met s i).task) ∧
    (v = (xVal s i b 1).toNat % 2 ^ (8 * bytesOf z) →
      ∃ t, exec i s = .next t ∧ canIssue t s.cur = false ∧ (t.seq s.cur).pc = (s.seq s.cur).pc ∧
        (t.seq s.cur).issueCnt = (s.seq s.cur).issueCnt ∧ (t.seq s.cur).x = (s.seq s.cur).x ∧ t.mem = s.mem)

/-- R52, R56, R239 and R240: SPLITW above 8 is ILLEGAL_INSTR, and one that would break the pin limit of a bank SCRATCH_RANGE. Otherwise,
with what it waits for come (every operand queue empty, no mask job and no classification of MKEV under way, no read of L outstanding, no
buffered copy that touches own scratchpad), it issues, sets SPLIT and empties L1. -/
def Claims.SplitwSets : Prop :=
  ∀ (s : State) (k : Tok) (a : BitVec 4), let i := Instr.splitw k a
    ready s i = true → cleanX s i a 0 = true →
    (8 < (xVal s i a 0).toNat → faults s i 0x01 0) ∧
    ((xVal s i a 0).toNat ≤ 8 → (∃ b < 16, pinLimit (xVal s i a 0).toNat < pinsIn s.task.pins b) → faults s i 0x18 0) ∧
    ((xVal s i a 0).toNat ≤ 8 → (∀ b < 16, pinsIn s.task.pins b ≤ pinLimit (xVal s i a 0).toNat) → splitReady (met s i) = true →
      ∃ t, exec i s = .next (issuedAt s i t 1 []) ∧ t.task.split = (xVal s i a 0).truncate 4 ∧ t.core.l1 = [] ∧
        t.task = { (met s i).task with split := t.task.split } ∧ t.pkg = s.pkg)

/-- A maintenance instruction that has issued without a change of memory or of its task. -/
def maintained (s : State) (i : Instr) (t : State) : Prop := exec i s = .next (issuedAt s i t 1 []) ∧ t.mem = s.mem ∧ t.task = (met s i).task

/-- R239: CFLUSH leaves the line of its address in no L2 slice and not in this core's L1; CINV leaves it out of this core's L1 and L2 as it
was; CWB leaves every line in L2, its own unmodified. No byte of memory changes: memory holds every line's bytes.
That a line's bytes stand in memory is the model's choice (log 13). -/
def Claims.CacheMaintenance : Prop :=
  ∀ (s : State) (k : Tok) (a : BitVec 4) (s1 : State) (pa : Nat) (leaf : Word64),
    (let i := Instr.cflush k a
     ready s i = true → cleanX s i a 0 = true → place (met s i) 2 (xVal s i a 0).toNat true = (s1, .key pa leaf) →
     ∃ t, maintained s i t ∧ (∀ l ∈ t.pkg.l2, l.line ≠ pa / 128) ∧ ∀ l ∈ t.core.l1, l.line ≠ (xVal s i a 0).toNat / 128) ∧
    (let i := Instr.cinv k a
     ready s i = true → cleanX s i a 0 = true → place (met s i) 2 (xVal s i a 0).toNat true = (s1, .key pa leaf) →
     ∃ t, maintained s i t ∧ t.pkg = s.pkg ∧ ∀ l ∈ t.core.l1, l.line ≠ (xVal s i a 0).toNat / 128) ∧
    (let i := Instr.cwb k a
     ready s i = true → cleanX s i a 0 = true → place (met s i) 2 (xVal s i a 0).toNat false = (s1, .key pa leaf) →
     ∃ t, maintained s i t ∧ t.pkg.l2.map L2Line.line = s.pkg.l2.map L2Line.line ∧ ∀ l ∈ t.pkg.l2, l.line = pa / 128 → l.dirty = false)

/-- R56 and R242: SPIN pins a resident page of the own scratchpad within the pin limit of its bank, changes nothing where the page is
pinned, and faults SCRATCH_RANGE beyond the limit or the window; it pins a global page that translates, and faults XLATE_PERMISSION with 64
held. SPUN removes the page's pin, if there is one, and faults on an address outside the form of its space. -/
def Claims.PinsSet : Prop :=
  (∀ (s : State) (k : Tok) (a : BitVec 4), let i := Instr.spin k 0 a
    let p := BitVec.ofNat 7 ((xVal s i a 0).toNat / 2 ^ 14)
    ready s i = true → cleanX s i a 0 = true →
    (2 ^ 21 ≤ (xVal s i a 0).toNat → faults s i 0x18 (faultAddr 0 (xVal s i a 0))) ∧
    ((xVal s i a 0).toNat < 2 ^ 21 → s.task.pins.contains p = true → exec i s = .next (issued s i 1 [])) ∧
    ((xVal s i a 0).toNat < 2 ^ 21 → s.task.pins.contains p = false → pinsIn s.task.pins (p.toNat % 16) < pinLimit s.task.split.toNat →
      resident s p.toNat = true →
      exec i s = .next (issuedAt s i ((met s i).withTask { (met s i).task with pins := s.task.pins ++ [p] }) 1 [])) ∧
    ((xVal s i a 0).toNat < 2 ^ 21 → s.task.pins.contains p = false → pinLimit s.task.split.toNat ≤ pinsIn s.task.pins (p.toNat % 16) →
      faults s i 0x18 (faultAddr 0 (xVal s i a 0)))) ∧
  (∀ (s : State) (k : Tok) (a : BitVec 4) (s1 : State) (pa : Nat) (leaf : Word64), let i := Instr.spin k 2 a
    let va := BitVec.ofNat 56 ((xVal s i a 0).toNat / 2 ^ 16 * 2 ^ 16)
    ready s i = true → cleanX s i a 0 = true → place (met s i) 2 (xVal s i a 0).toNat false = (s1, .key pa leaf) →
    (s.task.gpins.contains va = false → s.task.gpins.length < 64 →
      ∃ t, exec i s = .next (issuedAt s i t 1 []) ∧ t.task.gpins = s.task.gpins ++ [va] ∧ t.task.pins = s.task.pins ∧ t.mem = s.mem) ∧
    (s.task.gpins.contains va = true → ∃ t, exec i s = .next (issuedAt s i t 1 []) ∧ t.task = (met s i).task ∧ t.mem = s.mem) ∧
    (s.task.gpins.contains va = false → 64 ≤ s.task.gpins.length → faults s i 0x06 (faultAddr 2 (xVal s i a 0)))) ∧
  (∀ (s : State) (k : Tok) (a : BitVec 4), let i := Instr.spun k 0 a
    ready s i = true → cleanX s i a 0 = true →
    ((xVal s i a 0).toNat < 2 ^ 21 →
      ∃ t, exec i s = .next (issuedAt s i t 1 []) ∧ t.mem = s.mem ∧ t.task.gpins = s.task.gpins ∧
        t.task.pins = s.task.pins.filter (fun p => p.toNat != (xVal s i a 0).toNat / 2 ^ 14)) ∧
    (2 ^ 21 ≤ (xVal s i a 0).toNat → faults s i 0x18 (faultAddr 0 (xVal s i a 0)))) ∧
  (∀ (s : State) (k : Tok) (a : BitVec 4), let i := Instr.spun k 2 a
    ready s i = true → cleanX s i a 0 = true →
    ((xVal s i a 0).toNat < 2 ^ 56 →
      ∃ t, exec i s = .next (issuedAt s i t 1 []) ∧ t.mem = s.mem ∧ t.task.pins = s.task.pins ∧
        t.task.gpins = s.task.gpins.filter (fun p => p.toNat != (xVal s i a 0).toNat / 2 ^ 16 * 2 ^ 16)) ∧
    (2 ^ 56 ≤ (xVal s i a 0).toNat → faults s i 0x06 (faultAddr 2 (xVal s i a 0))))

/-! ## Barrier objects and rings -/

/-- An instruction on an object (R97, R231): nothing holds it back, its object address is legal and not in loft space, no fence holds path
6 or an ordering point, and the object lies at memory key `key`, outside the yard window, with a route to it. -/
def onObject (s : State) (i : Instr) (a : BitVec 4) (align : Nat) (w : Bool) (sp : BitVec 2) (s1 : State) (key : Nat) : Prop :=
  ready s i = true ∧ Safety.memOk s ∧ cleanX s i a 0 = true ∧ (xVal s i a 0).extractLsb 63 58 = 0 ∧ (xVal s i a 0).extractLsb 57 56 = sp ∧ sp ≠ 3 ∧
    fenced (met s i) s.cur 6 = false ∧ fencedPoint (met s i) s.cur = false ∧
    (∃ leaf, checkAccess (met s i) sp ((xVal s i a 0).extractLsb 55 0).toNat align w = (s1, .key key leaf)) ∧ isYard key = false ∧
    noRoute s key = false

/-- The object at a key (R96). -/
def objectAt (m : List Host.Cell) (key : Nat) : BitVec 128 := BitVec.ofNat 128 (memRead m key 16)

/-- The fields of an object (R96). -/
def objExp (o : BitVec 128) : BitVec 16 := o.extractLsb 15 0
def objPend (o : BitVec 128) : BitVec 16 := o.extractLsb 31 16
def objBytes (o : BitVec 128) : BitVec 32 := o.extractLsb 63 32
def objPhase (o : BitVec 128) : BitVec 4 := o.extractLsb 67 64
def objErr (o : BitVec 128) : Bool := o.getLsbD 68
def objWc (o : BitVec 128) : Bool := o.getLsbD 69
def objDef (o : BitVec 128) : BitVec 16 := o.extractLsb 87 72

/-- An object of those fields, its reserved bits zero (R96). -/
def objectOf (exp pend : BitVec 16) (bytes : BitVec 32) (phase : BitVec 4) (err wc : Bool) (df : BitVec 16) : BitVec 128 :=
  0#40 ++ df ++ 0#2 ++ BitVec.ofBool wc ++ BitVec.ofBool err ++ phase ++ bytes ++ pend ++ exp

/-- A valid object (R96). -/
def objValid (o : BitVec 128) : Prop :=
  objExp o ≠ 0 ∧ o.extractLsb 127 88 = 0 ∧ o.extractLsb 71 70 = 0 ∧ (objDef o).toNat ≤ (objPend o).toNat

/-- An open object (R98). -/
def objOpen (o : BitVec 128) : Prop := objValid o ∧ objWc o = false ∧ objErr o = false

/-- Evaluate of R98 on the counts of an open object. -/
def objEvaluated (exp pend : BitVec 16) (bytes : BitVec 32) (phase : BitVec 4) (df : BitVec 16) : BitVec 128 :=
  if pend = 0 ∧ bytes = 0 then objectOf exp exp 0 (phase + 1) false false df else objectOf exp pend bytes phase false false df

/-- The operation has issued with the object taking a value and no other byte of memory changing. -/
def objectBecomes (s : State) (i : Instr) (key : Nat) (o : BitVec 128) : Prop :=
  ∃ t, exec i s = .next (issuedAt s i t 1 []) ∧ objectAt t.mem key = o ∧ (∀ x, x < key ∨ key + 16 ≤ x → memGet t.mem x = memGet s.mem x)

/-- R98 and R257: BINIT writes an object of n expected and n pending arrivals in phase 0, frozen where bit 16 is set; n = 0 and a bit above
16 are ILLEGAL_INSTR; BINV makes the object all zero. No other byte of memory changes. -/
def Claims.BarrierInit : Prop :=
  (∀ (s : State) (k : Tok) (a : BitVec 4) (b : Src) (sp : BitVec 2) (s1 : State) (key : Nat), let i := Instr.binit k a b
    let v := srcVal s i b 1
    onObject s i a 16 true sp s1 key → cleanSrc s i b 1 = true →
    (v.extractLsb 63 17 = 0 → v.extractLsb 15 0 ≠ 0 →
      objectBecomes s i key (objectOf (v.extractLsb 15 0) (v.extractLsb 15 0) 0 0 false (v.getLsbD 16) 0)) ∧
    (v.extractLsb 63 17 ≠ 0 ∨ v.extractLsb 15 0 = 0 → faults s i 0x01 0)) ∧
  (∀ (s : State) (k : Tok) (a : BitVec 4) (sp : BitVec 2) (s1 : State) (key : Nat), let i := Instr.binv k a
    onObject s i a 16 true sp s1 key → objectBecomes s i key 0)

/-- R98: BARV on an open object takes c from the pending arrivals and adds e to the expected bytes where they fit, advancing the phase when
both counts are zero, and sets ERR with the counts unchanged where they do not; BEXP adds expected bytes where they fit, else sets ERR. No
other byte of memory changes. -/
def Claims.BarrierArrivals : Prop :=
  (∀ (s : State) (k : Tok) (a : BitVec 4) (b : Src) (sp : BitVec 2) (s1 : State) (key : Nat), let i := Instr.barv k a b
    let c := ((srcVal s i b 1).extractLsb 15 0).toNat
    let e := ((srcVal s i b 1).extractLsb 47 16).toNat
    let o := objectAt s.mem key
    onObject s i a 16 true sp s1 key → cleanSrc s i b 1 = true → (srcVal s i b 1).extractLsb 63 48 = 0 → objOpen o →
    (c ≤ (objPend o).toNat - (objDef o).toNat → (objBytes o).toNat + e < 2 ^ 32 →
      objectBecomes s i key (objEvaluated (objExp o) (objPend o - BitVec.ofNat 16 c) (objBytes o + BitVec.ofNat 32 e) (objPhase o) (objDef o))) ∧
    ((objPend o).toNat - (objDef o).toNat < c ∨ 2 ^ 32 ≤ (objBytes o).toNat + e →
      objectBecomes s i key (objectOf (objExp o) (objPend o) (objBytes o) (objPhase o) true false (objDef o)))) ∧
  (∀ (s : State) (k : Tok) (a : BitVec 4) (b : Src) (sp : BitVec 2) (s1 : State) (key : Nat), let i := Instr.bexp k a b
    let e := (srcVal s i b 1).toNat
    let o := objectAt s.mem key
    onObject s i a 16 true sp s1 key → cleanSrc s i b 1 = true → (srcVal s i b 1).extractLsb 63 32 = 0 → objOpen o →
    ((objBytes o).toNat + e < 2 ^ 32 →
      objectBecomes s i key (objectOf (objExp o) (objPend o) (objBytes o + BitVec.ofNat 32 e) (objPhase o) false false (objDef o))) ∧
    (2 ^ 32 ≤ (objBytes o).toNat + e →
      objectBecomes s i key (objectOf (objExp o) (objPend o) (objBytes o) (objPhase o) true false (objDef o))))

/-- R97, R98 and R101: on an invalid or a frozen object BARV, BARD and BEXP change no byte of memory, and the sequencer holds the
refusal as its pending object error where it holds none. -/
def Claims.BarrierRefusals : Prop :=
  ∀ (s : State) (k : Tok) (a : BitVec 4) (b : Src) (sp : BitVec 2) (s1 : State) (key : Nat) (i : Instr),
    (i = .barv k a b ∧ (srcVal s i b 1).extractLsb 63 48 = 0 ∨ i = .bard k a b ∧ (srcVal s i b 1).extractLsb 63 16 = 0 ∨
      i = .bexp k a b ∧ (srcVal s i b 1).extractLsb 63 32 = 0) →
    onObject s i a 16 true sp s1 key → cleanSrc s i b 1 = true → ¬ objValid (objectAt s.mem key) ∨ objWc (objectAt s.mem key) = true →
    ((met s i).seq s.cur).objErr = none →
    ∃ t r, exec i s = .next (issuedAt s i t 1 []) ∧ t.mem = s.mem ∧ (t.seq s.cur).objErr = some (xVal s i a 0, r) ∧
      r.cause.extractLsb 7 0 = 0x0D#8 ∧ r.addr = xVal s i a 0

/-- R98 and R99: BARD on an open object registers a deferred arrival, counted in DEF, that waits for the commands of its sequencer
outstanding on paths 0 to 5; where it does not fit it sets ERR and registers nothing. -/
def Claims.DeferredRegistered : Prop :=
  ∀ (s : State) (k : Tok) (a : BitVec 4) (b : Src) (sp : BitVec 2) (s1 : State) (key : Nat), let i := Instr.bard k a b
    let c := (srcVal s i b 1).toNat
    let o := objectAt s.mem key
    onObject s i a 16 true sp s1 key → cleanSrc s i b 1 = true → c < 2 ^ 16 → objOpen o →
    (c ≤ (objPend o).toNat - (objDef o).toNat →
      ∃ t d, exec i s = .next (issuedAt s i t 1 []) ∧
        objectAt t.mem key = objectOf (objExp o) (objPend o) (objBytes o) (objPhase o) false false (objDef o + BitVec.ofNat 16 c) ∧
        t.task.deferred = s.task.deferred ++ [d] ∧ d.obj = xVal s i a 0 ∧ d.c = BitVec.ofNat 16 c ∧
        (∀ x, x ∈ d.waits ↔ ∃ p ≤ 5, (x, p) ∈ outstanding (met s i) s.cur)) ∧
    ((objPend o).toNat - (objDef o).toNat < c →
      ∃ t, exec i s = .next (issuedAt s i t 1 []) ∧ t.task.deferred = s.task.deferred ∧
        objectAt t.mem key = objectOf (objExp o) (objPend o) (objBytes o) (objPhase o) true false (objDef o))

/-- R100 and R257: on a valid object without ERR, and with no object error pending in the sequencer, BWAIT gives the phase where it differs
from p and sleeps at its PC where it does not; BTEST gives its flag and the phase; on an object with ERR, or an invalid one, both fault
BARRIER_OVERRUN. They change no byte of memory. -/
def Claims.BarrierWaits : Prop :=
  (∀ (s : State) (k : Tok) (d a : BitVec 4) (b : Src) (sp : BitVec 2) (s1 : State) (key : Nat), let i := Instr.bwait k d a b
    let o := objectAt s.mem key
    onObject s i a 16 false sp s1 key → cleanSrc s i b 1 = true → cleanX s i d 2 = true → (srcVal s i b 1).toNat < 16 →
    ((met s i).seq s.cur).objErr = none →
    (objValid o → objErr o = false → (objPhase o).toNat ≠ (srcVal s i b 1).toNat →
      ∃ t, exec i s = .next (issuedAt s i t (boundOf sp) [.x d ((objPhase o).zeroExtend 64) none]) ∧ t.mem = s.mem) ∧
    (objValid o → objErr o = false → (objPhase o).toNat = (srcVal s i b 1).toNat →
      ∃ t, exec i s = .next t ∧ canIssue t s.cur = false ∧ (t.seq s.cur).pc = (s.seq s.cur).pc ∧ t.mem = s.mem) ∧
    (¬ objValid o ∨ objErr o = true → faults s i 0x0D (xVal s i a 0))) ∧
  (∀ (s : State) (k : Tok) (d a : BitVec 4) (b : Src) (sp : BitVec 2) (s1 : State) (key : Nat), let i := Instr.btest k d a b
    let o := objectAt s.mem key
    onObject s i a 16 false sp s1 key → cleanSrc s i b 1 = true → (srcVal s i b 1).toNat < 16 → ((met s i).seq s.cur).objErr = none →
    (objValid o → objErr o = false →
      ∃ t, exec i s = .next (issuedAt s i t (boundOf sp) [.x d (0#52 ++ objPhase o ++ 0#7 ++
        BitVec.ofBool (decide ((objPhase o).toNat ≠ (srcVal s i b 1).toNat))) none]) ∧ t.mem = s.mem) ∧
    (¬ objValid o ∨ objErr o = true → faults s i 0x0D (xVal s i a 0)))

/-- R101: a pending object error is delivered at the next BTEST of its object, which it stops, with its own record, and is then held no
longer. -/
def Claims.ObjectErrorDelivered : Prop :=
  ∀ (s : State) (k : Tok) (d a : BitVec 4) (b : Src) (r : FaultRec), let i := Instr.btest k d a b
    ready s i = true → cleanX s i a 0 = true → cleanSrc s i b 1 = true → (srcVal s i b 1).toNat < 16 → fenced (met s i) s.cur 6 = false →
    ((met s i).seq s.cur).objErr = some (xVal s i a 0, r) →
    ∃ t, exec i s = .next t ∧ t.core.run = .stopped ∧ (t.seq s.cur).objErr = none ∧ t.task.faults.addr = r.addr ∧
      t.task.faults.pc = r.pc ∧ t.task.faults.cause.extractLsb 7 0 = r.cause.extractLsb 7 0 ∧ t.mem = s.mem

/-- A ring operation of n on a ring that it may act on (R104). -/
def ringLegal (s : State) (i : Instr) (key : Nat) (b : Src) : Prop :=
  let r := Ring.ofBits (memRead s.mem key 64)
  r.invalid = false ∧ r.err = false ∧ 1 ≤ (srcVal s i b 1).toNat ∧ (srcVal s i b 1).toNat ≤ r.slots

/-- The operation has issued with the ring taking a value and no other byte of memory changing. -/
def ringBecomes (s : State) (i : Instr) (key bound : Nat) (w : List Write) (r : Ring) : Prop :=
  ∃ t, exec i s = .next (issuedAt s i t bound w) ∧ memRead t.mem key 64 = r.toBits ∧
    (∀ x, x < key ∨ key + 64 ≤ x → memGet t.mem x = memGet s.mem x)

/-- R103, R104 and R256: with no ring operation held, RINIT writes the whole descriptor with its counts zero, and faults RING_PROTOCOL for
fields that break it. -/
def Claims.RingInit : Prop :=
  ∀ (s : State) (k : Tok) (d a : BitVec 4) (b : Src) (sp : BitVec 2) (s1 : State) (key : Nat), let i := Instr.rinit k d a b
    let v := (srcVal s i b 1).toNat
    let r : Ring := { base := (xVal s i d 2).toNat, ssp := v / 2 ^ 20 % 4, log2n := v / 2 ^ 16 % 16, stride := v % 2 ^ 16, head := 0, tail := 0
                      claimed := 0, taken := 0, valid := true, err := false, rsv := 0 }
    onObject s i a 64 true sp s1 key → cleanSrc s i b 1 = true → cleanX s i d 2 = true → s.pkg.heldRings = [] →
    (v < 2 ^ 22 → v / 2 ^ 20 % 4 ≠ 3 → v % 2 ^ 16 ≠ 0 → v % 64 = 0 → (xVal s i d 2).toNat % 64 = 0 → ringBecomes s i key 1 [] r) ∧
    (2 ^ 22 ≤ v ∨ v / 2 ^ 20 % 4 = 3 ∨ v % 2 ^ 16 = 0 ∨ v % 64 ≠ 0 ∨ (xVal s i d 2).toNat % 64 ≠ 0 → faults s i 0x0F (xVal s i a 0))

/-- The result of a claim or a take that has room: the start count with bit 32 set (R256). -/
def claimed (k : Nat) : Word64 := BitVec.ofNat 64 (2 ^ 32 + k)

/-- R104 and R256: on a ring of legal state and with no ring operation held, RCLAIM and RWFREE with room claim n slots, RTAKE and RWFILL
with enough filled take n slots, each giving the start count; without room RCLAIM and RTAKE give 0 and RWFREE and RWFILL sleep, memory
unchanged. -/
def Claims.RingClaims : Prop :=
  ∀ (s : State) (k : Tok) (d a : BitVec 4) (b : Src) (sp : BitVec 2) (s1 : State) (key : Nat) (i : Instr) (take waits : Bool),
    i = (if take then (if waits then .rwfill k d a b else .rtake k d a b) else (if waits then .rwfree k d a b else .rclaim k d a b)) →
    let r := Ring.ofBits (memRead s.mem key 64)
    let n := (srcVal s i b 1).toNat
    let room := if take then (r.head + 2 ^ 32 - r.taken) % 2 ^ 32 else r.slots - (r.claimed + 2 ^ 32 - r.tail) % 2 ^ 32
    onObject s i a 64 true sp s1 key → cleanSrc s i b 1 = true → (waits = true → cleanX s i d 2 = true) → ringLegal s i key b →
    s.pkg.heldRings = [] →
    (n ≤ room → ringBecomes s i key (boundOf sp) [.x d (claimed (if take then r.taken else r.claimed)) none]
      (if take then { r with taken := (r.taken + n) % 2 ^ 32 } else { r with claimed := (r.claimed + n) % 2 ^ 32 })) ∧
    (room < n → waits = false → ∃ t, exec i s = .next (issuedAt s i t (boundOf sp) [.x d 0 none]) ∧ t.mem = s.mem) ∧
    (room < n → waits = true → ∃ t, exec i s = .next t ∧ canIssue t s.cur = false ∧ (t.seq s.cur).pc = (s.seq s.cur).pc ∧ t.mem = s.mem)

/-- R104: with no ring operation held, RPUB of k = HEAD within CLAIMED publishes, RREL of k = TAIL within TAKEN releases; a later k within
the same limit has issued and is held while its sequencer sleeps; any other k sets ERR and faults RING_PROTOCOL. -/
def Claims.RingPublishes : Prop :=
  ∀ (s : State) (k : Tok) (d a : BitVec 4) (b : Src) (sp : BitVec 2) (s1 : State) (key : Nat) (i : Instr) (rel : Bool),
    i = (if rel then .rrel k d a b else .rpub k d a b) →
    let r := Ring.ofBits (memRead s.mem key 64)
    let n := (srcVal s i b 1).toNat
    let c := (xVal s i d 2).toNat % 2 ^ 32
    let low := if rel then 0 else (r.head + 2 ^ 32 - r.tail) % 2 ^ 32
    let top := ((if rel then r.taken else r.claimed) + 2 ^ 32 - r.tail) % 2 ^ 32
    let at_ := (c + 2 ^ 32 - r.tail) % 2 ^ 32
    onObject s i a 64 true sp s1 key → cleanSrc s i b 1 = true → cleanX s i d 2 = true → ringLegal s i key b → s.pkg.heldRings = [] →
    (at_ = low → at_ + n ≤ top → ringBecomes s i key 1 [] (if rel then { r with tail := (c + n) % 2 ^ 32 } else { r with head := (c + n) % 2 ^ 32 })) ∧
    (low < at_ → at_ + n ≤ top → ∃ t, exec i s = .next t ∧ canIssue t s.cur = false ∧ t.mem = s.mem ∧
      (t.seq s.cur).issueCnt = (s.seq s.cur).issueCnt + 1 ∧
      ∃ h, t.pkg.heldRings = [h] ∧ h.k.toNat = c ∧ h.n = n ∧ h.rel = rel ∧ h.q = s.cur) ∧
    (at_ < low ∨ top < at_ + n → ∃ t, exec i s = .next t ∧ t.core.run = .stopped ∧ t.task.faults.cause.extractLsb 7 0 = 0x0F#8 ∧
      (Ring.ofBits (memRead t.mem key 64)).err = true)

/-- R104: RSTAT of a valid ring without ERR gives the filled slots above and the free ones below, and changes no byte of memory. -/
def Claims.RingStatus : Prop :=
  ∀ (s : State) (k : Tok) (d a : BitVec 4) (sp : BitVec 2) (s1 : State) (key : Nat), let i := Instr.rstat k d a
    let r := Ring.ofBits (memRead s.mem key 64)
    onObject s i a 64 false sp s1 key → r.invalid = false → r.err = false →
    ∃ t, exec i s = .next (issuedAt s i t (boundOf sp) [.x d (BitVec.ofNat 64 ((r.head + 2 ^ 32 - r.taken) % 2 ^ 32 * 2 ^ 32 +
      (r.slots - (r.claimed + 2 ^ 32 - r.tail) % 2 ^ 32))) none]) ∧ t.mem = s.mem

/-! ## Streams and copies -/

/-- The stream slot that an instruction names, as it meets it (R244). -/
def slotOf (s : State) (n : BitVec 4) : StreamSlot := s.plane.streams.get n

/-- CUR of a slot (R243). -/
def cursorOf (x : StreamSlot) : Nat := (x.desc.extractLsb 351 312).toNat

/-- A descriptor with CUR set. -/
def withCursor (d : BitVec 512) (c : Nat) : BitVec 512 := d.extractLsb 511 352 ++ BitVec.ofNat 40 c ++ d.extractLsb 311 0

/-- The field of a descriptor as SGET returns it: strides sign-extended, field 13 as TDIM, KMEN and KM packed (R245). -/
def fieldRule (d : BitVec 512) (f : BitVec 4) : Word64 :=
  match f.toNat with
  | 0 => (d.extractLsb 55 0).zeroExtend 64
  | 1 => (d.extractLsb 57 56).zeroExtend 64
  | 2 => (d.extractLsb 62 62).zeroExtend 64
  | 13 => 0#58 ++ d.extractLsb 309 308 ++ d.extractLsb 307 304
  | 14 => (d.extractLsb 351 312).zeroExtend 64
  | n => if n ≤ 7 then ((d >>> (64 + 32 * (n - 3))).truncate 32).signExtend 64 else ((d >>> (224 + 16 * (n - 8))).truncate 16).zeroExtend 64

/-- A value that fits a field (R245). -/
def fieldFits (f : BitVec 4) (v : Word64) : Prop :=
  if 3 ≤ f.toNat ∧ f.toNat ≤ 7 then -(2 ^ 31 : Int) ≤ v.toInt ∧ v.toInt < 2 ^ 31
  else v.toNat < 2 ^ (match f.toNat with | 0 => 56 | 1 => 2 | 2 => 1 | 13 => 6 | 14 => 40 | _ => 16)

/-- An instruction on a record that it reads at its issue (R231): nothing holds it back, the record's address is legal and not in loft
space, no fence holds path 0, and the record lies at memory key `key`, outside the yard window. -/
def onRecord (s : State) (i : Instr) (a : BitVec 4) (align : Nat) (sp : BitVec 2) (s1 : State) (key : Nat) : Prop :=
  ready s i = true ∧ cleanX s i a 0 = true ∧ (xVal s i a 0).extractLsb 63 58 = 0 ∧ (xVal s i a 0).extractLsb 57 56 = sp ∧ sp ≠ 3 ∧
    fenced (met s i) s.cur 0 = false ∧
    (∃ leaf, checkAccess (met s i) sp ((xVal s i a 0).extractLsb 55 0).toNat align false = (s1, .key key leaf)) ∧ isYard key = false

/-- R243 to R245: SDEF takes the 64 bytes of a valid descriptor into a slot without entries pending, and no other slot changes; an
invalid descriptor faults STREAM_RANGE, the slot unchanged. No byte of memory changes. -/
def Claims.SdefTakes : Prop :=
  ∀ (s : State) (k : Tok) (n a : BitVec 4) (sp : BitVec 2) (s1 : State) (key : Nat), let i := Instr.sdef k n a
    let d := memRead s.mem key 64
    onRecord s i a 64 sp s1 key → (slotOf s n).pend = 0 → readFails s1 key 64 = none →
    (streamValid d = true → ∃ t, exec i s = .next (issuedAt s i t 1 []) ∧ t.mem = s.mem ∧
      t.plane.streams.get n = { desc := BitVec.ofNat 512 d, valid := true, pend := 0 } ∧
      ∀ m, m ≠ n → t.plane.streams.get m = s.plane.streams.get m) ∧
    (streamValid d = false → ∃ t, exec i s = .next t ∧ t.core.run = .stopped ∧ t.task.faults.cause.extractLsb 7 0 = 0x14#8 ∧
      t.plane.streams.get n = s.plane.streams.get n ∧ t.mem = s.mem)

/-- R244 and R245: SSET of a slot without entries pending writes the one field it names where the value fits and the descriptor stays
valid, every other field as it was, and faults STREAM_RANGE where it does not fit or the descriptor would be invalid; SGET returns the
field; both fault STREAM_RANGE on an invalid slot (the model's reading of R244, log 34). -/
def Claims.StreamFields : Prop :=
  (∀ (s : State) (k : Tok) (n f : BitVec 4) (b : Src), let i := Instr.sset k n f b
    ready s i = true → cleanSrc s i b 0 = true →
    ((slotOf s n).valid = false → faults s i 0x14 0) ∧
    ((slotOf s n).valid = true → (slotOf s n).pend = 0 →
    (fieldFits f (srcVal s i b 0) → (∀ d, streamSet (slotOf s n).desc.toNat f.toNat (srcVal s i b 0) = some d → streamValid d = true) →
      ∃ t d, exec i s = .next (issuedAt s i t 1 []) ∧ t.mem = s.mem ∧ t.plane.streams.get n = { slotOf s n with desc := d } ∧
        fieldRule d f = srcVal s i b 0 ∧ (∀ g, g ≠ f → g ≠ 15 → fieldRule d g = fieldRule (slotOf s n).desc g)) ∧
    (¬ fieldFits f (srcVal s i b 0) → faults s i 0x14 0) ∧
    (∀ d, streamSet (slotOf s n).desc.toNat f.toNat (srcVal s i b 0) = some d → streamValid d = false → faults s i 0x14 0))) ∧
  (∀ (s : State) (k : Tok) (d n f : BitVec 4), let i := Instr.sget k d n f
    ready s i = true →
    ((slotOf s n).valid = true → exec i s = .next (issued s i 1 [.x d (fieldRule (slotOf s n).desc f) none])) ∧
    ((slotOf s n).valid = false → faults s i 0x14 0))

/-- R243 and R245: on a valid slot, without entries pending for the first two, SADV advances the cursor by b modulo the number of entries, and
without WRAP faults STREAM_RANGE beyond that number; SRST sets it to 0; SPOS gives the address of the entry at the cursor: BASE plus each
index times its stride, modulo 2^56. -/
def Claims.StreamCursor : Prop :=
  (∀ (s : State) (k : Tok) (m : BitVec 4) (b : Src), let i := Instr.sadv k m b
    let x := slotOf s m
    let n := x.desc.toNat
    let v := (srcVal s i b 0).toNat
    ready s i = true → cleanSrc s i b 0 = true → x.valid = true → x.pend = 0 →
    (streamWrap n = true ∨ cursorOf x + v ≤ streamTotal n →
      ∃ t, exec i s = .next (issuedAt s i t 1 []) ∧ t.mem = s.mem ∧
        t.plane.streams.get m = { x with desc := withCursor x.desc ((cursorOf x + v) % streamTotal n) }) ∧
    (streamWrap n = false → streamTotal n < cursorOf x + v → faults s i 0x14 0)) ∧
  (∀ (s : State) (k : Tok) (m : BitVec 4), let i := Instr.srst k m
    ready s i = true → (slotOf s m).valid = true → (slotOf s m).pend = 0 →
    ∃ t, exec i s = .next (issuedAt s i t 1 []) ∧ t.mem = s.mem ∧
      t.plane.streams.get m = { slotOf s m with desc := withCursor (slotOf s m).desc 0 }) ∧
  (∀ (s : State) (k : Tok) (d m : BitVec 4), let i := Instr.spos k d m
    let n := (slotOf s m).desc.toNat
    let e := cursorOf (slotOf s m)
    let x := fun j => streamExtent n j
    ready s i = true → (slotOf s m).valid = true →
    exec i s = .next (issued s i 1 [.x d (BitVec.ofNat 64 (((((slotOf s m).desc.extractLsb 55 0).toNat : Int) +
      ((e % x 0 : Nat) : Int) * streamStride n 0 + ((e / x 0 % x 1 : Nat) : Int) * streamStride n 1 +
      ((e / (x 0 * x 1) % x 2 : Nat) : Int) * streamStride n 2 + ((e / (x 0 * x 1 * x 2) % x 3 : Nat) : Int) * streamStride n 3 +
      ((e / (x 0 * x 1 * x 2 * x 3) % x 4 : Nat) : Int) * streamStride n 4) % (2 ^ 56 : Int)).toNat) none]))

/-- The queue of a one-entry move is ready: a place for a load, an unpoisoned entry for a store (R226, R246). -/
def moveReady (s : State) (load : Bool) (qn : BitVec 3) (sp : BitVec 2) (addr : Nat) : Prop :=
  if load then sldnPending s qn = false ∧ 0 < qRoom s qn ∧ entryLocked s sp addr = none
  else unitAhead s false qn = false ∧ ∃ e, oHead s (qn.truncate 2) = some e ∧ e.poison = none

/-- R246 and R247: on a valid slot, SLD, SLDN, SST and SSTN of a count of 0 do nothing. Of at least one entry they fault STREAM_RANGE where
they would run past the last entry without WRAP, or where an entry has a tile index of 512 or more. Otherwise, with their first entry skipped
by its keep-mask or legal at its place, and for SLD and SST their queue ready, they hand their entries to the stream unit with the keep-mask
as it stands: the cursor and PEND move at issue, and no byte of memory changes. -/
def Claims.StreamMoves : Prop :=
  ∀ (s : State) (k : Tok) (i : Instr) (m : BitVec 4) (qn : BitVec 3) (load one : Bool) (count : Nat),
    ((i = .sld k qn m ∧ load = true ∧ one = true ∧ count = 1) ∨
      (∃ b, i = .sldn k qn m b ∧ load = true ∧ one = false ∧ cleanSrc s i b 0 = true ∧ count = (srcVal s i b 0).toNat) ∨
      (∃ o : BitVec 2, i = .sst k m o ∧ qn = o.zeroExtend 3 ∧ load = false ∧ one = true ∧ count = 1) ∨
      (∃ (o : BitVec 2) (d : BitVec 4), i = .sstn k d m o ∧ qn = o.zeroExtend 3 ∧ load = false ∧ one = false ∧ cleanX s i d 0 = true ∧
        count = (xVal s i d 0).toNat)) →
    let x := slotOf s m
    let n := x.desc.toNat
    let mask := if streamGated n then some ((met s i).readKm (streamKm n) 9) else none
    let addr := streamAddr n (cursorOf x)
    ready s i = true → x.valid = true → streamValid n = true → fenced (met s i) s.cur 5 = false →
    (count = 0 → exec i s = .next (issued s i 1 [])) ∧
    (1 ≤ count → streamWrap n = false → streamTotal n < cursorOf x + count → faults s i 0x14 0) ∧
    (1 ≤ count → streamTileOver n (cursorOf x) count = true → faults s i 0x14 0) ∧
    (1 ≤ count → streamWrap n = true ∨ cursorOf x + count ≤ streamTotal n →
      streamTileOver n (cursorOf x) count = false →
      (streamSkips n mask (cursorOf x) = true ∨
        (∃ s1 key leaf, entryPlace (met s i) (streamSp n) addr (!load) = (s1, .key key leaf)) ∧
        (one = true → moveReady (met s i) load qn (streamSp n) addr)) →
      ∃ t j, exec i s = .next (issuedAt s i t 1 []) ∧ t.mem = s.mem ∧ t.task.jobs = s.task.jobs ++ [j] ∧ j.slot = m ∧ j.load = load ∧ j.qn = qn ∧
        j.first = cursorOf x ∧ j.count = count ∧ j.done = 0 ∧ j.mask = mask ∧ (t.plane.streams.get m).pend = x.pend + count ∧
        cursorOf (t.plane.streams.get m) = (cursorOf x + count) % streamTotal n)

/-- The members of the COPY group with their FN (R249). -/
def copyForms : List ((Tok → BitVec 4 → Instr) × BitVec 3) :=
  [ (Instr.cpy, 0), (Instr.cpys, 1), (Instr.gath, 2), (Instr.scat, 3), (Instr.cpyf, 5) ]

/-- What a copy instruction leaves where nothing stops it: its command last in the buffer with the descriptor as read, one slot more in the
E FIFO of its sequencer, and for CPYQ one place of its queue for every 256 bytes; memory and x registers are as before (R250, R251). -/
def copyQueued (s : State) (i : Instr) (obj : Word64) (desc : Nat) (fn : BitVec 3) (eff : Word64) : Prop :=
  ∃ t c, exec i s = .next (issuedAt s i t 1 []) ∧ t.mem = s.mem ∧ t.task.copies = s.task.copies ++ [c] ∧ c.desc = BitVec.ofNat 1024 desc ∧
    c.obj = obj ∧ c.fn = fn ∧ c.eff = eff ∧ c.accepted = false ∧ c.moved = 0 ∧ c.stop = none ∧ c.origin.q = s.cur ∧
    (fn = 4 → c.places.length = copyTotal desc / 256) ∧ c.origin.pc = (s.seq s.cur).pc ∧ c.origin.seqNum = (s.seq s.cur).issueCnt ∧
    (t.seq s.cur).e.length = ((met s i).seq s.cur).e.length + 1 ∧ (t.seq s.cur).x = (s.seq s.cur).x

/-- A copy instruction meets a legal descriptor, live handles, first pages that translate, and room (R250, R251). -/
def copyLegal (s : State) (i : Instr) (s1 : State) (key : Nat) (fn : BitVec 3) : Prop :=
  fenced (met s i) s.cur (if fn = 2 ∨ fn = 3 then 2 else 1) = false ∧ readFails s1 key 128 = none ∧
    copyBad (memRead s.mem key 128) fn = false ∧ handleCheck s1 (memRead s.mem key 128) fn false = none ∧
    handleCheck s1 (memRead s.mem key 128) fn true = none ∧ (∃ a, firstPage s1 (memRead s.mem key 128) fn false = .at a) ∧
    (∃ a, firstPage s1 (memRead s.mem key 128) fn true = .at a) ∧ (s.task.copies.filter (fun c => !c.accepted)).length < 64 ∧
    ((met s i).seq s.cur).e.length < 32

/-- R248 to R251: CPY, CPYS, GATH, SCAT, CPYF and CPYQ with a legal descriptor, live handles, first pages that translate and room put their
command into the copy buffer, CPYS with its stamp plus TOFS as effective time and the others with TIME; a descriptor of CPY, CPYS, GATH,
SCAT or CPYF that breaks R249 faults COPY_ERROR and enters nothing. -/
def Claims.CopiesQueued : Prop :=
  (∀ r ∈ copyForms, ∀ (s : State) (k : Tok) (a : BitVec 4) (sp : BitVec 2) (s1 : State) (key : Nat), let i := r.1 k a
    let n := memRead s.mem key 128
    onRecord s i a 128 sp s1 key → copyLegal s i s1 key r.2 →
    copyQueued s i (xVal s i a 0) n r.2 (if r.2 = 1 then BitVec.ofNat 64 (copyWord4 n) + s.task.tofs else s.pkg.time)) ∧
  (∀ (s : State) (k : Tok) (a : BitVec 4) (q : BitVec 3) (sp : BitVec 2) (s1 : State) (key : Nat), let i := Instr.cpyq k a q
    let n := memRead s.mem key 128
    onRecord s i a 128 sp s1 key → copyLegal s i s1 key 4 → sldnPending (met s i) q = false → copyTotal n / 256 ≤ qRoom (met s i) q →
    copyQueued s i (xVal s i a 0) n 4 s.pkg.time) ∧
  (∀ r ∈ copyForms, ∀ (s : State) (k : Tok) (a : BitVec 4) (sp : BitVec 2) (s1 : State) (key : Nat), let i := r.1 k a
    onRecord s i a 128 sp s1 key →
    fenced (met s i) s.cur (if r.2 = 2 ∨ r.2 = 3 then 2 else 1) = false → readFails s1 key 128 = none →
    copyBad (memRead s.mem key 128) r.2 = true →
    ∃ t, exec i s = .next t ∧ t.core.run = .stopped ∧ t.task.faults.cause.extractLsb 7 0 = 0x0A#8 ∧ t.task.copies = s.task.copies ∧
      t.mem = s.mem)

/-! ## Templates, masks and keep-masks -/

/-- The slot and the field that a TPLC instruction names (R281). -/
def namedSlot (v : Word64) : BitVec 6 := v.extractLsb 5 0
def namedField (v : Word64) : Nat := (v.extractLsb 12 8).toNat

/-- No bit but those of the slot, or of the slot and a field from 1 to `top` (R281). -/
def namesSlot (v : Word64) : Prop := v.extractLsb 63 6 = 0
def namesField (v : Word64) (top : Nat) : Prop := v.extractLsb 63 13 = 0 ∧ v.extractLsb 7 6 = 0 ∧ 1 ≤ namedField v ∧ namedField v ≤ top

/-- No covered write is on its way to the record (R205, R282). -/
def slotClear (s : State) (i : Instr) (r : BitVec 6) : Prop := coveredHit (met s i).task .C [.tpl r] = false

/-- R281: on C, with no covered write on its way to the slot, TSET writes the bits of the one field that a names (none for LATCLASS), TGET
gives a field of the record as read whole (zero for field 25), TCLR writes the empty record, and TLD takes bits [255:0] of the filled head of
its queue; an a that names no slot or field of the instruction, and a value wider than its field, are ILLEGAL_INSTR. -/
def Obligations.TemplateMemory : Prop :=
  (∀ (s : State) (k : Tok) (a : BitVec 4) (b : Src), let i := Instr.tset k a b
    let v := xVal s i a 0
    ready s i = true → s.cur = .C → cleanX s i a 0 = true → cleanSrc s i b 1 = true → slotClear s i (namedSlot v) →
    (namesField v 23 → (srcVal s i b 1).toNat < 2 ^ fieldWidth (namedField v) →
      exec i s = .next (issued s i 2 [.tpl (namedSlot v) (BitVec.ofNat 256 ((2 ^ fieldWidth (namedField v) - 1) * 2 ^ fieldLow (namedField v)))
        (BitVec.ofNat 256 ((srcVal s i b 1).toNat * 2 ^ fieldLow (namedField v)))])) ∧
    (namesField v 24 → namedField v = 24 → (srcVal s i b 1).toNat < 2 ^ fieldWidth 24 → exec i s = .next (issued s i 2 [])) ∧
    (¬ namesField v 24 ∨ 2 ^ fieldWidth (namedField v) ≤ (srcVal s i b 1).toNat → faults s i 0x01 0)) ∧
  (∀ (s : State) (k : Tok) (d a : BitVec 4), let i := Instr.tget k d a
    let v := xVal s i a 0
    ready s i = true → s.cur = .C → cleanX s i a 0 = true →
    (slotClear s i (namedSlot v) → namesField v 25 →
      exec i s = .next (issued s i 2 [.x d (if namedField v = 25 then 0 else
        BitVec.ofNat 64 (((met s i).readTpl (namedSlot v) 1).toNat / 2 ^ fieldLow (namedField v) % 2 ^ fieldWidth (namedField v))) none])) ∧
    (¬ namesField v 25 → faults s i 0x01 0)) ∧
  (∀ (s : State) (k : Tok) (a : BitVec 4), let i := Instr.tclr k a
    let v := xVal s i a 0
    ready s i = true → s.cur = .C → cleanX s i a 0 = true →
    (slotClear s i (namedSlot v) → namesSlot v → exec i s = .next (issued s i 2 [.tpl (namedSlot v) (BitVec.allOnes 256) 0xFF#256])) ∧
    (¬ namesSlot v → faults s i 0x01 0)) ∧
  (∀ (s : State) (k : Tok) (a : BitVec 4) (p : BitVec 1) (n : BitVec 3) (hd : QEntry) (tl : List QEntry), let i := Instr.tld k a p n
    let v := xVal s i a 0
    ready s i = true → s.cur = .C → cleanX s i a 0 = true →
    (slotClear s i (namedSlot v) → namesSlot v → matAhead (met s i) n = false →
      (met s i).task.q.get n = hd :: tl → hd.filled = true → hd.poison = none →
      exec i s = .next (issuedAt s i (if p = 1 then popQ (met s i) n else met s i) 2
        [.tpl (namedSlot v) (BitVec.allOnes 256) (hd.data.truncate 256)])) ∧
    (¬ namesSlot v → faults s i 0x01 0))

/-- R145 and R303: MKLD of 1 to 16 words that its span of memory gives writes them into its slot where they are a legal program; a count of
0 is MASK_ILLEGAL, one above 16 MASK_LIMIT, and an illegal program faults with its cause. No byte of memory changes.
That a refused mask program names no address in FADDR is the model's reading (log 34). -/
def Claims.MaskProgramsLoaded : Prop :=
  ∀ (s : State) (k : Tok) (slot : BitVec 2) (a : BitVec 4) (b : Src), let i := Instr.mkld k slot a b
    let obj := xVal s i a 0
    let n := (srcVal s i b 1).toNat
    ready s i = true → cleanX s i a 0 = true → cleanSrc s i b 1 = true → obj.extractLsb 63 58 = 0 → obj.extractLsb 57 56 ≠ 3#2 →
    obj.toNat % 8 = 0 → fenced (met s i) s.cur 0 = false →
    (16 < n → faults s i 0x0C 0) ∧ (n = 0 → faults s i 0x0B 0) ∧
    (∀ s1 v, 1 ≤ n → n ≤ 16 → readSpan .issue (obj.extractLsb 57 56) 3 (met s i) (obj.extractLsb 55 0).toNat (8 * n) = .ok s1 v →
      let p := (List.range n).map (fun j => BitVec.ofNat 64 (v / 2 ^ (64 * j)))
      (programFault p = none → ∃ t, exec i s = .next (issuedAt s i t 64 [.mask slot p]) ∧ t.mem = s.mem ∧ t.task = (met s i).task) ∧
      (∀ c, programFault p = some c → faults s i c 0))

/-- R143 and R144: a pair of tags is allowed by a program where neither is padding, some clause that does not deny holds of it, and no
clause that denies does; a clause holds where each of its terms lies in its range. -/
def Claims.PairsAllowed : Prop :=
  ∀ (p : MaskSlot) (q k : Word64), allowedPair p q k = true ↔
    q.getLsbD 56 = false ∧ k.getLsbD 56 = false ∧
    (∃ c ∈ clausesOf p, isDeny c = false ∧ ∀ w ∈ c, loLe (maskLo w) (termVal (maskOp w) q k) = true ∧ leHi (termVal (maskOp w) q k) (maskHi w) = true) ∧
    ¬ ∃ c ∈ clausesOf p, isDeny c = true ∧ ∀ w ∈ c, loLe (maskLo w) (termVal (maskOp w) q k) = true ∧ leHi (termVal (maskOp w) q k) (maskHi w) = true

/-- The side of a tile lies in its ranges: every tag that is not padding has POS and DOC within them (R138, R146). -/
def inRanges (t : Word64) (r : Ranges) : Prop := r.p0 ≤ tagPos t ∧ tagPos t ≤ r.p1 ∧ r.d0 ≤ tagDoc t ∧ tagDoc t ≤ r.d1

/-- R146 and R147: the class of a tile is sound: no pair of an EMPTY tile is allowed and every pair of a FULL tile is, for key tags within
a summary that counts the valid ones. -/
def Claims.TileClassesSound : Prop :=
  ∀ (p : MaskSlot) (qtags : List Word64) (m : Summary) (q k : Word64), q ∈ qtags → (k.getLsbD 56 = false → inRanges k m.r ∧ 0 < m.nvalid) →
    (classTile (some p) qtags m = .empty → allowedPair p q k = false) ∧
    (classTile (some p) qtags m = .full → k.getLsbD 56 = false → allowedPair p q k = true)

/-- R304: MKEV with a legal descriptor, a loaded program and room in its queue issues, reserves one entry of its queue and starts the
classification with no tile classed; a descriptor that breaks R305 faults ATTN_ERROR. No byte of memory changes.
That a refused descriptor stands in FADDR is the model's reading (log 34). -/
def Claims.MkevStarts : Prop :=
  ∀ (s : State) (k : Tok) (n : BitVec 3) (a : BitVec 4) (sp : BitVec 2) (s1 : State) (key : Nat), let i := Instr.mkev k n a
    let d := memRead s.mem key 32
    onRecord s i a 32 sp s1 key → fenced (met s i) s.cur 5 = false → readFails s1 key 32 = none →
    (mkevBad d = true → faults s i 0x19 (xVal s i a 0)) ∧
    (mkevBad d = false → coveredHit (met s i).task s.cur [.mask (mkevSlot d)] = false → (met s i).readMask (mkevSlot d) 30 ≠ [] →
      sldnPending (met s i) n = false → 0 < qRoom (met s i) n →
      ∃ t j, exec i s = .next (issuedOn s s.cur i t 1024 [] (.queued j.id)) ∧ t.mem = s.mem ∧ t.task.mkevs = s.task.mkevs ++ [j] ∧
        j.desc = BitVec.ofNat 256 d ∧ j.prog = (met s i).readMask (mkevSlot d) 30 ∧ j.tiles = 0 ∧ j.live = 0 ∧ j.part = 0 ∧ j.qn = n ∧
        (t.task.q.get n).length = ((settleLoop (met s i)).task.q.get n).length + 1)

/-- R306: on C, with a legal control value and no covered write on its way to a source, MKEL builds the mask of two query rows against 32 key
slots by the pair rule of its program, where no v register is poisoned, and counts the pairs not allowed in ACCT9; a tile outside the partial
mask gives all ones, one gated out writes nothing, and an empty slot is MASK_ILLEGAL before either.
That an empty slot names no address in FADDR is the model's reading (log 34). -/
def Obligations.ElementMasks : Prop :=
  ∀ (s : State) (k : Tok) (d : BitVec 3) (vk : BitVec 4) (b : Src), let i := Instr.mkel k d vk b
    let c := srcVal s i b 0
    let vq : BitVec 4 := c.extractLsb 31 28
    let tile := (c.extractLsb 24 16).toNat
    let row := (c.extractLsb 12 8).toNat
    let prog := (met s i).readMask (c.extractLsb 1 0) 31
    let qtag := fun n : Nat => if n < 32 then ((met s i).readV vq 34 >>> (64 * n)).truncate 64 else ((met s i).readV (vq + 1) 35 >>> (64 * (n - 32))).truncate 64
    ready s i = true → s.cur = .C → cleanSrc s i b 0 = true → c &&& ~~~0xF1FF1F7F#64 = 0 → vq ≠ 15 →
    coveredHit (met s i).task s.cur ([.mask (c.extractLsb 1 0), .km (c.extractLsb 3 2), .v vq, .v (vq + 1)] ++
      (if c.getLsbD 4 then [.km (c.extractLsb 6 5)] else [])) = false →
    (prog = [] → faults s i 0x0B 0) ∧
    (prog ≠ [] → c.getLsbD 4 = true → ((met s i).readKm (c.extractLsb 6 5) 32).getLsbD tile = false → exec i s = .next (issued s i 4 [])) ∧
    (prog ≠ [] → (c.getLsbD 4 = true → ((met s i).readKm (c.extractLsb 6 5) 32).getLsbD tile = true) →
      (((met s i).readKm (c.extractLsb 3 2) 33).getLsbD tile = false →
        exec i s = .next (issued s i 4 [.m d (BitVec.allOnes 64) (BitVec.allOnes 64)])) ∧
      (((met s i).readKm (c.extractLsb 3 2) 33).getLsbD tile = true → s.task.vPoison = [] →
        ∃ m : BitVec 64, exec i s = .next (issued s i 4 [.m d m (BitVec.allOnes 64), .acct 9 ((List.range 64).filter (fun n => !m.getLsbD n)).length]) ∧
          ∀ n < 64, m.getLsbD n = allowedPair prog (qtag (2 * row + n / 32)) (((met s i).readV vk 36 >>> (64 * (n % 32))).truncate 64)))

/-- R307 and R313: MKCT gives the first set bit at or above s, 512 where there is none, or the number of set bits from s on, and s of 512 or
more is ILLEGAL_INSTR; KMOP with a legal control value derives a mask bit by bit from its sources. -/
def Claims.KeepMaskOperations : Prop :=
  (∀ (s : State) (k : Tok) (d : BitVec 4) (mode : BitVec 1) (a : BitVec 2) (b : Src), let i := Instr.mkct k d mode a b
    let v := (srcVal s i b 0).toNat
    let m := (met s i).readKm a 32
    let l := (List.range 512).filter (fun t => m.getLsbD t && decide (v ≤ t))
    ready s i = true → cleanSrc s i b 0 = true →
    (v < 512 → exec i s = .next (issued s i 2 [.x d (BitVec.ofNat 64 (if mode = 0 then l.headD 512 else l.length)) none])) ∧
    (512 ≤ v → faults s i 0x01 0)) ∧
  (∀ (s : State) (k : Tok) (d a : BitVec 2) (b : Src), let i := Instr.kmop k d a b
    let c := srcVal s i b 0
    let op := (c.extractLsb 2 0).toNat
    let m := (met s i).readKm a 32
    let o := (met s i).readKm (c.extractLsb 5 4) 33
    ready s i = true → cleanSrc s i b 0 = true → op ≤ 4 → c &&& ~~~(kmopBits op) = 0 → (op = 4 → (c.extractLsb 41 32).toNat ≤ 512) →
    (op < 2 → coveredHit (met s i).task s.cur [.km (c.extractLsb 5 4)] = false) →
    ∃ r : BitVec 512, exec i s = .next (issued s i 2 [.km d r]) ∧
      ∀ t < 512, r.getLsbD t = (m.getLsbD t && (match op with
        | 0 => o.getLsbD t
        | 1 => !o.getLsbD t
        | 2 => decide ((c.extractLsb 24 16).toNat ≤ t) && decide (t ≤ (c.extractLsb 40 32).toNat)
        | 3 => decide (t ≠ (c.extractLsb 24 16).toNat)
        | _ => decide (((List.range t).filter (fun u => m.getLsbD u)).length < (c.extractLsb 41 32).toNat))))

/-- R314: KMIO in takes a quarter of the filled head of its queue, popping it where told to; KMIO out reserves a place of an output queue that
has one and pushes an entry with the mask in its low 512 bits. -/
def Claims.KeepMaskQueues : Prop :=
  (∀ (s : State) (k : Tok) (p kk : BitVec 2) (pop : BitVec 1) (n : BitVec 3) (hd : QEntry) (tl : List QEntry), let i := Instr.kmioIn k p kk pop n
    ready s i = true → matAhead (met s i) n = false → (met s i).task.q.get n = hd :: tl → hd.filled = true → hd.poison = none →
    exec i s = .next (issuedAt s i (if pop = 1 then popQ (met s i) n else met s i) 2 [.km kk ((hd.data >>> (512 * p.toNat)).truncate 512)])) ∧
  (∀ (s : State) (k : Tok) (o kk : BitVec 2), let i := Instr.kmioOut k o kk
    ready s i = true → (s.task.o.get o).length < 16 →
    ∃ t, exec i s = .next (issuedAt s i t 2 [.o o s.nextId (((met s i).readKm kk 32).zeroExtend 2048)]) ∧
      (t.task.o.get o).length = (s.task.o.get o).length + 1 ∧ t.mem = s.mem)

/-- The parameter of THR is refused (R153). -/
def thrRefuses (mode w : Nat) : Prop :=
  (mode = 0 ∧ ((ofF32 w).isNan = true ∨ (ofF32 w).isInf = true ∨ ((ofF32 w).isNeg = true ∧ (ofF32 w).isZero = false))) ∨
    (mode = 1 ∧ (w = 0 ∨ 512 < w)) ∨ (mode = 2 ∧ (ofF32 w).isNan = true)

/-- Tile `u` ranks before tile `t`: NaN above all, then the larger score, equal scores by the lower index (R153). -/
def thrBefore (score : Nat → Machine.Num) (u t : Nat) : Bool :=
  if (score u).isNan then !(score t).isNan || decide (u < t)
  else !(score t).isNan && (decide (0 < cmpNum (score u) (score t)) || (cmpNum (score u) (score t) == 0 && decide (u < t)))

/-- Live tile `t` is selected by a mode of R153: relative to every other score, among the k largest, or by its own score. -/
def thrSelects (mode w : Nat) (live : List Nat) (score : Nat → Machine.Num) (t : Nat) : Bool :=
  match mode with
  | 0 => (score t).isNan || (decide (score t ≠ .inf true) &&
      live.all (fun u => (score u).isNan || decide (0 ≤ cmpNum (addNum 0 (score t) (ofF32 w)).1 (score u))))
  | 1 => decide ((live.filter (fun u => thrBefore score u t)).length < w)
  | _ => (score t).isNan || decide (0 ≤ cmpNum (score t) (ofF32 w))

/-- R153, R154 and R312: THR with a legal control value and parameter writes the mask of the live tiles that its mode selects, with the lowest
live tile where FF is set and the highest where FL is set; it adds the live tiles that are not in it to ACCT5, and those that are there only by
force to ACCT6. A refused parameter faults ATTN_ERROR, mode 3 and a bit set in [31:4] ILLEGAL_INSTR. -/
def Obligations.ThresholdKeeps : Prop :=
  ∀ (s : State) (k : Tok) (d a : BitVec 2) (b : Src), let i := Instr.thr k d a b
    let c := srcVal s i b 0
    let m := (met s i).readKm a 32
    let live := (List.range 512).filter (fun t => m.getLsbD t)
    let score := fun (t : Nat) => ofF32 ((met s i).readScout (BitVec.ofNat 9 t) (1000 + t)).toNat
    let mode := (c.extractLsb 1 0).toNat
    let w := (c.extractLsb 63 32).toNat
    let sel := fun (t : Nat) => thrSelects mode w live score t
    ready s i = true → cleanSrc s i b 0 = true →
    (mode = 3 ∨ c.extractLsb 31 4 ≠ 0 → faults s i 0x01 0) ∧
    (mode ≠ 3 → c.extractLsb 31 4 = 0 → thrRefuses mode w → faults s i 0x19 0) ∧
    (mode ≠ 3 → c.extractLsb 31 4 = 0 → ¬ thrRefuses mode w →
      ∃ (r : BitVec 512) (x y : Nat), exec i s = .next (issued s i 16 [.km d r, .acct 5 x, .acct 6 y]) ∧
        (∀ t < 512, r.getLsbD t = true ↔ t ∈ live ∧ (sel t = true ∨ (c.getLsbD 2 = true ∧ live.head? = some t) ∨
          (c.getLsbD 3 = true ∧ live.getLast? = some t))) ∧
        x = (live.filter (fun t => !r.getLsbD t)).length ∧ y = (live.filter (fun t => r.getLsbD t && !sel t)).length)

/-- R157 and R320: ACCT, where nothing holds its store back and a route leads to it, writes the sixteen counters as 8-byte values, counter j
at a + 8j, and no other byte; ACCTZ clears exactly the counters its bits name, and a bit above 15 is ILLEGAL_INSTR. -/
def Claims.CountersWritten : Prop :=
  (∀ (s : State) (k : Tok) (a : BitVec 4) (b : Src) (sp : BitVec 2) (s1 : State) (key : Nat), let i := Instr.acct k a b
    ready s i = true → Safety.memOk s → cleanX s i a 0 = true → (xVal s i a 0).extractLsb 63 58 = 0 → (xVal s i a 0).extractLsb 57 56 = sp → sp ≠ 3 →
    (∃ leaf, checkAccess (met s i) sp ((xVal s i a 0).extractLsb 55 0).toNat 128 true = (s1, .key key leaf)) → isYard key = false →
    noRoute s key = false → cleanSrc s i b 1 = true → (srcVal s i b 1).toNat < 32 → storeFree s i (BitVec.ofBool ((srcVal s i b 1).getLsbD 4)) →
    ((∀ w ∈ (s.seq s.cur).writeErr, w.path ≠ 0) ∨ (srcVal s i b 1).getLsbD 4 = false) →
    ∃ t, exec i s = .next (issuedAt s i t 1 []) ∧ (∀ j : BitVec 4, memWord t.mem (key + 8 * j.toNat) = s.task.acct.get j) ∧
      (∀ x, x < key ∨ key + 128 ≤ x → memGet t.mem x = memGet s.mem x) ∧ t.task.acct = s.task.acct) ∧
  (∀ (s : State) (k : Tok) (b : Src), let i := Instr.acctz k b
    ready s i = true → cleanSrc s i b 0 = true →
    ((srcVal s i b 0).toNat < 2 ^ 16 → ∃ t, exec i s = .next (issuedAt s i t 1 []) ∧ t.mem = s.mem ∧
      ∀ j : BitVec 4, t.task.acct.get j = if (srcVal s i b 0).getLsbD j.toNat then 0 else s.task.acct.get j) ∧
    (2 ^ 16 ≤ (srcVal s i b 0).toNat → faults s i 0x01 0))

/-- R315 to R317 and R319: ATTQ with a legal descriptor, its program loaded where it names one and room in the E FIFO takes the first idle
entry of its sequencer's table, which becomes busy, returns its tag and starts the request with its deadline plus TOFS; a descriptor that
breaks R315 faults ATTN_ERROR. ATTW of an idle entry gives 0, of a completed one its status, of a failed one its record once and its status
after, and it sleeps at its PC while the request runs. -/
def Claims.AttentionRequests : Prop :=
  (∀ (s : State) (k : Tok) (d a : BitVec 4) (sp : BitVec 2) (s1 : State) (key : Nat) (tag : BitVec 3), let i := Instr.attq k d a
    let n := memRead s.mem key 128
    onRecord s i a 128 sp s1 key → fenced (met s i) s.cur 4 = false → readFails s1 key 128 = none →
    (attBad n = true → ∃ t, exec i s = .next t ∧ t.core.run = .stopped ∧ t.task.faults.cause.extractLsb 7 0 = 0x19#8 ∧ t.mem = s.mem) ∧
    (attBad n = false → (attMen n = true → coveredHit (met s i).task s.cur [.mask (attSlot n)] = false ∧ (met s i).readMask (attSlot n) 30 ≠ []) →
      ((met s i).seq s.cur).e.length < 32 → (∀ j : BitVec 3, j.toNat < tag.toNat → (((met s i).seq s.cur).reqs.get j).state ≠ .idle) →
      (((met s i).seq s.cur).reqs.get tag).state = .idle →
      ∃ t x, exec i s = .next (issuedAt s i t 1 [.x d (tag.zeroExtend 64) none]) ∧ t.mem = s.mem ∧ ((t.seq s.cur).reqs.get tag).state = .busy ∧
        t.task.atts = s.task.atts ++ [x] ∧ x.idx = tag ∧ x.desc = BitVec.ofNat 1024 n ∧
        x.deadline = BitVec.ofNat 64 (n / 2 ^ 320 % 2 ^ 64) + s.task.tofs ∧ x.consumed = [])) ∧
  (∀ (s : State) (k : Tok) (d a : BitVec 4), let i := Instr.attw k d a
    let r := ((met s i).seq s.cur).reqs.get ((xVal s i a 0).extractLsb 2 0)
    ready s i = true → cleanX s i a 0 = true → (xVal s i a 0).toNat < 8 →
    (r.state = .idle → exec i s = .next (issued s i 1 [.x d 0 none])) ∧
    (r.state = .completed ∨ r.state = .failed ∧ r.delivered = true → exec i s = .next (issued s i 1 [.x d r.status none])) ∧
    (r.state = .busy → ∃ t, exec i s = .next t ∧ canIssue t s.cur = false ∧ (t.seq s.cur).pc = (s.seq s.cur).pc ∧ t.mem = s.mem) ∧
    (∀ x, r.state = .failed → r.delivered = false → r.record = some x → ∃ t, exec i s = .next t ∧ t.core.run = .stopped ∧
      t.task.faults.addr = x.addr ∧ ((t.seq s.cur).reqs.get ((xVal s i a 0).extractLsb 2 0)).delivered = true))

/-! ## Vector kinds -/

/-- What a vector kind works on where nothing holds it back: its record, its sources, its masks and the generator, as it meets them. -/
def vecInOf (s : State) (i : Instr) (k : TplIssue) (codes : List (BitVec 8)) (draws : Bool) : VecIn :=
  let m := reached s .C i
  { t := k.tpl, e1 := sourceVal m k codes 0, e2 := sourceVal m k codes 1, e3 := sourceVal m k codes 2, mask := laneMaskOf m k.tpl
    sel := if isM k.tpl.src3 then m.readM (k.tpl.src3.truncate 3) 11 else 0
    seed := if draws && k.tpl.rnd == 5 then srStep m.task.seed else m.task.seed }

/-- Its queues hold what it pops, the lanes it reads hold no poison, and its output queue has a place (R226, R259). -/
def vecFree (s : State) (i : Instr) (k : TplIssue) (codes : List (BitVec 8)) (lanes : List (BitVec 64)) : Prop :=
  queueLacking (reached s .C i) codes = none ∧ (∀ p ∈ lanes.zipIdx, sourcePoison (reached s .C i) codes p.2 p.1 = none) ∧
    (isO k.tpl.dst = true → 0 < oRoom (reached s .C i) (k.tpl.dst.truncate 2))

/-- The state once it has issued with result `o`: the generator advanced, its pops made, a place of its output queue reserved, its
destination in flight with the bound of its class (R117, R187, R259). -/
def vecDone (s : State) (i : Instr) (k : TplIssue) (codes : List (BitVec 8)) (x : VecIn) (o : VecOut) : State :=
  let m := reached s .C i
  let s1 := popSources (m.withTask { m.task with seed := x.seed }) codes
  if isO k.tpl.dst then
    issuedOn s .C i (reserveO s1 (k.tpl.dst.truncate 2)).1 (classBound k.tpl) (vecWrite k.tpl s1.nextId o) .next
  else issuedOn s .C i s1 (classBound k.tpl) (vecWrite k.tpl 0 o) .next

/-- A vector kind that works element by element: its constructor, how many sources it has, whether it draws under SR, its legality, the
lanes it reads, the mask of its elements, and what a result and its flags are of element `i`. -/
structure VecRow where
  kind : TplIssue → Instr
  sources : Nat
  draws : Bool
  legal : Template → Bool
  lanes : VecIn → List (BitVec 64)
  mask : VecIn → BitVec 64
  rule : VecIn → Nat → Res → Prop

/-- Result `o` holds what the rule says in every active element and zero in every other, writes the lanes of the mask, and raises the
flags of the active elements (R108, R133, R261). -/
def elementsHold (x : VecIn) (mask : BitVec 64) (rule : Nat → Res → Prop) (o : VecOut) : Prop :=
  let w := typeWidth x.t.dtype
  o.lanes = laneSet mask w ∧ ∃ g : Nat → Res,
    (∀ i < 2048 / w, if activeElem mask w i = true then rule i (g i) ∧ elemAt w o.d.toNat i = (g i).1 % 2 ^ w else elemAt w o.d.toNat i = 0) ∧
    ∀ b < 7, o.flags.getLsbD b = (List.range (2048 / w)).any (fun i => activeElem mask w i && (g i).2.getLsbD b)

/-- Rows of one rule for the width, the elements of each source and the integers they stand for. -/
def wid (x : VecIn) : Nat := typeWidth x.t.dtype
def gives (f : VecIn → Nat → Res) (x : VecIn) (i : Nat) (r : Res) : Prop := r = f x i
def plainly (f : VecIn → Nat → Nat) (x : VecIn) (i : Nat) (r : Res) : Prop := r = (f x i, 0)

/-- An integer result under R113: reduced modulo 2^w, or clamped to the range of its type with SAT where that changes it. -/
def intRule (t : Template) (v : Int) : Res :=
  let w := typeWidth t.dtype
  let lo : Int := if t.dtype.toNat < 4 then -(2 ^ (w - 1)) else 0
  let hi : Int := if t.dtype.toNat < 4 then 2 ^ (w - 1) - 1 else 2 ^ w - 1
  if t.sat = 1 then (((max lo (min hi v)) % 2 ^ w).toNat, if v < lo ∨ hi < v then 0x20#7 else 0) else ((v % 2 ^ w).toNat, 0)

/-- Rounding into the format of the destination under R114 and R115, beside flags already raised. -/
def rounded (x : VecIn) (i : Nat) (v : Machine.Num × BitVec 7) : Res :=
  let r := roundTo (fmtOf x.t.dtype) x.t.rnd.toNat (x.t.sat == 1) (srDraw x.seed i) v.1
  (r.1, v.2 ||| r.2)

/-- Two-operand arithmetic, on floats by `f` and on integers by `g` (R263). -/
def twoRule (f : Nat → Machine.Num → Machine.Num → Machine.Num × BitVec 7) (g : Int → Int → Int) (x : VecIn) (i : Nat) : Res :=
  if isF x.t.dtype then rounded x i (f x.t.rnd.toNat (x.num (x.a i)) (x.num (x.b i))) else intRule x.t (g (x.intv (x.a i)) (x.intv (x.b i)))

/-- The fused kinds (R263). -/
def fusedRule (negProduct negAddend : Bool) (x : VecIn) (i : Nat) : Res :=
  rounded x i (fusedNum x.t.rnd.toNat negProduct negAddend (x.num (x.a i)) (x.num (x.b i)) (x.num (x.c i)))

/-- The smaller or the larger element, on integers by their order (R264). -/
def orderRule (wantMax : Bool) (x : VecIn) (i : Nat) (r : Res) : Prop :=
  (isF x.t.dtype = true → r = x.minMax wantMax (x.a i) (x.b i)) ∧
  (isF x.t.dtype = false → r.2 = 0 ∧ (r.1 = x.a i ∨ r.1 = x.b i) ∧
    (if wantMax then x.intv (x.a i) ≤ x.intv r.1 ∧ x.intv (x.b i) ≤ x.intv r.1 else x.intv r.1 ≤ x.intv (x.a i) ∧ x.intv r.1 ≤ x.intv (x.b i)))

/-- Kinds that take one type throughout and have as many sources as `n`, none of whose elements crosses lanes. -/
def sameRow (kind : TplIssue → Instr) (n : Nat) (draws : Bool) (legal : Template → Bool) (rule : VecIn → Nat → Res → Prop) : VecRow :=
  { kind := kind, sources := n, draws := draws, legal := legal, lanes := sameLanes, mask := VecIn.mask, rule := rule }

/-- Arithmetic, order and sign, and the comparison into elements (R263 to R265). -/
def vecArith : List VecRow :=
  [ sameRow Instr.vmov 1 false vmovLegal (plainly (fun x i => x.a i)),
    sameRow Instr.vadd 2 true vaddLegal (gives (twoRule addNum (fun a b => a + b))),
    sameRow Instr.vsub 2 true vsubLegal (gives (twoRule (fun m a b => addNum m a b.negate) (fun a b => a - b))),
    sameRow Instr.vmul 2 true vmulLegal (gives (twoRule (fun _ a b => mulNum a b) (fun a b => a * b))),
    sameRow Instr.vfma 3 true vfmaLegal (gives (fusedRule false false)),
    sameRow Instr.vfms 3 true vfmsLegal (gives (fusedRule false true)),
    sameRow Instr.vfnma 3 true vfnmaLegal (gives (fusedRule true false)),
    sameRow Instr.vmin 2 false vminLegal (orderRule false),
    sameRow Instr.vmax 2 false vmaxLegal (orderRule true),
    sameRow Instr.vclamp 3 false vclampLegal (gives (fun x i =>
      let p := x.minMax true (x.a i) (x.b i)
      let r := x.minMax false p.1 (x.c i)
      (r.1, p.2 ||| r.2))),
    sameRow Instr.vabs 1 false vabsLegal (gives (fun x i =>
      if isF x.t.dtype then (x.a i % 2 ^ ((wid x) - 1), 0) else intRule x.t (if x.intv (x.a i) < 0 then -(x.intv (x.a i)) else x.intv (x.a i)))),
    sameRow Instr.vneg 1 false vnegLegal (gives (fun x i =>
      if isF x.t.dtype then (if x.a i < 2 ^ ((wid x) - 1) then x.a i + 2 ^ ((wid x) - 1) else x.a i - 2 ^ ((wid x) - 1), 0) else intRule x.t (-(x.intv (x.a i))))) ]

/-- Selection, bit operations, shifts and movement (R266, R268). -/
def vecMoves : List VecRow :=
  [ sameRow Instr.vsel 2 false vselLegal (plainly (fun x i => if activeElem x.sel (wid x) i then x.a i else x.b i)),
    sameRow Instr.vand 2 false vandLegal (plainly (fun x i => x.a i &&& x.b i)),
    sameRow Instr.vor 2 false vorLegal (plainly (fun x i => x.a i ||| x.b i)),
    sameRow Instr.vxor 2 false vxorLegal (plainly (fun x i => x.a i ^^^ x.b i)),
    sameRow Instr.vnot 1 false vnotLegal (plainly (fun x i => 2 ^ (wid x) - 1 - x.a i)),
    sameRow Instr.vshl 2 false vshlLegal (plainly (fun x i => x.a i * 2 ^ (x.b i % (wid x)))),
    sameRow Instr.vshr 2 false vshrLegal (plainly (fun x i => x.a i / 2 ^ (x.b i % (wid x)))),
    sameRow Instr.vsra 2 false vsraLegal (plainly (fun x i => ((toSigned (wid x) (x.a i) / 2 ^ (x.b i % (wid x))) % 2 ^ (wid x)).toNat)),
    { sameRow Instr.vperm 2 false vpermLegal (plainly (fun x i => x.a (elemAt (typeWidth x.t.stype1) x.e2 i % (2048 / typeWidth x.t.stype1)))) with
      lanes := permLanes },
    { sameRow Instr.vbcast 2 false vbcastLegal (plainly (fun x _ => x.a (x.e2 % 2 ^ 32 % (2048 / typeWidth x.t.stype1)))) with lanes := bcastLanes },
    { sameRow Instr.vsplat 1 false vsplatLegal (plainly (fun x _ => x.a 0)) with lanes := firstLanes },
    { sameRow Instr.viota 1 false viotaLegal (gives (fun x i => intRule x.t (x.intv (x.a 0) + i))) with lanes := firstLanes },
    sameRow Instr.vpopc 1 false vpopcLegal (plainly (fun x i => ((List.range (wid x)).filter (fun n => (x.a i).testBit n)).length)) ]

/-- R261, R263, R264, R266, R268: from every state in which nothing holds it back, an arithmetic, order, select, bitwise, shift or movement
kind with a legal record issues on C, its destination in flight with the elements its rule gives. -/
def Obligations.VectorElements : Prop :=
  ∀ r ∈ vecArith ++ vecMoves, ∀ (s : State) (k : TplIssue),
    let i := r.kind k
    let codes := [k.tpl.src1, k.tpl.src2, k.tpl.src3].take r.sources
    let x := vecInOf s i k codes r.draws
    readyOn s .C i = true → r.legal k.tpl = true → vecFree s i k codes (r.lanes x) →
    ∃ o, exec i s = .next (vecDone s i k codes x o) ∧ elementsHold x (r.mask x) (r.rule x) o

/-- A residue of modulus q and the flag MR of an input that is q or more (R129). -/
def modInputs (x : VecIn) (l : List Nat) : BitVec 7 := if l.any (fun v => decide (x.q ≤ v)) then 0x40#7 else 0

/-- The product of two residues in the convention of RND: below q, and equal modulo q to a * b, under MONT once multiplied by 2^64 (R130). -/
def modProduct (x : VecIn) (a b r : Nat) : Prop := r < x.q ∧ (if x.t.rnd = 1 then r * 2 ^ 64 % x.q = a * b % x.q else r = a * b % x.q)

/-- The modular kinds (R278, R279). -/
def vecModular : List VecRow :=
  [ sameRow Instr.vmadd 2 false vmaddLegal (fun x i r => r = ((x.a i + x.b i) % x.q, modInputs x [x.a i, x.b i])),
    sameRow Instr.vmsub 2 false vmsubLegal (fun x i r =>
      (r.1 : Int) = ((x.a i : Int) - x.b i) % x.q ∧ r.2 = modInputs x [x.a i, x.b i]),
    sameRow Instr.vmmul 2 false vmmulLegal (fun x i r => modProduct x (x.a i) (x.b i) r.1 ∧ r.2 = modInputs x [x.a i, x.b i]),
    sameRow Instr.vmred 1 false vmredLegal (fun x i r => modProduct x (x.a i) 1 r.1 ∧ r.2 = 0),
    { sameRow Instr.vntt 2 false vnttLegal (fun x i r =>
        let k := i % 16
        ∃ p, modProduct x (x.b k) (x.a (16 + k)) p ∧
          (r.1 : Int) = (if i < 16 then (x.a k : Int) + p else (x.a k : Int) - p) % x.q ∧ r.2 = modInputs x [x.a k, x.a (16 + k), x.b k]) with
      lanes := butterflyLanes, mask := butterflyMask },
    { sameRow Instr.vintt 2 false vinttLegal (fun x i r =>
        let k := i % 16
        (if i < 16 then r.1 = (x.a k + x.a (16 + k)) % x.q
         else modProduct x (((x.a k : Int) - x.a (16 + k)) % x.q).toNat (x.b k) r.1) ∧ r.2 = modInputs x [x.a k, x.a (16 + k), x.b k]) with
      lanes := butterflyLanes, mask := butterflyMask } ]

/-- R129 to R131, R278 and R279: the modular kinds with a legal record issue with exact residues in the convention of RND, MR raised by an
input of q or more; an NTT butterfly is governed by the mask bit of its first element. -/
def Obligations.VectorModular : Prop :=
  ∀ r ∈ vecModular, ∀ (s : State) (k : TplIssue),
    let i := r.kind k
    let codes := [k.tpl.src1, k.tpl.src2].take r.sources
    let x := vecInOf s i k codes false
    readyOn s .C i = true → r.legal k.tpl = true → vecFree s i k codes (r.lanes x) →
    ∃ o, exec i s = .next (vecDone s i k codes x o) ∧ elementsHold x (r.mask x) (r.rule x) o

/-- The special inputs of R272: 0 VEXP2, 1 VLOG2, 2 VRCP, 3 VRSQ, 4 VSQRT; the code of the result in format `f` with its flags. -/
def specialInput (f : Fmt) (kind : Nat) (v : Machine.Num) : Option Res :=
  let nan : Res := (canonNan f, flagNV)
  let zero := fun (n : Bool) => ((if n then 2 ^ (f.w - 1) else 0 : Nat), (0 : BitVec 7))
  match v with
  | .nan sig => some (canonNan f, if sig then flagNV else 0)
  | .inf n =>
    match kind with
    | 0 => some (if n then zero false else (infCode f false, 0))
    | 2 => some (zero n)
    | 3 => some (if n then nan else zero false)
    | _ => some (if n then nan else (infCode f false, 0))
  | .fin n m e _ =>
    if m = 0 then
      match kind with
      | 0 => some (f.bias.toNat * 2 ^ f.mb, 0)
      | 1 => some (infCode f true, flagDZ)
      | 4 => some (zero n)
      | _ => some (infCode f n, flagDZ)
    else if n ∧ (kind = 1 ∨ kind = 3 ∨ kind = 4) then some nan
    else if kind = 1 ∧ m * 2 ^ e.toNat = 2 ^ (-e).toNat then some (zero false)
    else none

/-- R272: a special input gives its result, every other the rounded function. -/
def functionRule (kind : Nat) (x : VecIn) (i : Nat) (r : Res) : Prop :=
  match specialInput (fmtOf x.t.dtype) kind (x.num (x.a i)) with
  | some r0 => r = r0
  | none => r = rounded x i (specialFn kind (x.num (x.a i)))

/-- R273: a pair turned by its position, each output rounded once; an angle that is NaN or infinite gives the canonical NaN with NV. -/
def ropeRule (x : VecIn) (i : Nat) (r : Res) : Prop :=
  let w := ofF32 (elemAt 32 x.e3 (i / 2))
  let f := ropeFactors (elemAt 32 x.e2 (i / 2)) w
  let x0 := x.num (x.a (2 * (i / 2)))
  let x1 := x.num (x.a (2 * (i / 2) + 1))
  let fmt := fmtOf x.t.dtype
  if w.isNan || w.isInf then r = (canonNan fmt, flagNV)
  else if i % 2 = 0 then r = rotOut fmt x.t.rnd.toNat (srDraw x.seed i) x0 f.1 x1 f.2.negate
  else r = rotOut fmt x.t.rnd.toNat (srDraw x.seed i) x0 f.2 x1 f.1

/-- R277: a lane of VDOT4, the exact integer under R113 or one rounding of the exact sum. -/
def dotRule (x : VecIn) (j : Nat) (r : Res) : Prop :=
  (x.t.dtype = 2 → r = intRule x.t (x.intv (x.c j) + ((List.range 4).map (fun k =>
    intOf x.t.stype1 (x.a (4 * j + k)) * intOf x.t.stype2 (x.b (4 * j + k)))).sum)) ∧
  (x.t.dtype ≠ 2 → r = rounded x j (sumNums x.t.rnd.toNat (x.num (x.c j)) ((List.range 4).map (fun k =>
    mulNum (decodeNum (fmtOf x.t.stype1) (x.a (4 * j + k))) (decodeNum (fmtOf x.t.stype2) (x.b (4 * j + k)))))))

/-- R128: a prefix of integers added without saturation is the sum of the active elements as far as its own; every other prefix is that
of the network. -/
def scanRule (x : VecIn) (i : Nat) (r : Res) : Prop :=
  let n := 2048 / typeWidth x.t.stype1
  if isFloat x.t.stype1 = false ∧ x.t.scale = 0 ∧ x.t.sat = 0 then
    r.2 = 0 ∧ (i < n → ((r.1 : Int) - ((List.range (i + 1)).map (fun j =>
      if activeElem x.mask (wid x) j then intOf x.t.stype1 (x.a j) else 0)).sum) % (2 ^ (wid x) : Int) = 0)
  else r = (if isFloat x.t.stype1 then ((scanNet x.fnode (Nat.log2 n) 1 (floatInputs x (wid x) n)).zipIdx).map (fun p => x.fout p.2 p.1)
    else (scanNet x.inode (Nat.log2 n) 1 (intInputs x (wid x) n)).map x.iout).getD i (0, 0)

/-- Conversions, special functions, rotations, merges, dots and scans (R270 to R277). -/
def vecFunctions : List VecRow :=
  [ { sameRow Instr.vcvt 1 true vcvtLegal (gives (fun x i =>
        if i < 2048 / Nat.max (wid x) (typeWidth x.t.stype1) then
          convert x.t.dtype x.t.stype1 x.t.modulus.toNat x.t.rnd.toNat (x.t.sat == 1) (srDraw x.seed i) (x.a i)
        else (0, 0))) with lanes := convertLanes },
    { sameRow Instr.vdqnt 1 true vdqntLegal (gives (fun x i =>
        rounded x i (mxValue x.t.stype1 (elemAt 8 x.e1 (192 + (x.t.k.toNat + i) / 32)) (x.a (x.t.k.toNat + i)), 0))) with lanes := dequantLanes },
    sameRow Instr.vexp2 1 true vexp2Legal (functionRule 0),
    sameRow Instr.vlog2 1 true vlog2Legal (functionRule 1),
    sameRow Instr.vrcp 1 true vrcpLegal (functionRule 2),
    sameRow Instr.vrsq 1 true vrsqLegal (functionRule 3),
    sameRow Instr.vsqrt 1 true vsqrtLegal (functionRule 4),
    { sameRow Instr.vrope 3 true vropeLegal ropeRule with lanes := ropeLanes, mask := pairMask },
    sameRow Instr.vsmx 2 true vsmxLegal (gives (fun x i => softmaxStep x.t.rnd.toNat (srDraw x.seed i) (x.num (x.a i)) (x.num (x.b i)))),
    { sameRow Instr.vmrg 3 false vmrgLegal (gives (fun x i => mergeComp (x.num (x.c 0)) (x.num (x.c 1)) (x.a i) (x.b i))) with
      lanes := mergeLanesRead },
    sameRow Instr.vdot4 3 true vdot4Legal dotRule,
    { sameRow Instr.vscan 1 true vscanLegal scanRule with lanes := convertLanes } ]

/-- R270 to R277: conversions, special functions, rotations, the softmax step, merges, four-way dots and scans with a legal record issue
with the elements their rule gives.
Special functions are computed to 384 fractional bits and rounded once (log 9); what VSCAN does with masked inputs, rounding and flags is the model's reading and choice (log 35). -/
def Obligations.VectorFunctions : Prop :=
  ∀ r ∈ vecFunctions, ∀ (s : State) (k : TplIssue),
    let i := r.kind k
    let codes := [k.tpl.src1, k.tpl.src2, k.tpl.src3].take r.sources
    let x := vecInOf s i k codes r.draws
    readyOn s .C i = true → r.legal k.tpl = true → vecFree s i k codes (r.lanes x) →
    ∃ o, exec i s = .next (vecDone s i k codes x o) ∧ elementsHold x (r.mask x) (r.rule x) o

/-- R127: a reduction of integers added without saturation. -/
def reducedSum (x : VecIn) : Int :=
  ((List.range (2048 / typeWidth x.t.stype1)).map (fun j =>
    if activeElem x.mask (typeWidth x.t.stype1) j then intOf x.t.stype1 (x.a j) else 0)).sum

/-- The bit that a sub-operation of VMLOG gives (R267). -/
def logicRule (r : BitVec 3) (a b : Bool) : Bool :=
  match r.toNat with
  | 0 => a && b
  | 1 => a || b
  | 2 => a ^^ b
  | 3 => a && !b
  | 4 => !a
  | 5 => a
  | 6 => true
  | _ => false

/-- R265, R267, R269, R271 and R276: the kinds that write a whole entry or a mask issue with a legal record. VRED of integers leaves zero in
every element but the first, and there, added without saturation, the sum of the active elements; VQNT writes codes and scales of whole
blocks; VPACK and VUNPK shift whole entries; VCMP gives a bit for each lane or an element of ones, by the named order on integers; VMLOG
combines masks bit by bit. -/
def Obligations.VectorWhole : Prop :=
  (∀ (s : State) (k : TplIssue), let i := Instr.vred k
    let x := vecInOf s i k [k.tpl.src1] true
    readyOn s .C i = true → vredLegal k.tpl = true → vecFree s i k [k.tpl.src1] (quantLanes x) →
    ∃ o, exec i s = .next (vecDone s i k [k.tpl.src1] x o) ∧ o.lanes = BitVec.allOnes 64 ∧ (isFloat x.t.stype1 = false → o.d.toNat < 2 ^ (wid x)) ∧
      (isFloat x.t.stype1 = false → x.t.scale = 0 → x.t.sat = 0 → o.flags = 0 ∧ (o.d.toNat : Int) = reducedSum x % (2 ^ (wid x) : Int))) ∧
  (∀ (s : State) (k : TplIssue), let i := Instr.vqnt k
    let x := vecInOf s i k [k.tpl.src1] true
    let ws := typeWidth k.tpl.stype1
    let val := fun j => if activeElem x.mask ws j then decodeNum (fmtOf k.tpl.stype1) (x.a j) else .exact false 0 0
    let block := fun b => mxBlock k.tpl.dtype k.tpl.rnd.toNat (fun j => srDraw x.seed (32 * b + j)) ((List.range 32).map (fun j => val (32 * b + j)))
    readyOn s .C i = true → vqntLegal k.tpl = true → vecFree s i k [k.tpl.src1] (quantLanes x) →
    ∃ o, exec i s = .next (vecDone s i k [k.tpl.src1] x o) ∧ o.lanes = BitVec.allOnes 64 ∧
      ∀ b < 2048 / ws / 32, elemAt 8 o.d.toNat (192 + b) = (block b).1 % 2 ^ 8 ∧
        ∀ j < 32, elemAt (wid x) o.d.toNat (32 * b + j) = (block b).2.1.getD j 0 % 2 ^ (wid x)) ∧
  (∀ (s : State) (k : TplIssue), let i := Instr.vpack k
    let x := vecInOf s i k [k.tpl.src1, k.tpl.src2] false
    readyOn s .C i = true → vpackLegal k.tpl = true → vecFree s i k [k.tpl.src1, k.tpl.src2] (packLanes x) →
    exec i s = .next (vecDone s i k [k.tpl.src1, k.tpl.src2] x
      { d := (BitVec.ofNat 2048 x.e1 >>> k.tpl.k.toNat) ||| (BitVec.ofNat 2048 x.e2 <<< (2048 - k.tpl.k.toNat)), lanes := BitVec.allOnes 64, flags := 0 })) ∧
  (∀ (s : State) (k : TplIssue), let i := Instr.vunpk k
    let x := vecInOf s i k [k.tpl.src1] false
    readyOn s .C i = true → vunpkLegal k.tpl = true → vecFree s i k [k.tpl.src1] (packLanes x) →
    exec i s = .next (vecDone s i k [k.tpl.src1] x
      { d := BitVec.ofNat 2048 x.e1 >>> k.tpl.k.toNat, lanes := BitVec.allOnes 64, flags := 0 })) ∧
  (∀ (s : State) (k : TplIssue), let i := Instr.vcmp k
    let x := vecInOf s i k [k.tpl.src1, k.tpl.src2] false
    readyOn s .C i = true → vcmpLegal k.tpl = true → vecFree s i k [k.tpl.src1, k.tpl.src2] (sameLanes x) →
    ∃ o, exec i s = .next (vecDone s i k [k.tpl.src1, k.tpl.src2] x o) ∧ o.lanes = laneSet x.mask (wid x) ∧
      (isM k.tpl.dst = false → ∀ j < 2048 / (wid x), elemAt (wid x) o.d.toNat j = if activeElem x.mask (wid x) j ∧ (x.pred j).1 then 2 ^ (wid x) - 1 else 0) ∧
      (isM k.tpl.dst = true → ∀ j < 64, o.d.getLsbD j =
        if (wid x) = 64 then (x.pred (j / 2)).1 else decide (∀ e < 2048 / (wid x), (wid x) * e / 32 = j → (x.pred e).1 = true)) ∧
      (isInt k.tpl.dtype = true → o.flags = 0 ∧ ∀ e, (x.pred e).1 = (match k.tpl.scale.toNat with
        | 0 => decide (x.intv (x.a e) = x.intv (x.b e))
        | 1 => decide (x.intv (x.a e) ≠ x.intv (x.b e))
        | 2 => decide (x.intv (x.a e) < x.intv (x.b e))
        | 3 => decide (x.intv (x.a e) ≤ x.intv (x.b e))
        | 4 => decide (x.intv (x.a e) > x.intv (x.b e))
        | 5 => decide (x.intv (x.a e) ≥ x.intv (x.b e))
        | 6 => false
        | _ => true))) ∧
  (∀ (s : State) (k : TplIssue), let i := Instr.vmlog k
    let m := reached s .C i
    readyOn s .C i = true → vmlogLegal k.tpl = true →
    (isM k.tpl.dst = true → ∃ v : BitVec 64,
      exec i s = .next (issuedOn s .C i m (classBound k.tpl) [.m (k.tpl.dst.truncate 3) v (BitVec.allOnes 64)] .next) ∧
      ∀ n < 64, v.getLsbD n = logicRule k.tpl.rnd ((m.readM (k.tpl.src1.truncate 3) 1).getLsbD n) ((m.readM (k.tpl.src2.truncate 3) 2).getLsbD n)) ∧
    (isM k.tpl.dst = false → ∃ v : BitVec 512,
      exec i s = .next (issuedOn s .C i m (classBound k.tpl) [.km (k.tpl.dst.truncate 2) v] .next) ∧
      ∀ n < 512, v.getLsbD n = logicRule k.tpl.rnd ((m.readKm (k.tpl.src1.truncate 2) 1).getLsbD n) ((m.readKm (k.tpl.src2.truncate 2) 2).getLsbD n)))

/-! ## Templates issued by patch words, and the matrix engine -/

/-- The kinds of R186 with their KIND codes. -/
def kindRows : List (Nat × (TplIssue → Instr)) :=
  [ (0x00, Instr.vmov), (0x01, Instr.vadd), (0x02, Instr.vsub), (0x03, Instr.vmul), (0x04, Instr.vfma), (0x05, Instr.vfms),
    (0x06, Instr.vfnma), (0x07, Instr.vmin), (0x08, Instr.vmax), (0x09, Instr.vabs), (0x0A, Instr.vneg), (0x0B, Instr.vcmp),
    (0x0C, Instr.vsel), (0x0D, Instr.vand), (0x0E, Instr.vor), (0x0F, Instr.vxor), (0x10, Instr.vnot), (0x11, Instr.vshl),
    (0x12, Instr.vshr), (0x13, Instr.vsra), (0x14, Instr.vcvt), (0x15, Instr.vqnt), (0x16, Instr.vdqnt), (0x17, Instr.vexp2),
    (0x18, Instr.vlog2), (0x19, Instr.vrcp), (0x1A, Instr.vrsq), (0x1B, Instr.vsqrt), (0x1C, Instr.vrope), (0x1D, Instr.vred),
    (0x1E, Instr.vscan), (0x1F, Instr.vperm), (0x20, Instr.vbcast), (0x21, Instr.vsplat), (0x22, Instr.viota), (0x23, Instr.vpopc),
    (0x24, Instr.vmlog), (0x25, Instr.vsmx), (0x26, Instr.vmrg), (0x27, Instr.vmadd), (0x28, Instr.vmsub), (0x29, Instr.vmmul),
    (0x2A, Instr.vntt), (0x2B, Instr.vintt), (0x2C, Instr.vmred), (0x2D, Instr.vclamp), (0x2E, Instr.vpack), (0x2F, Instr.vunpk),
    (0x30, Instr.vdot4), (0x80, Instr.mma), (0x81, Instr.mmax), (0x82, Instr.mmb), (0x83, Instr.mmod), (0x84, Instr.mzero),
    (0x85, Instr.mst), (0x86, Instr.mld), (0x87, Instr.madda), (0x88, Instr.mtrn), (0xC0, Instr.scout), (0xC1, Instr.mscr) ]

/-- How many words the splats of a record take (R181). -/
def splats (t : Template) : Nat :=
  ([t.src1, t.src2, t.src3].map (fun c => if c = 0x3A then 1 else if c = 0x3B then 2 else 0)).sum

/-- R180, R181 and R186: a patch word on C that nothing holds back, with its record amended and its literals in place, does what the kind
of the amended record does, so that one whose kind works element by element issues with its elements; a KIND that names none faults
ILLEGAL_TEMPLATE, and so does a record that needs more than four literals; before that, literals past the end of instruction memory are
ILLEGAL_INSTR. An amendment under FSEL 1 to 23 replaces its one field, of a wider
one the low 16 bits, and no other. -/
def Obligations.TemplateIssued : Prop :=
  (∀ (s : State) (n : BitVec 6) (u : BitVec 2) (f : BitVec 6) (v : BitVec 16) (lits : List Word32),
    let mk := Instr.patchWord n u f v lits
    let tpl := Template.ofBits (withLatClass (amend ((s.readTpl n 9999)) f v lits))
    let need := (if f = 62 then 1 else if f = 63 then 2 else 0) + splats tpl
    let k : TplIssue := { patch := 3#2 ++ n ++ u ++ f ++ v, lits := lits.take need, tpl := tpl }
    s.cur = .C → s.task.hold = none → canIssue s .C = true → boundMissed s .C = false →
    heldFault s .C (ordersWrite s.task .C mk) = none →
    mk.wellFormed = true → coveredHit (s.withSeq .C (armIf (s.seq .C))).task .C [.tpl n] = false → (u.getLsbD 1 = true → tpl.peer ≠ 3) →
    (∀ r ∈ kindRows, need ≤ 4 → need ≤ lits.length → tpl.kind.toNat = r.1 → ∃ t, exec mk s = .next t ∧ exec (r.2 k) s = .next t) ∧
    (∀ r ∈ vecArith ++ vecMoves ++ vecModular ++ vecFunctions, let i := r.kind k
      let codes := [k.tpl.src1, k.tpl.src2, k.tpl.src3].take r.sources
      let x := vecInOf s i k codes r.draws
      need ≤ 4 → need ≤ lits.length → readyOn s .C i = true → r.legal k.tpl = true → vecFree s i k codes (r.lanes x) →
      ∃ o, exec mk s = .next (vecDone s i k codes x o) ∧ elementsHold x (r.mask x) (r.rule x) o) ∧
    ((4 < need ∧ (s.seq .C).pc.toNat + 4 * need ≤ 0x7FFC) ∨ (need ≤ 4 ∧ need ≤ lits.length ∧ ∀ r ∈ kindRows, tpl.kind.toNat ≠ r.1) →
      ∃ t, exec mk s = .next t ∧ t.core.run = .stopped ∧ t.task.faults.cause.extractLsb 7 0 = 0x02#8 ∧ t.mem = s.mem) ∧
    ((4 < need ∧ 0x7FFC < (s.seq .C).pc.toNat + 4 * need) ∨ (need ≤ 4 ∧ lits.length < need) →
      ∃ t, exec mk s = .next t ∧ t.core.run = .stopped ∧ t.task.faults.cause.extractLsb 7 0 = 0x01#8 ∧ t.mem = s.mem)) ∧
  (∀ (b : BitVec 256) (f : BitVec 6) (v : BitVec 16) (lits : List Word32), 1 ≤ f.toNat → f.toNat ≤ 23 →
    (∀ g, 1 ≤ g → g ≤ 25 → g ≠ f.toNat → fieldGet (amend b f v lits) g = fieldGet b g) ∧
    (v.toNat < 2 ^ fieldWidth f.toNat → fieldWidth f.toNat ≤ 16 → fieldGet (amend b f v lits) f.toNat = v.toNat) ∧
    (16 < fieldWidth f.toNat → fieldGet (amend b f v lits) f.toNat = fieldGet b f.toNat / 2 ^ 16 * 2 ^ 16 + v.toNat))

/-- A matrix operation: its constructor, its legality, and what else of its operands lets it into the engine. -/
abbrev MatRow := (TplIssue → Instr) × (Template → Bool) × (State → TplIssue → Prop)

/-- An accumulating operation without a stamp: its loft or remote operand can be read, and a token of E is free for a remote one. -/
def accumFree (m : State) (k : TplIssue) : Prop :=
  k.tpl.stampmode = 0 ∧ operandFault m k.tpl = none ∧ (hasRemote k.tpl = true → fenced m .C 3 = false ∧ (m.seq .C).e.length < 32)

/-- The operations of the engine (R286, R298, R299, R308). -/
def matRows : List MatRow :=
  [ (Instr.mma, mmaLegal, accumFree), (Instr.mmax, mmaxLegal, accumFree), (Instr.mmb, mmbLegal, accumFree), (Instr.mmod, mmodLegal, accumFree),
    (Instr.mzero, mzeroLegal, fun _ _ => True), (Instr.madda, maddaLegal, fun _ _ => True), (Instr.mtrn, mtrnLegal, fun _ _ => True),
    (Instr.mst, mstLegal, fun m k => (isO k.tpl.dst = true → bandEntries k.tpl.dtype ≤ oRoom m (k.tpl.dst.truncate 2)) ∧
      (k.tpl.dst = 0x4C → sldnPending m (k.tpl.src2.truncate 3) = false ∧ bandEntries k.tpl.dtype ≤ qRoom m (k.tpl.src2.truncate 3))),
    (Instr.mld, mldLegal, fun m k => isV k.tpl.src1 = true → ∀ j < bandEntries k.tpl.stype1,
      sourcePoison m (vRange k.tpl.src1 (bandEntries k.tpl.stype1)) j allLanes = none),
    (Instr.scout, scoutLegal, fun m k => (scoutPen k.tpl = true → m.readMask (scoutSlot k.tpl) 14 ≠ []) ∧
      ∀ j < 2, sourcePoison m (vRange ((scoutVq k.tpl).zeroExtend 8) 2) j allLanes = none) ]

/-- R155, R283, R286, R293, R298, R299, R308 and R416: an unstamped operation with a legal record, and with what its issue needs of its
operands, enters the engine while fewer than sixteen are there, nothing of it done and no memory or accumulator changed; one that its
keep-mask gates out issues with a count in ACCT7 alone and, under RND 5, a step of the generator. -/
def Claims.MatrixIssues : Prop :=
  ∀ r ∈ matRows, ∀ (s : State) (k : TplIssue),
    let i := r.1 k
    let m := reached s .C i
    readyOn s .C i = true → r.2.1 k.tpl = true → k.tpl.stampmode = 0 →
    (hasKm k.tpl = true → kmBit m k.tpl = false → (k.tpl.kind = 0xC0 → scoutPen k.tpl = true → m.readMask (scoutSlot k.tpl) 14 ≠ []) →
      ∃ t, exec i s = .next (issuedOn s .C i t (classBound k.tpl) [.acct 7 1] .next) ∧ t.mem = s.mem ∧
        t.task = { m.task with hold := none, seed := t.task.seed } ∧ (k.tpl.rnd ≠ 5 → t.task.seed = m.task.seed)) ∧
    ((hasKm k.tpl = true → kmBit m k.tpl = true) → r.2.2 m k → m.task.mats.length < 16 →
      ∃ t c, exec i s = .next (issuedOn s .C i t (classBound k.tpl) [] (.queued c.id)) ∧ t.task.mats = s.task.mats ++ [c] ∧ c.issue = k ∧
        c.done = 0 ∧ c.started = false ∧ c.stopped = false ∧ t.task.acc = s.task.acc ∧ t.mem = s.mem)

/-- R38, R294 and R295: a stamped MMA, MMAX, MMB or MMOD is held before its stamp cycle, its stamp read, and misses its schedule after it. In
that cycle one without remote source and keep-mask enters the engine where everything it needs is there, and misses its schedule
otherwise. -/
def Claims.StampedIssues : Prop :=
  ∀ r ∈ matRows.take 4, ∀ (s : State) (k : TplIssue),
    let i := r.1 k
    let m := reached s .C i
    let e := (m.readX .C k.tpl.stampreg 13).1 + s.task.tofs
    readyOn s .C i = true → r.2.1 k.tpl = true → k.tpl.stampmode = 1 → s.task.hold = none → s.core.run = .running →
    (m.readX .C k.tpl.stampreg 13).2 = none →
    (s.pkg.time.toNat < e.toNat → ∃ t, exec i s = .next t ∧ t.task.hold = some (k, e) ∧ (t.seq .C).pc = (s.seq .C).pc ∧
      (t.seq .C).issueCnt = (s.seq .C).issueCnt ∧ t.task.mats = s.task.mats ∧ t.mem = s.mem) ∧
    (s.pkg.time = e → hasKm k.tpl = false → hasRemote k.tpl = false →
      let u := m.withTask { m.task with hold := some (k, e) }
      operandFault u k.tpl = none →
      (stampReady u k.tpl = true → ∃ t c, exec i s = .next (issuedOn s .C i t (classBound k.tpl) [] (.queued c.id)) ∧
        t.task.mats = s.task.mats ++ [c] ∧ c.issue = k ∧ c.stamped = true ∧ c.eff = e ∧ t.task.hold = none) ∧
      (stampReady u k.tpl = false → ∃ t, exec i s = .next t ∧ t.core.run = .stopped ∧ t.task.faults.cause.extractLsb 7 0 = 0x08#8)) ∧
    (e.toNat < s.pkg.time.toNat → ∃ t, exec i s = .next t ∧ t.core.run = .stopped ∧ t.task.faults.cause.extractLsb 7 0 = 0x08#8)

/-- R310: MSCR with a legal record, out of the score buffer, gives the active lanes their entries of the block and the others zero; into it,
it replaces the entries of active lanes and no other. -/
def Claims.ScoresMoved : Prop :=
  ∀ (s : State) (k : TplIssue), let i := Instr.mscr k
    let m := reached s .C i
    let mask := laneMaskOf m k.tpl
    let block := fun l => BitVec.ofNat 9 (64 * k.tpl.k.toNat + l)
    readyOn s .C i = true → mscrLegal k.tpl = true →
    (k.tpl.dst ≠ 0xFF → isO k.tpl.dst = false → ∃ o, exec i s = .next (issuedOn s .C i m (classBound k.tpl) (vecWrite k.tpl 0 o) .next) ∧
      o.lanes = mask ∧ o.flags = 0 ∧ ∀ l < 64, laneOf o.d l = if mask.getLsbD l then m.readScout (block l) (100 + l) else 0) ∧
    (k.tpl.dst ≠ 0xFF → isO k.tpl.dst = true → 0 < oRoom m (k.tpl.dst.truncate 2) → ∃ o,
      exec i s = .next (issuedOn s .C i (reserveO m (k.tpl.dst.truncate 2)).1 (classBound k.tpl) (vecWrite k.tpl m.nextId o) .next) ∧
      ∀ l < 64, laneOf o.d l = if mask.getLsbD l then m.readScout (block l) (100 + l) else 0) ∧
    (k.tpl.dst = 0xFF → queueLacking m [k.tpl.src1] = none → sourcePoison m [k.tpl.src1] 0 mask = none →
      ∃ es, exec i s = .next (issuedOn s .C i (popSources m [k.tpl.src1]) (classBound k.tpl) [.scout es] .next) ∧
        ∀ e v, (e, v) ∈ es ↔ ∃ l < 64, mask.getLsbD l = true ∧ e = block l ∧ v = laneOf (BitVec.ofNat 2048 (sourceVal m k [k.tpl.src1] 0)) l)

/-- Element (row, k) of an operand of `rows` rows, from its entries in order (R284). -/
def slabElem (t : Template) (ty : BitVec 4) (es : List Entry) (row k : Nat) : Nat :=
  elemAt (elemWidth t ty) (packBits 2048 (es.map BitVec.toNat)) (row * groupK t + k)

/-- The value of an integer element, +1 or -1 for a bit of MMB (R123, R285). -/
def slabValue (t : Template) (ty : BitVec 4) (v : Nat) : Int :=
  if t.kind = 0x82 then (if v % 2 = 1 then 1 else -1) else if ty.toNat < 4 then toSigned (elemWidth t ty) v else v

/-- The 32-bit element (m, n) of an accumulator. -/
def accCell (a : BitVec 65536) (m n : Nat) : Nat := elemAt 32 a.toNat (32 * m + n)

/-- An INT32 sum under the SAT bit (R113, R123). -/
def sum32 (sat : BitVec 1) (v : Int) : Nat :=
  ((if sat = 1 then max (-(2 ^ 31)) (min (2 ^ 31 - 1) v) else v) % 2 ^ 32).toNat

/-- R123, R130, R287, R288: once the operands of its group are there, the accumulating operation at the head of the engine has done one group
more, changes no other accumulator, and leaves the engine after the last group. In its destination it leaves the value of every element after
that group, from its start value on: for integers the sum of products added under SAT, for an unscaled MMOD of 64-bit residues the sum modulo
q, and for floats without scales the one rounding of the group.
One group a move, with the accumulator written at each group boundary, is the model's choice (log 30). -/
def Claims.MatrixGroups : Prop :=
  ∀ (s s1 : State) (c m : MatCmd) (rest : List MatCmd),
    let k := m.issue.tpl
    let dst : BitVec 2 := k.dst.truncate 2
    let old := s1.task.acc.get dst
    let start := if m.started then old else if k.accmode = 0 then 0 else if k.accmode = 1 then old else s1.task.acc.get (k.src3.truncate 2)
    s.task.mats = c :: rest → s.core.run = .running → c.stopped = false → c.issue.tpl.kind.toNat < 0x84 →
    gatherGroup s c = (s1, m, .ready) → s1.task.mats = s.task.mats → m.issue = c.issue → m.id = c.id → m.done = c.done →
    ∃ t, exec .matrixGroupBoundary s = .next t ∧ t.mem = s1.mem ∧ (∀ j, j ≠ dst → t.task.acc.get j = s1.task.acc.get j) ∧
      (m.done + 1 < groupsOf k → ∃ d, t.task.mats = d :: rest ∧ d.id = c.id ∧ d.done = c.done + 1 ∧ d.started = true ∧ d.buf1 = [] ∧ d.buf2 = []) ∧
      (groupsOf k ≤ m.done + 1 → (∀ d ∈ rest, d.id ≠ c.id) → t.task.mats = rest) ∧
      (k.kind ≠ 0x83 → k.dtype ≠ 8 → ∀ a < 64, ∀ b < 32, accCell (t.task.acc.get dst) a b =
        sum32 k.sat (toSigned 32 (accCell start a b) + ((List.range (groupK k)).map (fun j =>
          slabValue k k.stype1 (slabElem k k.stype1 m.buf1 a j) * slabValue k k.stype2 (slabElem k k.stype2 m.buf2 b j))).sum)) ∧
      (k.kind = 0x83 → k.scale = 0 → k.stype1 = 15 → k.stype2 = 15 → 0 < k.modulus.toNat → ∀ a < 64, ∀ b < 16, elemAt 64 (t.task.acc.get dst).toNat (16 * a + b) =
        ((if m.started then elemAt 64 start.toNat (16 * a + b) else elemAt 64 start.toNat (16 * a + b) % k.modulus.toNat) +
          ((List.range 32).map (fun j => mulMod (k.rnd == 1) k.modulus.toNat (slabElem k k.stype1 m.buf1 a j % k.modulus.toNat)
            (slabElem k k.stype2 m.buf2 b j % k.modulus.toNat))).sum) % k.modulus.toNat) ∧
      (k.kind ≠ 0x83 → k.dtype = 8 → hasScale k k.stype1 = false → hasScale k k.stype2 = false → ∀ a < 64, ∀ b < 32,
        accCell (t.task.acc.get dst) a b = (floatCell k
          ((List.range (groupK k)).map (fun j => decodeNum (fmtOf k.stype1) (slabElem k k.stype1 m.buf1 a j)))
          ((List.range (groupK k)).map (fun j => decodeNum (fmtOf k.stype2) (slabElem k k.stype2 m.buf2 b j))) (accCell start a b)).1 % 2 ^ 32)

/-- R298 and R299: alone in the engine MZERO clears its accumulator, MADDA adds two of INT32 under SAT or two of binary32 with one rounding, MTRN transposes each half of 32 rows,
MLD of 32-bit integers from v registers replaces its band alone; each then leaves the engine, and no other accumulator and no byte of memory
changes.
The pace is the model's choice (log 30). -/
def Claims.MatrixMoves : Prop :=
  ∀ (s : State) (c : MatCmd),
    let k := c.issue.tpl
    let dst : BitVec 2 := k.dst.truncate 2
    let a := s.task.acc.get (k.src1.truncate 2)
    let b := s.task.acc.get (k.src2.truncate 2)
    s.task.mats = [c] → s.core.run = .running → c.stopped = false →
    (k.kind = 0x84 ∨ k.kind = 0x87 ∧ (k.dtype = 2 ∨ k.dtype = 8) ∨ k.kind = 0x88 ∨ k.kind = 0x86 ∧ k.dtype = 6 ∧ k.stype1 = 6 ∧ isPop k.src1 = false) →
    ∃ t, exec .matrixGroupBoundary s = .next t ∧ t.task.mats = [] ∧ t.mem = s.mem ∧ (∀ j, j ≠ dst → t.task.acc.get j = s.task.acc.get j) ∧
      (k.kind = 0x84 → t.task.acc.get dst = 0) ∧
      (k.kind = 0x87 → k.dtype = 8 → ∀ x < 64, ∀ y < 32, accCell (t.task.acc.get dst) x y =
        (roundTo fmtF32 0 false 0 (addNum 0 (ofF32 (accCell a x y)) (ofF32 (accCell b x y))).1).1 % 2 ^ 32) ∧
      (k.kind = 0x87 → k.dtype = 2 → ∀ x < 64, ∀ y < 32, accCell (t.task.acc.get dst) x y =
        sum32 k.sat (toSigned 32 (accCell a x y) + toSigned 32 (accCell b x y))) ∧
      (k.kind = 0x88 → ∀ h < 2, ∀ x < 32, ∀ y < 32, accCell (t.task.acc.get dst) (32 * h + x) y = accCell a (32 * h + y) x) ∧
      (k.kind = 0x86 → k.k.toNat < 8 → ∀ x < 64, ∀ y < 32, accCell (t.task.acc.get dst) x y =
        if 8 * k.k.toNat ≤ x ∧ x < 8 * k.k.toNat + 8 then elemAt 32 (packBits 2048 (c.regs.map BitVec.toNat)) (32 * (x - 8 * k.k.toNat) + y)
        else accCell (s.task.acc.get dst) x y)

/-- R298 and R299: MST, alone in the engine, gives its destination the entries of its band in row order: for .n32 the bits, for .i32 each element
under SAT, for .f32 each element converted with the record's rounding; the unused half of an .e2m1 entry is zero. The entries are then due for
the destination that the record names, beside flags and the count of a gated operation, and no accumulator and no byte of memory changes. -/
def Claims.BandsStored : Prop :=
  ∀ (s : State) (c : MatCmd) (p : Pending),
    let k := c.issue.tpl
    let w := typeWidth k.dtype
    let a := s.task.acc.get (k.src1.truncate 2)
    s.task.mats = [c] → s.core.run = .running → c.stopped = false → k.kind = 0x85 → mstLegal k = true → (s.seq .C).pend = [p] → p.op = some c.id →
    ∃ t es extra, exec .matrixGroupBoundary s = .next t ∧ t.task.mats = [] ∧ t.task.acc = s.task.acc ∧ t.mem = s.mem ∧
      es.length = bandEntries k.dtype ∧ (∀ x ∈ extra, (∃ b, x = Write.fflags b) ∨ x = Write.acct 8 1) ∧
      (t.seq .C).pend = [{ p with op := none, due := Nat.max p.due s.core.cycle, writes :=
        (if isV k.dst then es.zipIdx.map (fun x => Write.v (k.dst.truncate 4 + BitVec.ofNat 4 x.2) x.1 (BitVec.allOnes 64))
         else if isO k.dst then List.zipWith (fun id e => Write.o (k.dst.truncate 2) id e) c.places es
         else [Write.q (k.src2.truncate 3) (c.places.zip es)]) ++ extra }] ∧
      (∀ e < 256,
        let v := accCell a (8 * k.k.toNat + e / 32) (e % 32)
        let o := elemAt w (packBits 2048 (es.map BitVec.toNat)) e
        (k.stype1 = 6 → o = v) ∧ (k.stype1 = 2 → o = (intRule k (toSigned 32 v)).1) ∧
        (k.stype1 = 8 → o = (numToFmt (fmtOf k.dtype) k.rnd.toNat (k.sat == 1) (srDraw c.seed (e % (2048 / w))) (ofF32 v)).1 % 2 ^ w)) ∧
      (k.dtype = 13 → packBits 2048 (es.map BitVec.toNat) < 2 ^ 1024)

/-- The scout score of query row `a` and key slot `b` from the slabs of every group: the query quantised to E2M1 blocks of 32, the shadow key
with its scale, the exact sum of their products rounded once (R150, R309). -/
def scoutScoreOf (t : Template) (b1 b2 : List Entry) (a b : Nat) : Nat :=
  let query := fun (g : Nat) => scoutQuery ((List.range 32).map (fun d => decodeNum (fmtOf t.stype1) (slabElem t t.stype1 (b1.drop (g * need1 t)) a d)))
  let key := fun (g d : Nat) =>
    mxValue 13 (elemAt 8 (b2.getD (g * need2 t + slabEntries t 13 32) 0).toNat b) (slabElem t 13 (b2.drop (g * need2 t)) b d)
  (roundTo fmtF32 0 false 0 (sumAll 0 ((List.range (groupsOf t)).flatMap (fun g =>
    (List.range 32).map (fun d => mulNum ((query g).getD d (.exact false 0 0)) (key g d))))).1).1

/-- The scores of the pairs of a tile that count: neither tag is padding, and the program of a PARTIAL tile allows the pair under PEN (R309). -/
def scoutPairs (m : MatCmd) : List Nat :=
  let t := m.issue.tpl
  let q := m.regs.flatMap tagsOf
  let key := m.tag.flatMap tagsOf
  (List.range 64).flatMap (fun a => ((List.range 32).filter (fun b =>
    !(q.getD a 0).getLsbD 56 && !(key.getD b 0).getLsbD 56 &&
      (!(scoutPen t && m.partialMask.getLsbD (scoutTile t).toNat) || allowedPair m.prog (q.getD a 0) (key.getD b 0)))).map (fun b =>
    scoutScoreOf t m.buf1 m.buf2 a b))

/-- R150, R151 and R309: the last group of a SCOUT at the head of the engine gives its tile the largest score of the pairs that count, minus
infinity where none does and NaN where one of them is; under ACCMODE 01 the larger of it and the tile's entry. The entry is then due with the
count in ACCT4 under ACCMODE 00, and the operation leaves the engine. -/
def Claims.ScoutScored : Prop :=
  ∀ (s s1 : State) (c m : MatCmd) (rest : List MatCmd) (p : Pending),
    let k := m.issue.tpl
    s.task.mats = c :: rest → s.core.run = .running → c.stopped = false → k.kind = 0xC0 → scoutLegal k = true →
    gatherGroup s c = (s1, m, .ready) → s1.task.mats = s.task.mats → m.issue = c.issue → m.id = c.id → m.done + 1 = groupsOf k →
    m.buf1.length = groupsOf k * need1 k → m.buf2.length = groupsOf k * need2 k → m.tag.length = 1 → m.regs.length = 2 →
    (∀ d ∈ rest, d.id ≠ c.id) → (s1.seq .C).pend = [p] → p.op = some c.id →
    ∃ t r, exec .matrixGroupBoundary s = .next t ∧ t.mem = s1.mem ∧ t.task.acc = s1.task.acc ∧ t.task.mats.map MatCmd.id = rest.map MatCmd.id ∧
      (scoutPairs m = [] → r = 0xFF800000) ∧ ((∃ v ∈ scoutPairs m, (ofF32 v).isNan = true) → r = 0x7FC00000) ∧
      (scoutPairs m ≠ [] → (∀ v ∈ scoutPairs m, (ofF32 v).isNan = false) → r ∈ scoutPairs m ∧
        ∀ v ∈ scoutPairs m, lessNum (ofF32 r) (ofF32 v) = false) ∧
      (t.seq .C).pend = [{ p with op := none, due := Nat.max p.due s1.core.cycle, writes :=
        [Write.scout [(scoutTile k, BitVec.ofNat 32 (if k.accmode = 0 then r else maxF32 m.entry.toNat r))]] ++
          (if k.accmode = 0 then [Write.acct 4 1] else []) ++ (if m.flags = 0 then [] else [Write.fflags m.flags]) ++
          (if hasKm k then [Write.acct 8 1] else []) }]

/-! ## Retirement, dispatch, planes and pre-emption -/

/-- R22, R204: an instruction alone in flight, with one destination and its bound come, writes that destination when it retires: x0 keeps
what it holds, a clean write clears poison, a flag takes its bit, a v register the lanes of the mask, FFLAGS only gains bits, a counter is
raised; x, f, bt and v registers, FFLAGS, counters and accumulators that are not that destination stay. Before its bound it stays in flight
and x and v registers stay; a tick of TIME retires what is due and goes on by one.
That a result is written exactly at its bound, and that a tick is one core cycle, is the model's choice (log 4 and 8). -/
def Obligations.ResultsRetire : Prop :=
  (∀ (s : State) (q : SeqId) (p : Pending) (w : Write), (s.seq q).pend = [p] → p.writes = [w] → p.push = none → p.op = none →
    p.due ≤ s.core.cycle →
    ∃ t, exec (.instructionRetire q) s = .next t ∧ (t.seq q).pend = [] ∧ (t.seq q).pc = (s.seq q).pc ∧ t.mem = s.mem ∧ t.pkg = s.pkg ∧
      (∀ r v e, w = .x r v e → (t.seq q).x = (if r = 0 then (s.seq q).x else (s.seq q).x.set r v) ∧
        (t.seq q).xPoison = (if r = 0 then (s.seq q).xPoison else (s.seq q).xPoison.set r e)) ∧
      ((∀ r v e, w ≠ .x r v e) → (t.seq q).x = (s.seq q).x) ∧
      (∀ r v, w = .flag r v → ∀ n < 8, (t.seq q).f.getLsbD n = if n = r.toNat then v.getLsbD 0 else (s.seq q).f.getLsbD n) ∧
      ((∀ r v, w ≠ .flag r v) → (t.seq q).f = (s.seq q).f) ∧
      (∀ r v, w = .bt r v → (t.seq q).bt = (s.seq q).bt.set r v) ∧ ((∀ r v, w ≠ .bt r v) → (t.seq q).bt = (s.seq q).bt) ∧
      (∀ r d k, w = .v r d k → (∀ n, n ≠ r → t.task.v.get n = s.task.v.get n) ∧
        ∀ n < 64, laneOf (t.task.v.get r) n = if k.getLsbD n then laneOf d n else laneOf (s.task.v.get r) n) ∧
      ((∀ r d k, w ≠ .v r d k) → t.task.v = s.task.v) ∧
      (∀ b, w = .fflags b → t.task.fflags = s.task.fflags ||| b) ∧ ((∀ b, w ≠ .fflags b) → t.task.fflags = s.task.fflags) ∧
      (∀ n k, w = .acct n k → t.task.acct = s.task.acct.set n (s.task.acct.get n + BitVec.ofNat 64 k)) ∧
      ((∀ n k, w ≠ .acct n k) → t.task.acct = s.task.acct) ∧ t.task.acc = (match w with | .acc r d => s.task.acc.set r d | _ => s.task.acc)) ∧
  (∀ (s : State) (q : SeqId), (∀ p ∈ (s.seq q).pend, s.core.cycle < p.due) →
    ∃ t, exec (.instructionRetire q) s = .next t ∧ (t.seq q).pend = (s.seq q).pend ∧ (t.seq q).x = (s.seq q).x ∧ t.task.v = s.task.v ∧
      t.mem = s.mem) ∧
  (∀ s : State, ∃ t, exec .timeTick s = .next t ∧ t.pkg.time = s.pkg.time + 1 ∧ t.core.cycle = s.core.cycle + 1 ∧ t.mem = s.mem ∧
    ∀ q, (t.seq q).pend = (s.seq q).pend.filter (fun p => !(p.op.isNone && decide (p.due ≤ s.core.cycle))) ∧ (t.seq q).pc = (s.seq q).pc)

/-- The first state of a sequencer (R32). -/
def sequencerStarts (r : RegFile 6 Word64) (q : SeqId) (a : SeqState) : Prop :=
  a.present = (recPresent r).getLsbD q.num.toNat ∧ a.exited = !a.present ∧ a.halted = !a.present ∧
    a.pc = BitVec.ofNat 16 ((r.get 8).toNat / 2 ^ (16 * q.num.toNat)) ∧
    (∀ n : BitVec 4, a.x.get n = if n = 1 then r.get 1 else if n = 14 then r.get (4 + q.num.zeroExtend 6) &&& 0x00FFFFFFFFFFFFFF else 0) ∧
    a.f = 0 ∧ (∀ n, a.bt.get n = 0) ∧ (∀ n, a.lc.get n = 0) ∧ a.lvs = 0 ∧ a.issueCnt = 0 ∧ a.e = [] ∧ a.pend = []

/-- The first state of a task (R32, R118): everything zero or empty, SPLIT and SEED from the record. -/
def taskStarts (i : TaskId) (r : RegFile 6 Word64) (t : Task) : Prop :=
  t.ident = i ∧ (∀ q : SeqId, sequencerStarts r q (t.seqs.get q.num)) ∧ (∀ n, t.v.get n = 0) ∧ (∀ n, t.t.get n = 0) ∧ (∀ n, t.m.get n = 0) ∧
    (∀ n, t.km.get n = 0) ∧ (∀ n, t.q.get n = []) ∧ (∀ n, t.o.get n = []) ∧ (∀ n, t.fifos.get n = []) ∧ t.copies = [] ∧ t.tofs = 0 ∧
    t.fflags = 0 ∧ t.split = (if (r.get 0).getLsbD 8 then (r.get 0).extractLsb 7 4 else 2) ∧ t.seed ≠ 0

/-- R32, R34, R46, R57 and R118: the task staged on this core is dispatched in the state of R32 once its plane and its group are ready, and
pages stay only in ways that its SPLIT leaves to the scratchpad; the loader fills the plane of a task to be dispatched on a core of its world;
a staged task of another world finds the core cleared first, once no engine owes the old world a write (R91).
Plane 0 at a first dispatch (log 14) and x14 without its space bits (log 37) are the model's reading. -/
def Claims.TaskStarts : Prop :=
  (∀ (s : State) (i : TaskId) (l : Launch), s.core.run = .staging → s.core.next = some i → launchOf s i.lid = some l → s.core.ready = true →
    groupReady s i.lid i.group = true →
    ∃ t, exec (.taskDispatch s.core.coreId i.lid i.taskId) s = .next t ∧ t.core.run = .running ∧ t.core.next = none ∧
      taskStarts i l.record t.task ∧ (∀ n, t.task.acc.get n = 0) ∧ t.task.active = 0 ∧ t.core.planes = s.core.planes ∧ t.core.ready = false ∧
      ∀ x ∈ t.core.resident, x ∈ s.core.resident ∧ x.way < 8 - t.task.split.toNat) ∧
  (∀ (s : State) (i : TaskId) (l : Launch) (p : Plane), s.core.run = .staging → s.core.next = some i → s.core.loading = true →
    s.core.lastWorld = i.world → launchOf s i.lid = some l → planeOf s l.queueDie l.queue l.record = some p →
    ∃ t, exec .planeLoadComplete s = .next t ∧ t.core.planes = s.core.planes.set 0 p ∧ t.core.ready = true ∧ t.core.loading = false ∧
      t.core.task = s.core.task ∧ t.mem = s.mem ∧ t.pkg.launches = s.pkg.launches) ∧
  (∀ (s : State) (i : TaskId), s.core.run = .staging → s.core.next = some i → s.core.lastWorld ≠ i.world → worldOwed s = false →
    ∃ t, exec .drainAndClear s = .next t ∧ t.core.lastWorld = i.world ∧ t.core.resident = [] ∧ t.core.l1 = [] ∧ t.core.next = some i ∧
      (∀ q : SeqId, t.seq q = SeqState.clear) ∧ (∀ n, t.task.v.get n = 0) ∧ (∀ n, t.task.acc.get n = 0) ∧ t.task.copies = [] ∧
      ∀ n, t.core.planes.get n = Plane.clear)

/-- R33, R35, R94 and R383: at a drain point a SWAP of every present sequencer flips the planes and keeps registers and pins; an EXIT that
names the successor of the record starts it, with the SPLIT of the ending task, in the state of R32 with the accumulators, pages and pins of
the ending task; without a successor the task ends, counted in its launch, and its core is free; with a record not yet delivered the task
stops with the fault of such a record.
What FREC7 holds at a drain point is the model's reading (log 44). -/
def Claims.DrainPoints : Prop :=
  (∀ s : State, s.core.run = .running → s.core.ready = true → (∃ q : SeqId, (s.seq q).present = true) →
    (∀ q : SeqId, (s.seq q).present = true → (s.seq q).swapWait = true) → enginesEmpty s = true → (∀ n, s.task.q.get n = []) → (∀ n, s.task.o.get n = []) →
    ∃ t, exec .planeFlip s = .next t ∧ t.task.active = s.task.active + 1 ∧ t.core.planes = s.core.planes ∧ t.core.ready = false ∧ t.mem = s.mem ∧
      t.task.acc = s.task.acc ∧ t.task.v = s.task.v ∧ t.task.fflags = s.task.fflags ∧ t.task.tofs = s.task.tofs ∧ t.task.pins = s.task.pins ∧
      ∀ q : SeqId, (t.seq q).x = (s.seq q).x ∧ (t.seq q).f = (s.seq q).f ∧ (t.seq q).issueCnt = (s.seq q).issueCnt ∧
        ((s.seq q).present = true → (t.seq q).pc = 0 ∧ (t.seq q).swapWait = false ∧ ∀ n, ((t.seq q).loops.get n).active = false)) ∧
  (∀ (s : State) (r : RegFile 6 Word64), s.core.staged = some r → atDrain s = true → drainRecords s.task = [] → successorNamed s = true →
    s.core.ready = true → recSplit r = s.task.split →
    ∃ t, exec .successorStart s = .next t ∧ (∃ i, taskStarts i r t.task ∧ i.lid = s.task.ident.lid ∧ i.taskId = s.task.ident.taskId ∧
        i.world = s.task.ident.world ∧ i.succTag = r.get 11) ∧ t.task.active = s.task.active + 1 ∧
      t.task.acc = s.task.acc ∧ t.task.pins = s.task.pins ∧ t.core.resident = s.core.resident ∧ t.mem = s.mem ∧ t.core.run = .running) ∧
  (∀ (s : State) (l : Launch), atDrain s = true → drainRecords s.task = [] → exitTag s = 0 → launchOf s s.task.ident.lid = some l →
    ∃ t u, exec (.taskDrainPoint s.core.coreId) s = .next t ∧ t.core.run = .idle ∧ (s.core.resident = [] → t.mem = s.mem) ∧ launchOf t s.task.ident.lid = some u ∧
      u.tasksDone = l.tasksDone + 1) ∧
  (∀ s : State, atDrain s = true → drainRecords s.task ≠ [] →
    ∃ t, exec (.taskDrainPoint s.core.coreId) s = .next t ∧ t.core.run = .stopped ∧ t.core.firmware = true ∧
      ∃ x ∈ drainRecords s.task, t.task.faults.addr = x.2.2.addr ∧ t.task.faults.cause.extractLsb 7 0 = x.2.2.cause.extractLsb 7 0)

/-- R40: a deadlocked task stops: TOKEN_PROTOCOL where a present sequencer that has not exited stands at a token, else QUEUE_PROTOCOL. R42,
R43 and R297: from Tp on, at a boundary of a K-group or from Tp + 500, a sequencer halts where it stands; with the last one the task stops with every result in flight written, and nothing of memory
changes. R54 and R55: a page that a sequencer waits for comes into a free frame of its bank with the bytes of its backing, and no other byte
of memory changes.
That every sequencer halts in the engines' turn of the first cycle from Tp is the model's choice (log 14), and a group that a halt waits for too (log 30). -/
def Claims.TaskStops : Prop :=
  (∀ (s : State) (c : BitVec 8) (q : SeqId), deadlocked s = some (c, q) →
    ∃ t, exec .deadlockDetect s = .next t ∧ t.core.run = .stopped ∧ t.task.faults.cause.extractLsb 7 0 = c ∧ (c = 0x13 ∨ c = 0x1A) ∧
      (c = 0x13 ↔ ∃ p : SeqId, (s.seq p).present = true ∧ (s.seq p).exited = false ∧ stallStands s p = some true) ∧
      t.task.faults.cause.extractLsb 13 12 = q.num ∧ t.mem = s.mem) ∧
  (∀ (s : State) (q : SeqId) (tp : Word64), s.core.run = .halting tp → tp.toNat ≤ s.pkg.time.toNat → (s.seq q).halted = false →
    ((s.task.mats.take 1).any MatCmd.midGroup = false ∨ tp.toNat + 500 ≤ s.pkg.time.toNat) →
    ∃ t, exec (.sequencerHalt q) s = .next t ∧ (t.seq q).halted = true ∧ (t.seq q).pc = (s.seq q).pc ∧ t.mem = s.mem ∧ t.pkg = s.pkg ∧
      ((∀ p, p ≠ q → (s.seq p).halted = true) → t.core.run = .stopped ∧ t.core.firmware = true ∧ t.core.haltCause = none ∧
        ∀ (p : SeqId) x, x ∈ (t.seq p).pend → x.op ≠ none) ∧
      ((∃ p, p ≠ q ∧ (s.seq p).halted = false) → t.core.run = s.core.run ∧ ∀ p, p ≠ q → t.seq p = s.seq p)) ∧
  (∀ (s : State) (page : BitVec 7) (q : SeqId) (pa w : Nat), Safety.memOk s → s.core.run = .running → (s.seq q).stall = some (.page page) →
    resident s page.toNat = false → freeWay ((bankMates s page.toNat).map Resident.way) 0 (8 - s.task.split.toNat) = some w →
    ownBacking s page.toNat = some pa → pa + 2 ^ 14 ≤ 2 ^ 60 →
    ∃ t r, exec (.scratchRefill page) s = .next t ∧ frameOf t page.toNat = some r ∧ r.way = w ∧
      (∀ k < 2 ^ 14, memGet t.mem (frameKey r + k) = memGet s.mem (pa + k)) ∧
      (∀ x, x < frameKey r ∨ frameKey r + 2 ^ 14 ≤ x → memGet t.mem x = memGet s.mem x))

/-! ## Groups, yards and launches -/

/-- A launch and a group of it as the yard finds them (R386). -/
def groupOf (s : State) (lid : BitVec 14) (g : Nat) (l : Launch) (x : Group) : Prop := launchOf s lid = some l ∧ l.group g = some x

/-- The dies of the cores that hold tasks of a group (R14). -/
def diesOf (s : State) (lid : BitVec 14) (g : Nat) : List (BitVec 2) :=
  (if ownInGroup s lid g then [dieOf s.core.coreId] else []) ++ ((peersIn s lid g).filter Peer.placed).map (fun p => dieOf p.core)

/-- R42, R43, R415 and R440: a request for a running group with room for its images makes it halt at a Tp 200 ticks after now if all its cores
lie on one die, else 400; without room it goes on and the log is told once. A core that stands still, no engine at work for it, becomes free with its task in an image,
the locks of its unpopped entries gone (log 13), and written at its save area. R386, R403, R420: a group whose quantum has passed may give
way, a waiting one gains priority with its waiting time, a page found present, its record written, lets its task resume.
The log record of a shortage, of kind 2 and told once, is the model's choice (log 48), as is the engines' turn in which a core halts (log 14). -/
def Claims.GroupsHalted : Prop :=
  (∀ (s : State) (lid : BitVec 14) (g : Nat) (l : Launch) (x : Group), groupOf s lid g l x → x.state = .running →
    (ownInGroup s lid g = true → s.core.run = .running) → (s.core.run = .stopped → peersIn s lid g ≠ []) →
    (saveRoom s (l.world s) lid g = true →
      ∃ t m y d, exec (.preemptRequest lid g) s = .next t ∧ groupOf t lid g m y ∧ y.state = .halting ∧
        d = (if ∀ a ∈ diesOf s lid g, ∀ b ∈ diesOf s lid g, a = b then 200 else 400) ∧ y.tp = s.pkg.time + d ∧
        t.mem = s.mem ∧ (ownInGroup s lid g = true → t.core = { s.core with run := .halting y.tp }) ∧ (ownInGroup s lid g = false → t.core = s.core)) ∧
    (saveRoom s (l.world s) lid g = false →
      ∃ t m y, exec (.preemptRequest lid g) s = .next t ∧ groupOf t lid g m y ∧ y.state = .running ∧ y.short = true ∧ t.core = s.core ∧
        t.mem = s.mem ∧ ∃ r, (t.pkg.yards.get l.queueDie).logWait = (s.pkg.yards.get l.queueDie).logWait ++ [r] ∧ r.kind = 2)) ∧
  (∀ (s : State) (l : Launch), s.core.run = .stopped → s.core.haltCause = none → enginesMove s = false → launchOf s s.task.ident.lid = some l →
    l.code = none →
    ∃ t im, exec (.saveImageComplete s.core.coreId) s = .next t ∧ t.core.run = .idle ∧ t.core.firmware = false ∧ t.task = Task.clear ∧
      t.pkg.images = s.pkg.images ++ [im] ∧ im.task = { s.task with q := s.task.q.map (fun l => l.map (fun e => { e with locks := [] })) } ∧
      im.plane = s.plane ∧ im.core = s.core.coreId ∧ im.hold = .preempted ∧
      (im.area = none → t.mem = s.mem) ∧
      (∀ a, im.area = some a → Safety.memOk s → memWords t.mem a (imageContents im).length = imageContents im)) ∧
  (∀ (s : State) (lid : BitVec 14) (g : Nat) (l : Launch) (x : Group), groupOf s lid g l x → x.state = .running → x.quantumOver = false →
    (s.pkg.yards.get l.queueDie).quantum.toNat ≤ (s.pkg.time - x.since).toNat →
    ∃ t m y, exec (.quantumExpiry lid g) s = .next t ∧ groupOf t lid g m y ∧ y = { x with quantumOver := true } ∧ t.core = s.core ∧ t.mem = s.mem) ∧
  (∀ (s : State) (die : BitVec 2), ∃ t, exec (.agingTick die) s = .next t ∧ t.core = s.core ∧ t.mem = s.mem ∧
    t.pkg.launches.length = s.pkg.launches.length ∧
    ∀ (n : Nat) (l : Launch), s.pkg.launches[n]? = some l → ∃ m : Launch, t.pkg.launches[n]? = some m ∧ m.lid = l.lid ∧ m.state = l.state ∧
      (l.queueDie = die ∧ (l.state = .ready ∨ l.state = .running) → m.freshAging =
        (let a := (s.pkg.yards.get die).ageTick.toNat
         if a = 0 then 15 else Nat.min 15 ((s.pkg.time - l.since).toNat / a))) ∧
      (l.queueDie ≠ die → m = l)) ∧
  (∀ (s : State) (im : Image), s.pkg.images = [im] → im.hold = .demand → pagePresent s im = true → demandWaits s im = false →
    ∃ t, exec (.demandRewalk im.task.ident.lid) s = .next t ∧ t.pkg.images = [{ im with hold := .preempted }] ∧ t.core = s.core)

/-- R45, R179, R214, R230, R361 to R364, R384, R386, R388, R389, R420: the waiter whose turn it is gets its cores, with a record in the
journal, each task staged on this core or placed on a peer; a pre-empted group is loaded where it was, TOFS raised by Tr - Tp. TRAP 0 and 1
resume past the TRAP, counted; an emulated conversion resumes past its word with its result, as the last delay slot of a taken branch at the
target; TRAP 8 at a stub has its function placed in a free range and published, bt3 at its entry, and without room in an empty heap ends its
launch with code 4, with a module that it may not read with code 3.
The cores of a resumed group and Tr, one tick after the load, are the model's choice (log 14), that a service goes into the image (log 48) and the counting of a resumed TRAP (log 25) its reading. -/
def Claims.GroupsResumed : Prop :=
  (∀ (s : State) (l : Launch) (x : Group) (cs : List Nat), nextServed s = some (l, x) → x.state ≠ .preempted → launchOf s l.lid = some l →
    coresFor s l x [] = some cs →
    ∃ t u, exec (.groupPlacement l.lid x.num) s = .next t ∧ launchOf t l.lid = some u ∧ u.state = .running ∧ u.fresh = l.fresh + 1 ∧
      u.groups = l.groups ++ [{ x with state := .running, since := s.pkg.time, aging := 0 }] ∧
      (s.pkg.yards.get l.queueDie).journal ++ [.dispatch l.lid x.num] = (t.pkg.yards.get l.queueDie).journal ∧
      ((s.pkg.yards.get l.queueDie).jSize.toNat < journalBytes → t.mem = s.mem) ∧
      (s.core.coreId ∉ cs.map (BitVec.ofNat 11) → t.core = s.core ∧ t.pkg.peers.length = s.pkg.peers.length + cs.length) ∧
      (cs.map (BitVec.ofNat 11) = [s.core.coreId] → t.core.run = .staging ∧ t.core.loading = true ∧ t.core.ready = false ∧
        ∃ i, t.core.next = some i ∧ i.lid = l.lid ∧ i.group = x.num * l.groupSize / l.groupSize ∧ i.taskId = BitVec.ofNat 64 (x.num * l.groupSize) ∧
          i.world = l.world s)) ∧
  (∀ (s : State) (l : Launch) (x : Group) (im : Image) (cs : List Nat), nextServed s = some (l, x) → x.state = .preempted →
    coresFor s l x [] = some cs → canResume s l x.num = true → imagesIn s l.lid x.num = [im] → imageLost s im = false →
    ∃ t, exec (.gangResume l.lid x.num) s = .next t ∧ t.core.run = .staging ∧ t.core.firmware = true ∧
      t.task.tofs = im.task.tofs + (s.pkg.time + 1 - im.tp) ∧ t.task.seqs = im.task.seqs ∧ t.task.v = im.task.v ∧ t.task.acc = im.task.acc ∧
      t.task.fifos = im.task.fifos ∧ t.core.planes.get im.task.active = im.plane ∧ im ∉ t.pkg.images) ∧
  (∀ (s : State) (im : Image) (k : Tok) (code : BitVec 8) (r : BitVec 4) (v : Word64) (w : Wait),
    let q := seqOf (recSeq im.task.faults)
    let a := im.task.seqs.get q.num
    s.pkg.images = [im] →
    (∀ svc, im.hold = .trap code → (code = 0 ∨ code = 1) → a.wait = some w → w.instr = .trap k code →
      w.push = none → a.pend = [] → a.delay.owed = 0 → endingLoops a a.pc.toNat (a.pc.toNat + 4) = [] →
      ∃ t m, exec (.faultResume svc) s = .next t ∧ t.pkg.images = [m] ∧ t.core = s.core ∧ m.hold = .preempted ∧
        (let b := m.task.seqs.get q.num
         b.x = a.x ∧ b.pc = a.pc + 4 ∧ b.issueCnt = a.issueCnt + 1 ∧ b.wait = none ∧ b.f = a.f)) ∧
    (∀ n c, im.hold = .emulate → ((im.plane.word q a.pc.toNat).extractLsb 25 24).toNat = 0 → r ≠ 0 → a.asyncErr = none →
      (a.delay.owed = 0 → endingLoops a a.pc.toNat (a.pc.toNat + 4) = []) →
      ∃ t m, exec (.faultResume { xs := [(r, v)], nfunc := n, code := c }) s = .next t ∧ t.pkg.images = [m] ∧ t.core = s.core ∧
        m.hold = .preempted ∧
        (let b := m.task.seqs.get q.num
         b.x = a.x.set r v ∧ b.xPoison = a.xPoison.set r none ∧ b.f = a.f ∧ ((a.delay.owed = 0 ∨ a.delay.taken = false) → b.pc = a.pc + 4) ∧
         (a.delay.owed = 1 → a.delay.taken = true → b.pc = a.delay.next ∧ b.delay = DelayState.none))) ∧
    (∀ (l : Launch) (f : Nat) (svc : Service), let ws := translated l q f svc
      im.hold = .trap 8 → launchOf s im.task.ident.lid = some l → stubFn a.pc.toNat svc.nfunc.toNat = some f →
      (svc.src = none → ws.length ≤ heapWords svc.nfunc.toNat → freeRanges im.plane q svc.nfunc.toNat ws.length ≠ [] → a.wait = some w → w.instr = .trap k 8 →
        w.push = none → a.pend = [] → a.delay.owed = 0 → endingLoops a a.pc.toNat (a.pc.toNat + 4) = [] →
        ∃ t m n, exec (.faultResume svc) s = .next t ∧ t.pkg.images = [m] ∧ t.core = s.core ∧ m.hold = .preempted ∧
          n ∈ freeRanges im.plane q svc.nfunc.toNat ws.length ∧ m.plane = publishFn im.plane q f n ws ∧
          (let b := m.task.seqs.get q.num
           b.bt = a.bt.set 3 (BitVec.ofNat 64 (4 * n)) ∧ b.x = a.x ∧ b.pc = a.pc + 4)) ∧
      (svc.src = none → im.plane.heap.get q.num = [] → freeRanges im.plane q svc.nfunc.toNat ws.length = [] → l.code = none → l.state ≠ .finished →
        ∃ t u, exec (.faultResume svc) s = .next t ∧ launchOf t im.task.ident.lid = some u ∧ u.code = some 4 ∧ t.mem = s.mem) ∧
      (∀ va, svc.src = some va → (∀ c ∈ l.cache, c.1 ≠ (q, f)) → imageWord (viewOf s im) l.queueDie l.queue (va.toNat / 8 * 8) = none →
        l.code = none → l.state ≠ .finished →
        ∃ t u, exec (.faultResume svc) s = .next t ∧ launchOf t im.task.ident.lid = some u ∧ u.code = some 3 ∧ t.mem = s.mem)))

/-- The yard of a die. -/
def yardOf (s : State) (d : BitVec 2) : Yard := s.pkg.yards.get d

/-- R370 to R373 and R412: writes of the window's registers, where those of the journal and of the log are taken only before the yard runs;
the commands with their ERR, where a first QENABLE without a valid log header answers 5.
ERR 3 and 4 are the model's reading where R372 names no row (log 48). -/
def Claims.YardCommands : Prop :=
  (∀ (s : State) (d : BitVec 2) (v : Word64), (yardOf s d).failed = false →
    (∀ off ∈ [0x18, 0x38, 0x40, 0x48, 0x50, 0x58], ∃ t, exec (.yardRegisterWrite d off v) s = .next t ∧ yardReg t d off.toNat = v ∧ t.mem = s.mem ∧
      t.core = s.core ∧ ∀ o < 0x80, o ≠ off.toNat → yardReg t d o = yardReg s d o) ∧
    (∀ off ∈ [0x20, 0x28, 0x30, 0x60], ∃ t, exec (.yardRegisterWrite d off v) s = .next t ∧
      yardReg t d off.toNat = (if (yardOf s d).state = 0 then v else yardReg s d off.toNat) ∧ t.mem = s.mem ∧ t.core = s.core ∧
      ∀ o < 0x80, o ≠ off.toNat → yardReg t d o = yardReg s d o)) ∧
  (∀ (s : State) (d : BitVec 2) (c : Word64) (e v : Nat), (yardOf s d).failed = false → (yardOf s d).state ≠ 0 → cmdOp c = 1 → cmdNext c = false →
    e = memRead s.mem ((yardOf s d).qtBase.toNat + 64 * (cmdQueue c).toNat) 64 →
    let x : Queue := { num := cmdQueue c, entry := BitVec.ofNat 512 e, enabled := true, accIdx := 0, polled := s.pkg.time }
    let put := fun (y : Yard) => { y with queues := y.queues.filter (fun z => z.num != cmdQueue c) ++ [x] }
    ((∃ z ∈ (yardOf s d).queues, z.num = cmdQueue c ∧ z.enabled = true) → ∃ t, exec (.qenable d c) s = .next t ∧ (yardOf t d).cmdErr = 4 ∧
      (yardOf t d).queues = (yardOf s d).queues) ∧
    ((∀ z ∈ (yardOf s d).queues, z.num = cmdQueue c → z.enabled = false) → entryOk s e = false → ∃ t, exec (.qenable d c) s = .next t ∧
      (yardOf t d).cmdErr = 2 ∧ (yardOf t d).queues = (yardOf s d).queues) ∧
    ((∀ z ∈ (yardOf s d).queues, z.num = cmdQueue c → z.enabled = false) → entryOk s e = true →
      yardRead (updYard s d put) d (cmdQueue c) (x.ring + 0x40) 8 = some v → ∃ t, exec (.qenable d c) s = .next t ∧ (yardOf t d).cmdErr = 0 ∧
      queueOf t d (cmdQueue c) = some { x with accIdx := BitVec.ofNat 64 v } ∧ t.mem = s.mem)) ∧
  (∀ (s : State) (d : BitVec 2) (c : Word64), (yardOf s d).failed = false → (yardOf s d).state = 0 → cmdOp c = 1 → cmdNext c = false →
    logSetUp s (yardOf s d) = none → ∃ t, exec (.qenable d c) s = .next t ∧ (yardOf t d).cmdErr = 5 ∧ (yardOf t d).state = 0 ∧
      (yardOf t d).queues = (yardOf s d).queues ∧ t.mem = s.mem) ∧
  (∀ (s : State) (d : BitVec 2) (c : Word64), (yardOf s d).failed = false → cmdNext c = false →
    (cmdOp c = 2 → ∃ t, exec (.qdisable d c) s = .next t ∧ (yardOf t d).cmdErr = 0 ∧ t.pkg.launches = s.pkg.launches ∧
      ∀ x, queueOf s d (cmdQueue c) = some x → queueOf t d (cmdQueue c) = some { x with enabled := false }) ∧
    (cmdOp c = 4 → launchOf s (cmdLid d c) = none → ∃ t, exec (.labort d c) s = .next t ∧ (yardOf t d).cmdErr = 3) ∧
    (∀ l, cmdOp c = 4 → launchOf s (cmdLid d c) = some l → l.code = none → l.state ≠ .finished → ∃ t u, exec (.labort d c) s = .next t ∧
      (yardOf t d).cmdErr = 0 ∧ launchOf t (cmdLid d c) = some u ∧ u.code = some 7 ∧ t.mem = s.mem) ∧
    (cmdOp c = 3 → (∀ im ∈ s.pkg.images, im.task.ident.lid ≠ cmdLid d c ∨ driverHeld im = false) → ∃ t, exec (.lresume d c) s = .next t ∧
      (yardOf t d).cmdErr = 3 ∧ t.pkg.images = s.pkg.images) ∧
    (∀ im w, cmdOp c = 3 → s.pkg.images = [im] → im.task.ident.lid = cmdLid d c → im.hold = .breakpoint →
      (im.task.seqs.get (seqOf (recSeq im.task.faults)).num).wait = some w → w.push = none →
      ∃ t m, exec (.lresume d c) s = .next t ∧ (yardOf t d).cmdErr = 0 ∧ t.pkg.images = [m] ∧ m.hold = .preempted ∧
        (m.task.seqs.get (seqOf (recSeq im.task.faults)).num).wait = none ∧
        (m.task.seqs.get (seqOf (recSeq im.task.faults)).num).pc = (im.task.seqs.get (seqOf (recSeq im.task.faults)).num).pc))

/-- A queue that a yard may take a packet of (R377). -/
def mayAccept (s : State) (d : BitVec 2) (n : BitVec 10) (x : Queue) (w0 v : Nat) : Prop :=
  queueOf s d n = some x ∧ x.enabled = true ∧ yardServes s d = true ∧ inflight s d < 4095 ∧ journalFull (yardOf s d) = false ∧
    yardRead s d n (slotVa x) 8 = some w0 ∧ w0 % 2 = 1 ∧ w0 / 2 ^ 32 = x.accIdx.toNat % 2 ^ 32 ∧ yardRead s d n (slotVa x) 128 = some v

/-- R377, R378, R379, R384, R385 and R390: a notify accepts the packet at ACCIDX where its VALID and SEQ fit; a launch waits in its turn, a
BARRIER completes and a DISPATCH is staged once its signals are at 0 or below, a packet that R381 refuses ends with BAD_PACKET; staged or
late it is READY, but for one bound to the package while a die has failed, which without RESTART ends with ABORTED (R392); complete it leaves
the yard, its COMPLETE record in the journal and its completion signal one lower.
The form of a journal record and the room it takes are the model's choice (log 14). -/
def Obligations.LaunchesProgress : Prop :=
  (∀ (s : State) (d : BitVec 2) (n : BitVec 10) (x : Queue) (w0 v : Nat) (lid : BitVec 14), mayAccept s d n x w0 v → freeLid s d = some lid →
    ∃ t l y, exec (.notify d n) s = .next t ∧ t.pkg.launches = s.pkg.launches ++ [l] ∧ l.lid = lid ∧ l.queueDie = d ∧ l.queue = n ∧
      l.state = .accepted ∧ l.code = none ∧ (∀ j : BitVec 4, l.packet.get j = BitVec.ofNat 64 (v / 2 ^ (64 * j.toNat))) ∧
      queueOf t d n = some y ∧ y = { x with accIdx := x.accIdx + 1 } ∧ t.core.run = s.core.run ∧
      (yardOf t d).journal = (yardOf s d).journal ++ [.accept n (BitVec.ofNat 32 (w0 / 2 ^ 32)) lid l.packet.toList]) ∧
  (∀ (s : State) (d : BitVec 2) (n : BitVec 10) (x : Queue), queueOf s d n = some x → pollDue s d x = true →
    ∃ t y, exec (.queuePollTimer d n) s = .next t ∧ queueOf t d n = some y ∧ y.polled = s.pkg.time ∧ t.core.run = s.core.run) ∧
  (∀ (s : State) (lid : BitVec 14) (l : Launch), launchOf s lid = some l → l.code = none →
    (l.state = .accepted → mayWait s l = true → packetBad l = false →
      ∃ t, exec (.depSignalSatisfied lid) s = .next t ∧ launchOf t lid = some { l with state := .waiting } ∧ t.mem = s.mem ∧ t.core = s.core) ∧
    (l.state = .accepted → mayWait s l = true → packetBad l = true → l.groups = [] →
      ∃ t u, exec (.depSignalSatisfied lid) s = .next t ∧ launchOf t lid = some u ∧ u.code = some 3 ∧ t.mem = s.mem) ∧
    (l.state = .waiting → (∀ a ∈ depsOf l, a % 8 = 0 ∧ ∃ v, yardRead s l.queueDie l.queue a 8 = some v ∧ toSigned 64 v ≤ 0) →
      (packetType l = 1 → l.groups = [] → ∃ t u, exec (.depSignalSatisfied lid) s = .next t ∧ launchOf t lid = some u ∧ u.code = some 0) ∧
      (∀ r pa leaf, packetType l ≠ 1 → (l.packet.get 1).toNat % 512 = 0 → yardXlate s l.queueDie l.queue (l.packet.get 1).toNat false = .ok pa leaf →
        recordAt s l.queueDie l.queue (l.packet.get 1).toNat = some r → recordOk s l.queueDie l.queue r = true →
        (planeOf s l.queueDie l.queue r).isSome = true →
        ∃ t u, exec (.depSignalSatisfied lid) s = .next t ∧ launchOf t lid = some u ∧ u.state = .staging ∧ u.record = r ∧ u.code = none ∧
          u.total = ((declared (recLevels r)).map (fun e => e.toNat % 2 ^ 24)).foldl (· * ·) 1 ∧ t.mem = s.mem)) ∧
    (l.state = .staging → readyInOrder s l = true → (needsPackage l && s.pkg.yards.toList.any Yard.failed && !restartable l) = true →
      l.groups = [] → ∃ t u, exec (.stagingDone lid) s = .next t ∧ launchOf t lid = some u ∧ u.code = some 2 ∧ t.mem = s.mem ∧ t.core = s.core) ∧
    (l.state = .staging → readyInOrder s l = true → (needsPackage l && s.pkg.yards.toList.any Yard.failed && !restartable l) = false →
      ∃ t u, exec (.stagingDone lid) s = .next t ∧ launchOf t lid = some u ∧ u.state = .ready ∧ u.since = s.pkg.time ∧ t.mem = s.mem ∧
        t.core = s.core) ∧
    (l.state = .staging → readyInOrder s l = true → (needsPackage l && s.pkg.yards.toList.any Yard.failed && !restartable l) = false →
      (yardOf s l.queueDie).stageMax.toNat ≤ (s.pkg.time - l.since).toNat →
      ∃ t, exec (.stagemaxExpiry lid) s = .next t ∧ launchOf t lid = some { l with state := .ready, since := s.pkg.time } ∧ t.mem = s.mem ∧
        t.core = s.core)) ∧
  (∀ (s : State) (lid : BitVec 14) (l : Launch), launchOf s lid = some l → completeReady s l = true → l.packet.get 3 = 0 →
    (∀ r ∈ s.core.resident, r.owner.lid ≠ lid) → (yardOf s l.queueDie).jSize.toNat < journalBytes →
    (l.packet.get 2 = 0 → ∃ t, exec (.launchComplete lid) s = .next t ∧ t.mem = s.mem ∧ t.core = s.core ∧ launchOf t lid = none ∧
      t.pkg.launches = s.pkg.launches.filter (fun x => x.lid != lid) ∧
      (yardOf t l.queueDie).journal = journalComplete lid (yardOf s l.queueDie).journal) ∧
    (∀ v pa leaf, l.packet.get 2 ≠ 0 → (l.packet.get 2).toNat % 8 = 0 → Safety.memOk s → yardRead s l.queueDie l.queue (l.packet.get 2).toNat 8 = some v →
      yardXlate s l.queueDie l.queue (l.packet.get 2).toNat true = .ok pa leaf → isYard (keyOf s pa) = false →
      noRoute s (keyOf s pa) = false →
      ∃ t, exec (.launchComplete lid) s = .next t ∧ memRead t.mem (keyOf s pa) 8 = (v + 2 ^ 64 - 1) % 2 ^ 64 ∧
        (∀ k, k < keyOf s pa ∨ keyOf s pa + 8 ≤ k → memGet t.mem k = memGet s.mem k) ∧ launchOf t lid = none))

/-- R391, R392 and R412: a yard reset before it ran is as at reset but for the mirror it serves; one that ran keeps its queues and launches; a die that
fails stops its yard, loses its memory, where no page stands in a frame of this core, and is served by the next die's yard until it returns; a record that waits is appended to a log with room.
That a reset keeps the set-up registers and a failed die loses its memory is the model's reading (log 48). -/
def Claims.YardFailures : Prop :=
  (∀ (s : State) (d : BitVec 2), (yardOf s d).failed = false →
    ((yardOf s d).state = 0 → ∃ t, exec (.yardReset d) s = .next t ∧
      yardOf t d = { Yard.reset with mirroring := (yardOf s d).mirroring } ∧ t.core = s.core ∧ t.mem = s.mem) ∧
    ((yardOf s d).state ≠ 0 → ∃ t, exec (.yardReset d) s = .next t ∧ (yardOf t d).state = 1 ∧ (yardOf t d).cmdErr = 0 ∧
      (yardOf t d).queues = (yardOf s d).queues ∧ (yardOf t d).journal = (yardOf s d).journal ∧ t.pkg.launches = s.pkg.launches)) ∧
  (∀ (s : State) (d : BitVec 2), (yardOf s d).failed = false → Safety.memOk s → s.core.resident = [] →
    ∃ t, exec (.dieFailure d) s = .next t ∧ (yardOf t d).failed = true ∧ (yardOf t (d + 1)).mirroring = true ∧
      (∀ k, d.toNat * 2 ^ 40 ≤ k → k < d.toNat * 2 ^ 40 + 2 ^ 40 → memGet t.mem k = 0) ∧
      (∀ k, k < d.toNat * 2 ^ 40 ∨ d.toNat * 2 ^ 40 + 2 ^ 40 ≤ k → memGet t.mem k = memGet s.mem k) ∧
      (dieOf s.core.coreId = d → t.core.run = .idle) ∧ ∀ p ∈ t.pkg.peers, dieOf p.core ≠ d) ∧
  (∀ (s : State) (d : BitVec 2), (yardOf s d).failed = true → ∃ t, exec (.dieReturn d) s = .next t ∧ (yardOf t d).failed = false ∧
    (yardOf t (d + 1)).mirroring = false ∧ (yardOf t d).queues = (yardOf s d).queues ∧ t.mem = s.mem ∧ t.core = s.core) ∧
  (∀ (s : State) (d : BitVec 2) (r : LogRec), Safety.memOk s → (yardOf s d).logWait = [r] → r.kind ≠ 4 → (yardOf s d).logN ≠ 0 →
    let base := (yardOf s d).logAddr.toNat
    let w := memRead s.mem base 8
    let slot := base + 0x100 + 0x100 * (w % (yardOf s d).logN)
    (w + 2 ^ 64 - memRead s.mem (base + 8) 8) % 2 ^ 64 < (yardOf s d).logN →
    ∃ t, exec (.logRecordWrite d) s = .next t ∧ (yardOf t d).logWait = [] ∧ memRead t.mem base 8 = (w + 1) % 2 ^ 64 ∧
      memRead t.mem slot 8 = r.kind.toNat ∧ memRead t.mem (slot + 8) 8 = r.ident.toNat ∧ memRead t.mem (slot + 16) 8 = r.task.toNat ∧
      (∀ k, (k < base ∨ base + 8 ≤ k) → (k < slot ∨ slot + 256 ≤ k) → memGet t.mem k = memGet s.mem k))

/-! ## Sleeping instructions, the copy buffer, the copy engine and the stream unit -/

/-- A sequencer that sleeps in an instruction, with what it waits for (R39, R42). -/
def asleep (s : State) (q : SeqId) (w : Wait) (k : WaitKind) : Prop := sleeping s q = some w ∧ w.kind = k

/-- A limit of a waiting instruction that has passed; 0 is none (R100, R218, R237, R256). -/
def pastLimit (s : State) (limit since : Word64) : Prop := limit ≠ 0 ∧ limit.toNat ≤ (s.pkg.time - since).toNat

/-- The waiter has stopped its task with a cause at its address. -/
def wokeFault (s : State) (i : Instr) (q : SeqId) (cause : BitVec 8) (addr : Word64) : Prop :=
  ∃ t, exec i s = .next t ∧ t.core.run = .stopped ∧ t.task.faults.cause.extractLsb 7 0 = cause ∧ t.task.faults.addr = addr ∧
    t.task.faults.cause.extractLsb 13 12 = q.num ∧ t.mem = s.mem ∧ (t.seq q).pc = (s.seq q).pc

/-- R187 and R212: a waiter that wakes is counted and sleeps no longer, its destinations in flight with the bound counted from the wake. -/
def Claims.WakeCompletes : Prop :=
  ∀ (s : State) (q : SeqId) (w : Wait) (bound : Nat) (ws : List Write), let t := wake s q w bound ws
    (t.seq q).wait = none ∧ (t.seq q).issueCnt = (s.seq q).issueCnt + 1 ∧ t.mem = s.mem ∧ t.pkg = s.pkg ∧
      (t.seq q).x = (s.seq q).x ∧ (t.seq q).f = (s.seq q).f ∧ (∀ r, r ≠ q → t.seq r = s.seq r) ∧
      ∃ p ∈ (t.seq q).pend, p.writes = ws ∧ p.due = s.core.cycle + bound ∧ p.push = w.push

/-- R237: a sleeping WAITM reads its location again and leaves with the extended value where that differs from the one it compares, or at
its limit with the value it then finds; else it sleeps on. Here and below the place of a wait in cluster space is that of the target found at
issue, ended or not (R50). -/
def Claims.WaitmWakes : Prop :=
  ∀ (s : State) (q : SeqId) (w : Wait) (d : BitVec 4) (sp : BitVec 2) (addr : Word64) (z : BitVec 2) (g : BitVec 1) (cmp limit since : Word64)
    (s1 : State) (key : Nat) (leaf : Word64), asleep s q w (.waitm d sp addr z g cmp limit since) →
    checkLater s w.home sp addr.toNat (bytesOf z) false = (s1, .key key leaf) → isYard key = false → readFails s1 key (bytesOf z) = none →
    let v := memRead s.mem key (bytesOf z)
    let leaves := fun (i : Instr) => ∃ t, exec i s = .next (wake t q w (boundOf sp) [.x d (loadedVal g (bytesOf z) v) none]) ∧ t.mem = s.mem ∧
      t.task = s.task
    (v ≠ cmp.toNat % 2 ^ (8 * bytesOf z) → leaves (.waitmWake q)) ∧
    (v = cmp.toNat % 2 ^ (8 * bytesOf z) → exec (.waitmWake q) s = .next s) ∧
    (pastLimit s limit since → leaves (.waitmLimit q)) ∧
    (¬ pastLimit s limit since → exec (.waitmLimit q) s = .next s)

/-- R100: a sleeping BWAIT leaves with the phase once that differs from the one it waits on, faults BARRIER_OVERRUN on an object with ERR
or an invalid one, and BARRIER_TIMEOUT at its limit. -/
def Claims.BarrierWakes : Prop :=
  ∀ (s : State) (q : SeqId) (w : Wait) (d : BitVec 4) (obj : Word64) (p : BitVec 4) (limit since : Word64),
    asleep s q w (.bwait d obj p limit since) → (s.seq q).objErr = none →
    (pastLimit s limit since → wokeFault s (.barrierTimeout q) q 0x0E obj) ∧
    (¬ pastLimit s limit since → exec (.barrierTimeout q) s = .next s) ∧
    ∀ (s1 : State) (key : Nat) (leaf : Word64), let o := objectAt s.mem key
      checkLater s w.home (obj.extractLsb 57 56) (obj.extractLsb 55 0).toNat 16 false = (s1, .key key leaf) → isYard key = false →
      (objValid o → objErr o = false → objPhase o ≠ p →
        ∃ t, exec (.barrierWaitWake q) s = .next (wake t q w (boundOf (obj.extractLsb 57 56)) [.x d ((objPhase o).zeroExtend 64) none]) ∧
          t.mem = s.mem ∧ t.task = s.task) ∧
      (objValid o → objErr o = false → objPhase o = p → exec (.barrierWaitWake q) s = .next s) ∧
      (¬ objValid o ∨ objErr o = true → wokeFault s (.barrierWaitWake q) q 0x0D obj)

/-- R104 and R256: a sleeping RWFREE or RWFILL acts on its ring once that has room, or enough filled slots, sleeps on without, and faults
BARRIER_TIMEOUT at its limit, the ring unchanged; the sequencer of a held RPUB or RREL goes on once its home has applied it. -/
def Claims.RingWakes : Prop :=
  (∀ (s : State) (q : SeqId) (w : Wait) (d : BitVec 4) (obj : Word64) (n : Nat) (take : Bool) (limit since : Word64),
    asleep s q w (.ring d obj n take limit since) →
    (pastLimit s limit since → wokeFault s (.ringWaitTimeout q) q 0x0E obj) ∧
    (¬ pastLimit s limit since → exec (.ringWaitTimeout q) s = .next s) ∧
    ∀ (s1 : State) (key : Nat) (leaf : Word64), let r := Ring.ofBits (memRead s.mem key 64)
      let room := if take then (r.head + 2 ^ 32 - r.taken) % 2 ^ 32 else r.slots - (r.claimed + 2 ^ 32 - r.tail) % 2 ^ 32
      checkLater s w.home (obj.extractLsb 57 56) (obj.extractLsb 55 0).toNat 64 true = (s1, .key key leaf) → isYard key = false →
      noRoute s key = false → Safety.memOk s → s.pkg.heldRings = [] → r.invalid = false → r.err = false → 1 ≤ n → n ≤ r.slots →
      (n ≤ room →
        ∃ t, exec (.ringWaitWake q) s =
            .next (wake t q w (boundOf (obj.extractLsb 57 56)) [.x d (claimed (if take then r.taken else r.claimed)) none]) ∧
          memRead t.mem key 64 =
            (if take then { r with taken := (r.taken + n) % 2 ^ 32 } else { r with claimed := (r.claimed + n) % 2 ^ 32 }).toBits ∧
          (∀ x, x < key ∨ key + 64 ≤ x → memGet t.mem x = memGet s.mem x)) ∧
      (room < n → exec (.ringWaitWake q) s = .next s)) ∧
  (∀ (s : State) (q : SeqId) (w : Wait) (obj : Word64) (id : Nat), asleep s q w (.held obj id) →
    ((∀ h ∈ s.pkg.heldRings, h.id ≠ id) → exec (.ringWaitWake q) s = .next (s.withSeq q { s.seq q with wait := none })) ∧
    ((∃ h ∈ s.pkg.heldRings, h.id = id) → exec (.ringWaitWake q) s = .next s))

/-- R217 and R218: a sleeping WAITT leaves at its target with TIME; a sleeping TWAIT leaves once enough tokens are present, or at its limit,
with the counts of its FIFO. -/
def Claims.TimeWakes : Prop :=
  (∀ (s : State) (q : SeqId) (w : Wait) (d : BitVec 4) (target : Word64), asleep s q w (.waitt d target) →
    (stampReached s target = true → exec (.waittWake q) s = .next (wake s q w 1 [.x d (s.pkg.time - s.task.tofs) none])) ∧
    (stampReached s target = false → exec (.waittWake q) s = .next s)) ∧
  (∀ (s : State) (q : SeqId) (w : Wait) (n d : BitVec 4) (need : Nat) (limit since : Word64), asleep s q w (.twait n d need limit since) →
    let l := fifoByNum s.task q n
    (need ≤ (l.filter Slot.filled).length → exec (.twaitWake q) s = .next (wake s q w 1 [.x d (tcntVal l) none])) ∧
    ((l.filter Slot.filled).length < need → exec (.twaitWake q) s = .next s) ∧
    (pastLimit s limit since → exec (.twaitLimit q) s = .next (wake s q w 1 [.x d (tcntVal l) none])) ∧
    (¬ pastLimit s limit since → exec (.twaitLimit q) s = .next s))

/-- R98 and R99: the deferred arrival whose earlier commands have performed is made at its object, counted out of DEF and PEND, the phase
advancing when both counts reach zero; it is registered no longer. -/
def Claims.DeferredMade : Prop :=
  ∀ (s : State) (d : Deferred) (s1 : State) (key : Nat) (leaf : Word64), s.task.deferred = [d] → engineLive s = true → Safety.memOk s →
    (∀ x ∈ d.waits, ∀ p, (x, p) ∉ outstanding s d.origin.q) →
    checkLater s d.home (d.obj.extractLsb 57 56) (d.obj.extractLsb 55 0).toNat 16 true = (s1, .key key leaf) → isYard key = false →
    noRoute s key = false → let o := objectAt s.mem key
    objOpen o → d.c.toNat ≤ (objDef o).toNat →
    ∃ t, exec .deferredArrival s = .next t ∧ t.task.deferred = [] ∧ t.task.seqs = s.task.seqs ∧
      objectAt t.mem key = objEvaluated (objExp o) (objPend o - d.c) (objBytes o) (objPhase o) (objDef o - d.c) ∧
      (∀ x, x < key ∨ key + 16 ≤ x → memGet t.mem x = memGet s.mem x)

/-- Unstamped commands that the engine has accepted. -/
def heldCopies (l : List CopyCmd) : Nat := (l.filter (fun x => x.accepted && !x.stamped)).length

/-- R42, R45 and R251: of the commands whose time has come the earliest leaves the buffer, an unstamped one only while the engine holds fewer
than 16 unstamped commands of the core, those of its saved tasks among them, a stamped one only before a halt's Tp and from a resume's Tr.
The order among commands is the model's choice where R251 gives none (log 11). -/
def Claims.CopyLeaves : Prop :=
  ∀ (s : State) (c : CopyCmd) (rest : List CopyCmd), s.task.copies = c :: rest → taskLive s = true → c.accepted = false →
    c.eff.toNat ≤ s.pkg.time.toNat → (∀ x ∈ rest, x.accepted = false → c.eff.toNat ≤ x.eff.toNat) →
    (c.stamped = true → s.core.stampFrom.toNat ≤ s.pkg.time.toNat ∧ ∀ tp, s.core.run = .halting tp → s.pkg.time.toNat < tp.toNat) →
    (c.stamped = false → heldCopies rest +
      ((s.pkg.images.filter (fun i => i.core == s.core.coreId)).map (fun i => heldCopies i.task.copies)).sum < 16) →
    exec .copyBufferLeave s = .next (s.withTask { s.task with copies := { c with accepted := true } :: rest })

/-- A command of the copy engine that moves elements of memory (R253). -/
def copyMoves (s : State) (c : CopyCmd) : Prop :=
  s.task.copies.find? (fun x => x.id == c.id) = some c ∧ engineLive s = true ∧ c.accepted = true ∧ c.stop = none ∧
    c.moved < copyTotal c.desc.toNat ∧ Safety.memOk s

/-- A write of this core whose bytes include the one at a key. -/
def covers (o : OldBytes) (k : Nat) : Prop := o.key ≤ k ∧ k < o.key + o.size

/-- The writes among `n` bytes at a key that no order puts before a command (R82). -/
def lateFor (s : State) (c : CopyCmd) (k n : Nat) : List OldBytes :=
  s.lateOn c.origin.q (if c.fn = fnGath ∨ c.fn = fnScat then 2 else 1) k n

/-- R82, R248, R249 and R253: the engine moves the elements of a command in order, chunk by chunk, here where a
chunk does not end within a frozen object (R102): the bytes at the destination's place are those of the source's, or the pattern's for a
fill, but where a write that no order puts before the command meets one, which may be read as it was before that write, or keep it; no other
byte of memory changes. An element of two dimensions lies at the base and its indices times its strides, a sum without bound. A page that is not present leaves the
command waiting; at another fault it stops, its record built then (R224).
Rows in ascending order, the size of a chunk (log 11), and which late writes a read may miss (log 2), are the model's choice. -/
def Claims.CopyMoves : Prop :=
  (∀ (s : State) (c : CopyCmd) (a ks b kd : Nat) (l1 l2 : Word64), let m := copyChunk c (.key a ks l1) (.key b kd l2)
    copyMoves s c → c.fn ≠ fnCpyq → c.fn ≠ fnCpyf → sideAt s c false c.moved = .key a ks l1 → sideAt s c true c.moved = .key b kd l2 →
    cleanBytes s ks m (m + 1) = m → 0 < m → granuleStart s c (c.moved + m) = none → isYard ks = false → isYard kd = false →
    m ≤ copyExt0 c.desc.toNat ∧ ∃ t d, exec (.copyPageCheck c.id) s = .next t ∧ t.task.copies.find? (fun x => x.id == c.id) = some d ∧
      d = { c with moved := c.moved + m, parked := false } ∧
      (∀ u < m, (∀ o ∈ lateFor s c kd m, ¬ covers o (kd + u)) →
        ∃ i, memGet t.mem (kd + u) = pastByte ((lateFor s c ks m).drop i) s.mem (ks + u) ∧
          ((∀ o ∈ lateFor s c ks m, ¬ covers o (ks + u)) → memGet t.mem (kd + u) = memGet s.mem (ks + u))) ∧
      (∀ x, x < kd ∨ kd + m ≤ x → memGet t.mem x = memGet s.mem x)) ∧
  (∀ (s : State) (c : CopyCmd) (b kd : Nat) (l2 : Word64), let m := copyChunk c .none (.key b kd l2)
    copyMoves s c → c.fn = fnCpyf → sideAt s c true c.moved = .key b kd l2 → 0 < m →
    granuleStart s c (c.moved + m) = none → isYard kd = false →
    ∃ t d, exec (.copyPageCheck c.id) s = .next t ∧ t.task.copies.find? (fun x => x.id == c.id) = some d ∧
      d = { c with moved := c.moved + m, parked := false } ∧
      (∀ u < m, (∀ o ∈ lateFor s c kd m, ¬ covers o (kd + u)) → memGet t.mem (kd + u) = BitVec.ofNat 8 (copySrc c.desc.toNat / 2 ^ (8 * ((c.moved + u) % 8)))) ∧
      (∀ x, x < kd ∨ kd + m ≤ x → memGet t.mem x = memGet s.mem x)) ∧
  (∀ (s : State) (c : CopyCmd) (addr : Word64), copyMoves s c → c.parked = false → sideAt s c false c.moved = .fault 0x05 addr →
    ∃ t, exec (.copyPageCheck c.id) s = .next t ∧ t.task.copies = updFirst (fun x => x.id == c.id) (fun x => { x with parked := true }) s.task.copies ∧
      t.mem = s.mem ∧ t.core.run = s.core.run) ∧
  (∀ (s : State) (c : CopyCmd) (x : BitVec 8) (addr : Word64), copyMoves s c → sideAt s c false c.moved = .fault x addr → x ≠ 0x05 →
    ∃ t r, exec (.copyPageCheck c.id) s = .next t ∧ r.addr = addr ∧ r.cause.extractLsb 7 0 = x ∧ t.mem = s.mem ∧ t.core.run = s.core.run ∧
      t.task.copies = updFirst (fun y => y.id == c.id) (fun y => { y with stop := some (x, r) }) s.task.copies) ∧
  (∀ (s : State) (region : Nat × Nat) (n : Nat) (dst : Bool) (u v : Nat), copyNdim n = 2 → u < copyExt0 n → v < copyExt n 1 →
    (if dst then copyDhe n else copyShe n) = false →
    let sum : Int := (if dst then copyDst n else copySrc n : Nat) + (u : Int) + v * copyStride n 1 dst
    elemAddr s region n 0 dst (u + copyExt0 n * v) = .at (if sum < 0 then ofSigned 64 sum else sum.toNat))

/-- R83, R93, R98 and R254: a command with every element moved fills its E slot with 1 and leaves the engine, its bytes counted at the open
object it names once no fence issued before it is open; one that has stopped fills it with 0 and the record of its stop. -/
def Claims.CopyCompletes : Prop :=
  (∀ (s : State) (c : CopyCmd), s.task.copies.find? (fun x => x.id == c.id) = some c → engineLive s = true → c.accepted = true → c.stop = none →
    copyTotal c.desc.toNat ≤ c.moved →
    (copyBare c.desc.toNat = false → exec (.copyComplete c.id) s =
      .next (s.withTask (let t := s.task.fillE c.origin.q c.eslot true none
                         { t with copies := t.copies.filter (fun x => x.id != c.id) }))) ∧
    (∀ (s1 : State) (key : Nat) (leaf : Word64), let o := objectAt s.mem key
      copyBare c.desc.toNat = true → fencedBefore s c.origin.q c.id = false → Safety.memOk s →
      checkAccess s (BitVec.ofNat 2 (bitsOf c.desc.toNat 376 2)) (bitsOf c.desc.toNat 320 56) 16 true = (s1, .key key leaf) → isYard key = false →
      noRoute s key = false → objOpen o → c.moved ≤ (objBytes o).toNat →
      ∃ t, exec (.copyComplete c.id) s = .next t ∧ t.task.copies = s.task.copies.filter (fun x => x.id != c.id) ∧
        (t.seq c.origin.q).e = fillSlot (s.seq c.origin.q).e c.eslot true none ∧
        objectAt t.mem key = objEvaluated (objExp o) (objPend o) (objBytes o - BitVec.ofNat 32 c.moved) (objPhase o) (objDef o) ∧
        (∀ x, x < key ∨ key + 16 ≤ x → memGet t.mem x = memGet s.mem x))) ∧
  (∀ (s : State) (c : CopyCmd) (cause : BitVec 8) (r : FaultRec), s.task.copies.find? (fun x => x.id == c.id) = some c → engineLive s = true →
    c.accepted = true → c.stop = some (cause, r) → copyBare c.desc.toNat = false → c.places = [] →
    ∃ t, exec (.copyComplete c.id) s = .next t ∧ t.task.copies = s.task.copies.filter (fun x => x.id != c.id) ∧ t.mem = s.mem ∧
      (t.seq c.origin.q).e = fillSlot (s.seq c.origin.q).e c.eslot false (some r)) ∧
  (∀ (l : List Slot) (a : Slot) (r : FaultRec), fillSlot (a :: l) a.id true none = { a with filled := true, val := true, record := none } :: l ∧
    fillSlot (a :: l) a.id false (some r) = { a with filled := true, val := false, record := some r } :: l)

/-- R58, R82, R155, R246 and R247: the unit moves the next entry of a job, from memory into the oldest place of the queue, its L1 lines locked, or from the head of the
output queue to memory, PEND one lower, each byte as it was before or after a write that no order puts before the command; a tile that the keep-mask drops is skipped and counted. A job that a halt has held finds its bytes without what the task has written since (R91).
Which late writes a read may miss is the model's choice (log 2). -/
def Claims.EntriesMove : Prop :=
  (∀ (s : State) (j : StreamJob) (id : Nat) (rest locks : List Nat) (s1 s2 : State) (key : Nat) (leaf : Word64),
    let x := (s.core.planes.get j.plane).streams.get j.slot
    let n := x.desc.toNat
    let e := (j.first + j.done) % streamTotal n
    s.task.jobs = [j] → taskLive s = true → j.load = true → j.toReserve = 0 → j.stopped = false → j.mask = none → j.places = id :: rest →
    entryPlace s (streamSp n) (streamAddr n e) false = (s1, .key key leaf) → isYard key = false →
    (if streamSp n = 2 then lockEntry s1 (streamAddr n e) else some (s1, [])) = some (s2, locks) → readFails s2 key 256 = none →
    let late := if j.held then s.core.olds else s.lateOn j.origin.q 5 key 256
    ∃ t v, exec (.streamEntryMove j.id) s = .next t ∧ (late = [] → v = BitVec.ofNat 2048 (memRead s.mem key 256)) ∧
      (∀ u < 256, ∃ i, (v.extractLsb' (8 * u) 8) = pastByte (late.drop i) s.mem (key + u)) ∧
      t.task.q = s.task.q.set j.qn (updFirst (fun y => y.id == id)
        (fun y => { y with filled := true, data := v, poison := none, locks := locks }) (s.task.q.get j.qn)) ∧
      t.task.jobs = (if j.count ≤ j.done + 1 then [] else [{ j with done := j.done + 1, places := rest }]) ∧
      (t.core.planes.get j.plane).streams.get j.slot = { x with pend := x.pend - 1 } ∧ t.mem = s.mem) ∧
  (∀ (s : State) (j : StreamJob) (hd : QEntry) (rest : List QEntry) (s1 : State) (key : Nat) (leaf : Word64),
    let x := (s.core.planes.get j.plane).streams.get j.slot
    let n := x.desc.toNat
    let e := (j.first + j.done) % streamTotal n
    s.task.jobs = [j] → taskLive s = true → j.load = false → j.stopped = false → j.mask = none → Safety.memOk s →
    s.task.o.get (j.qn.truncate 2) = hd :: rest → hd.filled = true → hd.poison = none →
    entryPlace s (streamSp n) (streamAddr n e) true = (s1, .key key leaf) → isYard key = false → noRoute s key = false →
    ∃ t, exec (.streamEntryMove j.id) s = .next t ∧ t.task.o = s.task.o.set (j.qn.truncate 2) rest ∧
      (∀ u < 256, (∀ o ∈ (if j.held then s.core.olds else s.lateOn j.origin.q 5 key 256), ¬ covers o (key + u)) → memGet t.mem (key + u) = hd.data.extractLsb' (8 * u) 8) ∧
      (∀ a, a < key ∨ key + 256 ≤ a → memGet t.mem a = memGet s.mem a) ∧
      (t.core.planes.get j.plane).streams.get j.slot = { x with pend := x.pend - 1 }) ∧
  (∀ (s : State) (j : StreamJob) (m : BitVec 512), let x := (s.core.planes.get j.plane).streams.get j.slot
    let n := x.desc.toNat
    let e := (j.first + j.done) % streamTotal n
    s.task.jobs = [j] → taskLive s = true → j.toReserve = 0 → j.stopped = false → j.mask = some m → m.getLsbD (streamTile n e) = false →
    ∃ t, exec (.streamEntryMove j.id) s = .next t ∧ t.task.q = s.task.q ∧ t.task.o = s.task.o ∧ t.mem = s.mem ∧
      t.task.acct = s.task.acct.set 7 (s.task.acct.get 7 + 1) ∧
      t.task.jobs = (if j.count ≤ j.done + 1 then [] else [{ j with done := j.done + 1 }]) ∧
      (t.core.planes.get j.plane).streams.get j.slot = { x with pend := x.pend - 1 })

/-! ## Held matrix operations, classification, slice attention, tiers and translation -/

/-- The four accumulating kinds with their codes (R186, R286). -/
def accumKinds : List (Nat × (TplIssue → Instr) × (Template → Bool)) :=
  [ (0x80, Instr.mma, mmaLegal), (0x81, Instr.mmax, mmaxLegal), (0x82, Instr.mmb, mmbLegal), (0x83, Instr.mmod, mmodLegal) ]

/-- R295: a held operation enters the engine in its stamp cycle, with its stamp as effective time; before that cycle it stays held. -/
def Claims.HeldIssues : Prop :=
  ∀ r ∈ accumKinds, ∀ (s : State) (k : TplIssue) (e : Word64), let i := r.2.1 k
    let m := reached s .C i
    s.task.hold = some (k, e) → s.core.run = .running → canIssue s .C = true →
    (s.pkg.time.toNat < e.toNat → exec .stampedMatrixIssue s = .next s) ∧
    (s.pkg.time = e → readyOn s .C i = true → k.tpl.kind.toNat = r.1 → r.2.2 k.tpl = true → k.tpl.stampmode = 1 → hasKm k.tpl = false →
      hasRemote k.tpl = false → operandFault m k.tpl = none → stampReady m k.tpl = true →
      ∃ t c, exec .stampedMatrixIssue s = .next t ∧ t.task.mats = s.task.mats ++ [c] ∧ c.issue = k ∧ c.stamped = true ∧ c.eff = e ∧
        c.done = 0 ∧ t.task.hold = none ∧ (t.seq .C).issueCnt = (s.seq .C).issueCnt + 1 ∧ t.mem = s.mem)

/-- What a finished classification leaves: its instruction's results the entry of LIVE, PARTIAL and NT for its place, and the four counts. -/
def mkevEnds (s : State) (j : MkevJob) (live part : BitVec 512) (e p f : Nat) : Prop :=
  ∃ t, exec .mkevRetire s = .next t ∧ t.task.mkevs = [] ∧ t.task.q = s.task.q ∧ t.task.acct = s.task.acct ∧
    (t.seq j.origin.q).pend = (s.seq j.origin.q).pend.map (fun x => if x.op = some j.id then
      { x with op := none
               writes := [.fill j.qn j.place (BitVec.ofNat 2048 (live.toNat + 2 ^ 512 * part.toNat + 2 ^ 1024 * mkevTiles j.desc.toNat)),
                 .acct 0 (mkevTiles j.desc.toNat), .acct 1 e, .acct 2 p, .acct 3 f] } else x)

/-- The task stops while the classification runs, with a cause at an address: nothing is pushed and nothing counted. -/
def mkevStops (s : State) (cause : BitVec 8) (addr : Word64) : Prop :=
  ∃ t, exec .mkevRetire s = .next t ∧ t.core.run = .stopped ∧ t.task.faults.cause.extractLsb 7 0 = cause ∧ t.task.faults.addr = addr ∧
    t.task.acct = s.task.acct ∧ t.task.q = s.task.q

/-- R140, R146 to R148, R158, R304 and R305: the mask unit classes the last tile of its list by its reference, its summary and R147, and hands
MKEV its entry and its counts; a reference or a summary that it refuses stops the task with ATTN_ERROR, nothing pushed and nothing counted. -/
def Claims.ClassificationEnds : Prop :=
  ∀ (s s1 s2 : State) (j : MkevJob) (v ref : Nat), let d := j.desc.toNat
    let ra := (mkevList d).2 + 16 * j.tiles
    let addr := faddr (mkevList d).1 (BitVec.ofNat 64 ra)
    s.task.mkevs = [j] → taskLive s = true → j.stopped = false → j.tiles + 1 = mkevTiles d →
    readSpan .engine (mkevTags d).1 2 s (mkevTags d).2 512 = .ok s1 v → readSpan .engine (mkevList d).1 2 s1 ra 16 = .ok s2 ref →
    let idle := ∀ q, ∀ x ∈ (s.seq q).pend, x.writes = []
    (ref = 0 → mkevEnds s j j.live j.part (j.counts.1 + 1) j.counts.2.1 j.counts.2.2) ∧
    (bitsOf ref 40 24 ≠ 0 ∨ bitsOf ref 104 24 ≠ 0 ∨ (bitsOf ref 0 40 = 0 ∧ bitsOf ref 64 40 ≠ 0) ∨ (bitsOf ref 0 40 ≠ 0 ∧ bitsOf ref 64 40 = 0) →
      idle → mkevStops s 0x19#8 addr) ∧
    (∀ (b sh w : Nat) (s3 : State), 0 < b → b < 2 ^ 40 → 0 < sh → sh < 2 ^ 40 → ref = b + 2 ^ 64 * sh →
      readSpan .engine 2 2 s2 (sh * 2 ^ 16 + 0x9400) 64 = .ok s3 w →
      (summaryOf w = none → idle → mkevStops s 0x19#8 (faddr 2 (BitVec.ofNat 64 (sh * 2 ^ 16 + 0x9400)))) ∧
      ∀ sm, summaryOf w = some sm →
        (classTile (some j.prog) (wordsOf v 64) sm = .empty → mkevEnds s j j.live j.part (j.counts.1 + 1) j.counts.2.1 j.counts.2.2) ∧
        (classTile (some j.prog) (wordsOf v 64) sm = .partly →
          mkevEnds s j (j.live ||| 1#512 <<< j.tiles) (j.part ||| 1#512 <<< j.tiles) j.counts.1 (j.counts.2.1 + 1) j.counts.2.2) ∧
        (classTile (some j.prog) (wordsOf v 64) sm = .full →
          mkevEnds s j (j.live ||| 1#512 <<< j.tiles) j.part j.counts.1 j.counts.2.1 (j.counts.2.2 + 1)))

/-- A running task's only request, as the slice units see its state: without the core's translations (R397). -/
def onlyRequest (s v : State) (a : AttReq) : Prop :=
  s.task.atts = [a] ∧ engineLive s = true ∧ a.stop = none ∧ v = { s with core := { s.core with tlb := [] } }

/-- R161, R162 and R163: a page that is present is consumed with its leaf triples; a hole, a dropped or an EMPTY page is skipped; a page that
is not present leaves the request waiting, the firmware or the tier engine asked for it once, and nobody for one that a migration brings; at
the deadline it is dropped, or fails the request with ATTN_ERROR, or is replaced by its shadow where that is present, as FB says.
The corners of absent operands and shadows are the model's reading (log 36). -/
def Claims.PagesConsumed : Prop :=
  ∀ (s v : State) (a : AttReq) (i : Nat), onlyRequest s v a → pageOpen a i = true →
    (∀ u l, pageFate (.request a.origin.q) v a i = .leaf u l → ∃ t, exec (.attqPageConsume a.id i) s = .next t ∧
      t.task.atts = [{ a with leaves := a.leaves ++ [(i, l)], consumed := a.consumed ++ [i] }] ∧ t.mem = u.mem ∧ t.task.seqs = s.task.seqs) ∧
    (∀ u, pageFate (.request a.origin.q) v a i = .skip u → ∃ t, exec (.attqPageConsume a.id i) s = .next t ∧
      t.task.atts = [{ a with skipped := a.skipped ++ [i] }] ∧ t.mem = u.mem ∧ t.task.seqs = s.task.seqs) ∧
    (∀ sh k x, pageFate (.request a.origin.q) v a i = .absent sh k .firmware x → k ∉ a.asked → ∃ t, exec (.attqPageConsume a.id i) s = .next t ∧
      t.task.atts = [a.ask k] ∧ t.mem = s.mem ∧ t.task.seqs = s.task.seqs ∧ t.pkg.tiers = s.pkg.tiers) ∧
    (∀ sh k f x, pageFate (.request a.origin.q) v a i = .absent sh k (.tier f) x → 4096 + k ∉ a.asked → ∃ t, exec (.attqPageConsume a.id i) s = .next t ∧
      t.task.atts = [a.ask (4096 + k)] ∧ t.mem = s.mem ∧ t.task.seqs = s.task.seqs ∧ t.pkg.tiers = (wantPage s f).pkg.tiers) ∧
    (∀ sh k who x, pageFate (.request a.origin.q) v a i = .absent sh k who x → who = .nobody ∨ (who = .firmware ∧ k ∈ a.asked) ∨
      (∃ f, who = .tier f ∧ 4096 + k ∈ a.asked) → exec (.attqPageConsume a.id i) s = .next s) ∧
    (∀ sh k who x, pageFate (.request a.origin.q) v a i = .absent sh k who x → attPages a.desc.toNat = 1 → attDeadline a.desc.toNat ≠ 0 →
      a.deadline.toNat ≤ s.pkg.time.toNat →
      (attFb a.desc.toNat = 1 → ∃ t, exec (.attqDeadline a.id) s = .next t ∧ t.task.atts = [{ a with dropped := a.dropped ++ [i] }] ∧
        t.mem = s.mem) ∧
      (attFb a.desc.toNat = 0 → sh = none → ∃ t, exec (.attqDeadline a.id) s = .next t ∧
        t.task.atts = [{ a with dropped := a.dropped ++ [i] }] ∧ t.mem = s.mem) ∧
      (∀ sk leaf cls u l, attFb a.desc.toNat = 0 → sh = some (sk, leaf, cls) → shadowFate (.request a.origin.q) v a sk leaf cls x = .leaf u l →
        ∃ t, exec (.attqDeadline a.id) s = .next t ∧
          t.task.atts = [{ a with leaves := a.leaves ++ [(i, l)], shadowed := a.shadowed ++ [i] }] ∧ t.mem = u.mem) ∧
      (attFb a.desc.toNat = 2 → ∃ t b r, exec (.attqDeadline a.id) s = .next t ∧ t.task.atts = [b] ∧ b = { a with stop := some r } ∧
        r.cause.extractLsb 7 0 = 0x19#8 ∧ r.addr = x ∧ t.mem = s.mem)) ∧
    (s.pkg.time.toNat < a.deadline.toNat → exec (.attqDeadline a.id) s = .next s)

/-- R89 and R318: bytes that a request writes within one page stand there, but where a late write that no order puts before the request keeps
its own, and no other byte changes.
Which late writes may keep a byte is the model's choice (log 2). -/
def Claims.RequestWrites : Prop :=
  ∀ (r : Reach) (a : AttReq) (sp : BitVec 2) (k : Nat) (s s1 : State) (addr n v key : Nat) (leaf : Word64), n ≤ chunkTo sp addr →
    reachPlace r s sp addr true = (s1, .key key leaf) → Safety.memOk s1 → isYard key = false → noRoute s1 key = false →
    ∃ t, writeSpan r a sp (k + 1) s addr n v = .ok t 0 ∧ (∀ x, x < key ∨ key + n ≤ x → memGet t.mem x = memGet s1.mem x) ∧
      ∀ u < n, (∀ o ∈ s1.lateOn a.origin.q 4 key n, ¬ covers o (key + u)) → memGet t.mem (key + u) = BitVec.ofNat 8 (v / 2 ^ (8 * u))

/-- R160, R161, R163, R164 and R318: the results of a request: for each row o, w, m and s of its root at their offsets, o as the quotients, and
the bitmaps of the pages replaced and dropped; the root of one page is its leaf triple, of two pages their merge, and a page without a leaf
counts as the identity. -/
def Claims.RequestResults : Prop :=
  ∀ (a : AttReq), let n := a.desc.toNat
    (resultWrites a).length = 4 * attRows n + 2 ∧
    (∀ (r : Nat) (m z : Nat) (w : List Nat), r < attRows n → rootOf a r = m :: z :: w → w.length = attDim n → (∀ x ∈ w, x < 2 ^ 32) →
      ((0x1000 * r + 0x800, 4, m) ∈ resultWrites a ∧ (0x1000 * r + 0x804, 4, z) ∈ resultWrites a) ∧
      ∃ o p, (0x1000 * r, 4 * attDim n, o) ∈ resultWrites a ∧ (0x1000 * r + 0x400, 4 * attDim n, p) ∈ resultWrites a ∧
        ∀ i < attDim n, bitsOf p (32 * i) 32 = w.getD i 0 ∧ bitsOf o (32 * i) 32 = divF32 (w.getD i 0) z % 2 ^ 32) ∧
    (∃ x y : BitVec 512, (0x8000, 64, x.toNat) ∈ resultWrites a ∧ (0x8040, 64, y.toNat) ∈ resultWrites a ∧
      ∀ i < 512, x.getLsbD i = a.shadowed.contains i ∧ y.getLsbD i = a.dropped.contains i) ∧
    (∀ (r : Nat) (l : List (List Nat)), a.leaves = [(0, l)] →
      (attPages n = 1 → r < l.length → rootOf a r = l.getD r []) ∧
      (attPages n = 2 → r < l.length → rootOf a r = mergeTriple (l.getD r []) (0xFF800000 :: List.replicate (attDim n + 1) 0))) ∧
    ∀ (r : Nat) (l k : List (List Nat)), a.leaves = [(0, l), (1, k)] → attPages n = 2 → r < l.length → r < k.length →
      rootOf a r = mergeTriple (l.getD r []) (k.getD r [])

/-- R158, R164, R317 and R318: a request with no page left writes its results, and it or one that has failed, which writes none, writes its
status at word 7 of its descriptor, fills its E slot and its entry and adds its counts; degraded only where a page was replaced or dropped.
That a failed request still counts its pages is the model's reading (log 36). -/
def Claims.RequestsComplete : Prop :=
  ∀ (s : State) (a : AttReq), s.task.atts = [a] → engineLive s = true → (s.seq a.origin.q).wait = none →
    let v : State := { s with core := { s.core with tlb := [] } }
    let sp : BitVec 2 := a.obj.extractLsb 57 56
    let addr := (a.obj.extractLsb 55 0).toNat + 56
    let counts := a.consumed.length * 2 ^ 16 + a.shadowed.length * 2 ^ 26 + a.dropped.length * 2 ^ 36 + a.skipped.length * 2 ^ 46
    let ends := fun (u w : State) (status : Word64) (st : ReqState) (r : Option FaultRec) => ∃ t, exec (.attqComplete a.id) s = .next t ∧ t.task.atts = [] ∧
      (t.seq a.origin.q).e = fillSlot (s.seq a.origin.q).e a.eslot r.isNone r ∧
      ((t.seq a.origin.q).reqs.get a.idx).state = st ∧ ((t.seq a.origin.q).reqs.get a.idx).status = status ∧
      t.task.acct.get 10 = s.task.acct.get 10 + BitVec.ofNat 64 a.consumed.length ∧
      t.task.acct.get 11 = s.task.acct.get 11 + BitVec.ofNat 64 a.skipped.length ∧
      t.task.acct.get 12 = s.task.acct.get 12 + BitVec.ofNat 64 a.shadowed.length ∧
      t.task.acct.get 13 = s.task.acct.get 13 + BitVec.ofNat 64 a.dropped.length ∧
      t.task.acct.get 14 = s.task.acct.get 14 + (if r.isNone then BitVec.ofNat 64 (noKeyRows a) else 0) ∧
      t.task.acct.get 15 = s.task.acct.get 15 + (if r.isNone ∧ ¬ (a.shadowed = [] ∧ a.dropped = []) then 1 else 0) ∧
      (∀ n < 10, t.task.acct.get (BitVec.ofNat 4 n) = s.task.acct.get (BitVec.ofNat 4 n)) ∧ t.mem = w.mem ∧
      ∀ (key : Nat) (leaf : Word64) (w1 : State), reachPlace (.request a.origin.q) u sp addr true = (w1, .key key leaf) → Safety.memOk w1 →
        8 ≤ chunkTo sp addr → isYard key = false → noRoute w1 key = false → w1.lateOn a.origin.q 4 key 8 = [] →
        memRead t.mem key 8 = status.toNat ∧ ∀ x, x < key ∨ key + 8 ≤ x → memGet t.mem x = memGet w1.mem x
    (∀ u x w y, let status := BitVec.ofNat 64 (1 + (if a.shadowed = [] ∧ a.dropped = [] then 0 else 4) + counts)
      a.stop = none → (∀ i < attPages a.desc.toNat, pageOpen a i = false) →
      writeAll (.request a.origin.q) a (attSp a.desc.toNat 6) (attAddr a.desc.toNat 6) v (resultWrites a) = .ok u x →
      writeSpan (.request a.origin.q) a sp 1 u addr 8 status.toNat = .ok w y → ends u w status .completed none) ∧
    (∀ r w y, let status := BitVec.ofNat 64 (3 + r.cause.toNat % 2 ^ 8 * 2 ^ 8 + counts)
      a.stop = some r → writeSpan (.request a.origin.q) a sp 1 v addr 8 status.toNat = .ok w y → ends v w status .failed (some r)) ∧
    (a.stop = none → (∃ i < attPages a.desc.toNat, pageOpen a i = true) → exec (.attqComplete a.id) s = .next s)

/-- R397, R398 and R401: a walk of this core's task that ends in a usable leaf is held in its translation cache, any other is not; a
shootdown drops the translations of its world that meet its range, of the address space it names or of all, and no other.
That the newest entry stands first, the oldest leaves, and a fill is a step of its own is the model's choice (log 12). -/
def Obligations.TranslationsKept : Prop :=
  (∀ (s : State) (va : BitVec 56) (e : Word64) (level pte : Nat), let i := s.task.ident
    s.core.run ≠ .idle → tlbFind s i.world (spaceOf i.die i.queue) va.toNat = none →
    walkFrom s va.toNat (ptRoot s i.die i.queue) walkLevels = .leaf e level pte →
    leafCheck e (levelLog level) i.world false = none →
    ∃ t n, exec (.translationWalkComplete i.die i.queue va) s = .next t ∧ t.core.tlb = (n :: s.core.tlb).take 256 ∧ n.leaf = e ∧
      n.world = i.world ∧ n.logSize = levelLog level ∧ n.va = va.toNat / 2 ^ levelLog level * 2 ^ levelLog level ∧
      n.space = (if e.getLsbD 4 then none else some (i.die ++ i.queue)) ∧ t.mem = s.mem ∧ t.task = s.task) ∧
  (∀ (s : State) (va : BitVec 56) (c : BitVec 8), let i := s.task.ident
    s.core.run ≠ .idle → tlbFind s i.world (spaceOf i.die i.queue) va.toNat = none →
    walkFrom s va.toNat (ptRoot s i.die i.queue) walkLevels = .fail c → exec (.translationWalkComplete i.die i.queue va) s = .next s) ∧
  (∀ (s : State) (x : Shootdown) (rest : List Shootdown), s.pkg.shootdowns = x :: rest →
    ∃ t, exec .shootdownComplete s = .next t ∧ t.pkg.shootdowns = rest ∧ t.mem = s.mem ∧ t.task = s.task ∧
      ∀ e, e ∈ t.core.tlb ↔ e ∈ s.core.tlb ∧
        ¬ (e.world = x.world ∧ e.va < x.hi ∧ x.lo < e.va + 2 ^ e.logSize ∧ (x.space = none ∨ e.space = x.space)))

/-- The registers of a die's tier engine. -/
def tierOf (s : State) (d : BitVec 2) : TierEngine := s.pkg.tiers.get d

/-- R8 and R408: a write of TIERCTL or TIERTHR takes its writable bits where the policy it leaves is legal; else both registers keep their
values and REJECT is set, until a write of one to bit 0 of TIERSTAT clears it. The ways in effect are those of HOTWAYS, or those before a write
that released some, while a slice has more HOT pages than the ways left hold or a released one a line of one.
When the ways released by a lower HOTWAYS are free again is the model's reading of R408 (log 59). -/
def Claims.TierRegisters : Prop :=
  (∀ (s : State) (d : BitVec 2) (reg : TierReg) (v : Word64),
    let c := if reg = .ctl then v &&& 0xFFFFFFFF00FFFF03 else (tierOf s d).ctl
    let t := if reg = .thr then v else (tierOf s d).thr
    let legal := (t.extractLsb 15 0).toNat < (t.extractLsb 31 16).toNat ∧
      (c.getLsbD 1 = true → (t.extractLsb 47 32).toNat < (t.extractLsb 63 48).toNat) ∧ 1 ≤ (c.extractLsb 23 16).toNat ∧
      (c.extractLsb 23 16).toNat ≤ 64 ∧ (c.extractLsb 15 12).toNat ≤ 12 ∧ 25000 ≤ (c.extractLsb 63 32).toNat
    ∃ u, exec (.tierctlWrite d reg v) s = .next u ∧ u.core = s.core ∧ u.mem = s.mem ∧
      (legal → tierOf u d = { tierOf s d with ctl := c, thr := t, ways := waysHeld s d }) ∧
      (¬ legal → tierOf u d = { tierOf s d with reject := true }) ∧ ∀ x, x ≠ d → tierOf u x = tierOf s x) ∧
  (∀ (s : State) (d : BitVec 2) (v : Word64), ∃ u, exec (.tierstatRejectClear d v) s = .next u ∧ u.core = s.core ∧ u.mem = s.mem ∧
    tierOf u d = (if v.getLsbD 0 then { tierOf s d with reject := false } else tierOf s d)) ∧
  (∀ (s : State) (d : BitVec 2), let e := tierOf s d
    let c := (e.ctl.extractLsb 15 12).toNat
    let tooMany := (∃ n < 64, 2 * c < (hotIn e n).length) ∨ ∃ l ∈ s.pkg.l2, l.hot = true ∧ l.line / 2 ^ 33 = d.toNat ∧ c ≤ l.way
    (tooMany → waysHeld s d = Nat.max c e.ways) ∧ (¬ tooMany → waysHeld s d = c))

/-- Its heat after an evaluation's decay (R409). -/
def decayed (s : State) (d : BitVec 2) (p : TierPage) : BitVec 16 :=
  let k := (tierOf s d).ctl.extractLsb 11 8
  if k = 0 then p.heat else p.heat - (p.heat >>> k.toNat)

/-- R66 and R409: at an evaluation that is due every heat decays, only pages neither pinned nor moving, of a LIVE world, are set moving, hottest
first, no more than MIGMAX at a time; a WARM page at PROMOTE or above moves towards HOT while its slice has a
way, a HOT one below DEMOTE towards WARM; a finished migration switches over, an aborted one, or one whose page has failing bytes (R436),
leaves its page where it was; a page that changes its frame takes its bytes with it, and its old translations are dropped and shot down.
That migrations switch over in the order in which they began is the model's choice (log 11). -/
def Claims.PagesMigrate : Prop :=
  (∀ (s : State) (d : BitVec 2) (p : TierPage), let e := tierOf s d
    e.pages = [p] → e.ctl.getLsbD 0 = true → (e.ctl.extractLsb 63 32).toNat ≤ (s.pkg.time - e.evaluated).toNat → (e.ctl.extractLsb 23 16) ≠ 0 →
    (e.ctl.extractLsb 15 12) ≠ 0 → keyOf s (p.frame * 2 ^ 16) ∉ pinnedFrames s → (s.pkg.security.worlds.get p.world).state = .live →
    (p.state = .warm → p.tier = 1 → (e.thr.extractLsb 31 16).toNat ≤ (decayed s d p).toNat →
      ∃ t, exec (.tierEvaluation d) s = .next t ∧ (tierOf t d).evaluated = s.pkg.time ∧ t.mem = s.mem ∧ t.core = s.core ∧
        (tierOf t d).pages = [{ p with heat := decayed s d p, state := .moving, source := .warm, target := .hot, toFrame := p.frame,
                                       aborted := false, wanted := false }]) ∧
    (p.state = .hot → p.tier ≠ 2 → (decayed s d p).toNat < (e.thr.extractLsb 15 0).toNat →
      ∃ t, exec (.tierEvaluation d) s = .next t ∧ (tierOf t d).evaluated = s.pkg.time ∧ t.mem = s.mem ∧ t.core = s.core ∧
        (tierOf t d).pages = [{ p with heat := decayed s d p, state := .moving, source := .hot, target := .warm, toFrame := p.frame,
                                       aborted := false, wanted := false }])) ∧
  (∀ (s : State) (d : BitVec 2), let e := tierOf s d
    e.ctl.getLsbD 0 = true → (e.ctl.extractLsb 63 32).toNat ≤ (s.pkg.time - e.evaluated).toNat → (∀ p ∈ e.pages, p.state = .cold → p.wanted = false) →
    (e.pages.map TierPage.frame).Nodup → (∀ p ∈ e.pages, p.frame < 2 ^ 40) →
    ∃ t, exec (.tierEvaluation d) s = .next t ∧ (tierOf t d).evaluated = s.pkg.time ∧ t.mem = s.mem ∧ t.core = s.core ∧
      (tierOf t d).pages.length = e.pages.length ∧ migrating (tierOf t d) ≤ Nat.max (migrating e) (e.ctl.extractLsb 23 16).toNat ∧
      ∀ (n : Nat) (p : TierPage), e.pages[n]? = some p → ∃ q, (tierOf t d).pages[n]? = some q ∧ q.heat = decayed s d p ∧ q.frame = p.frame ∧
        q.pte = p.pte ∧ q.world = p.world ∧ q.tier = p.tier ∧
        (q.state ≠ p.state → q.state = .moving ∧ q.source = p.state ∧ keyOf s (p.frame * 2 ^ 16) ∉ pinnedFrames s ∧
          (s.pkg.security.worlds.get p.world).state = .live) ∧
        (p.state = .hot → p.tier ≠ 2 → (decayed s d p).toNat < (e.thr.extractLsb 15 0).toNat → keyOf s (p.frame * 2 ^ 16) ∉ pinnedFrames s →
          (s.pkg.security.worlds.get p.world).state = .live → migrating e < (e.ctl.extractLsb 23 16).toNat →
          (∀ x ∈ e.pages, x.state ≠ .moving → x ≠ p → (decayed s d x).toNat < (decayed s d p).toNat ∨
            (decayed s d x = decayed s d p ∧ p.frame < x.frame)) →
          q.state = .moving ∧ q.target = .warm)) ∧
  (∀ (s : State) (d : BitVec 2) (p : TierPage) (rest : List TierPage), (tierOf s d).pages = p :: rest → p.state = .moving →
    (p.aborted = true → ∃ t q, exec (.migrationSwitchOver d) s = .next t ∧ (tierOf t d).pages = q :: rest ∧ q.state = p.source ∧
      q.frame = p.frame ∧ (tierOf t d).aborts = (tierOf s d).aborts + 1 ∧ t.mem = s.mem) ∧
    (p.aborted = false → (readFails s (keyOf s (p.frame * 2 ^ 16)) (2 ^ 16)).isSome = true → ∃ t q, exec (.migrationSwitchOver d) s = .next t ∧
      (tierOf t d).pages = q :: rest ∧ q.state = p.source ∧ q.frame = p.frame ∧ (tierOf t d).doneCnt = (tierOf s d).doneCnt ∧ t.mem = s.mem) ∧
    (p.aborted = false → readFails s (keyOf s (p.frame * 2 ^ 16)) (2 ^ 16) = none → p.toFrame = p.frame → ∃ t q, exec (.migrationSwitchOver d) s = .next t ∧ (tierOf t d).pages = q :: rest ∧
      q.state = p.target ∧ q.frame = p.frame ∧ (tierOf t d).doneCnt = (tierOf s d).doneCnt + 1 ∧ t.mem = s.mem) ∧
    (let ks := keyOf s (p.frame * 2 ^ 16); let kd := keyOf s (p.toFrame * 2 ^ 16); let out := fun (k : Nat) => k < kd ∨ kd + 2 ^ 16 ≤ k
      p.aborted = false → readFails s ks (2 ^ 16) = none → p.toFrame ≠ p.frame → Safety.memOk s → (∀ u < 8, out (p.pte + u)) →
      (∀ f, (f = p.frame ∨ f = p.toFrame) → ∀ u < 4, out (frameEntry (f * 2 ^ 16 / 2 ^ 40) (f * 2 ^ 16 % 2 ^ 40 / 2 ^ 16) + u)) →
      ∃ t q, exec (.migrationSwitchOver d) s = .next t ∧ (tierOf t d).pages = q :: rest ∧ q.state = p.target ∧ q.frame = p.toFrame ∧
        (∀ u < 2 ^ 16, memGet t.mem (kd + u) = memGet s.mem (ks + u)) ∧
        (∀ x ∈ t.core.tlb, x ∈ s.core.tlb ∧ leafFrame x.leaf ≠ p.frame * 2 ^ 16) ∧
        ∃ x, t.pkg.shootdowns = s.pkg.shootdowns ++ [x] ∧ x.world = p.world ∧ x.space = none ∧ x.lo = 0 ∧ x.hi = 2 ^ 56))

/-! ## The security core: frames, mappings, handles, worlds and power states -/

/-- Operand word `i` of a security command (R422). -/
def operand (c : SecCmd) (i : BitVec 4) : Nat := (c.w.get i).toNat

/-- The world that a command names (R423). -/
def worldArg (c : SecCmd) : BitVec 6 := BitVec.ofNat 6 (operand c 2)

/-- A command that its lane may run at once: the security core runs, nothing is before it on its lane, its operands are legal (R422, R423),
and it names no completion signal. -/
def laneFree (s : State) (op : BitVec 8) (c : SecCmd) : Prop :=
  secUp s = true ∧ laneHead s (cmdLane op c) = none ∧ badCmd op c = false ∧ c.csig = 0 ∧ Safety.memOk s

/-- The command has completed (R422): DONE with STATUS and REASON in word 16 of its slot, the results in the words after, and its lane as
free as before it. -/
def answered (s : State) (i : Instr) (c : SecCmd) (t : State) (status reason : Nat) (results : List Word64) : Prop :=
  exec i s = .next t ∧ memRead t.mem (0x1000 + 0x100 * (c.k % 256) + 128) 8 = 1 + status * 2 ^ 8 + reason * 2 ^ 16 ∧
    (∀ (n : Nat) (v : Word64), results[n]? = some v → memRead t.mem (0x1000 + 0x100 * (c.k % 256) + 136 + 8 * n) 8 = v.toNat) ∧
    t.pkg.security.queue = s.pkg.security.queue

/-- R422 and R423: a known command of a valid slot whose SEQ fits is accepted, ACCIDX going on by one, into its lane; an unknown one is
answered BADCMD; a slot that does not fit is not accepted.
That an unknown OP is answered at acceptance is the model's reading (log 45). -/
def Claims.CommandsAccepted : Prop :=
  ∀ (s : State), let k := memRead s.mem 0x40 8
    let slot := 0x1000 + 0x100 * (k % 256)
    let w0 := memRead s.mem slot 8
    let op := BitVec.ofNat 8 (w0 / 2 ^ 8)
    secUp s = true → Safety.memOk s →
    (w0 % 2 = 1 → w0 / 2 ^ 32 = k % 2 ^ 32 → opKnown op = true →
      ∃ t x, exec .secCommandAccept s = .next t ∧ t.pkg.security.queue = s.pkg.security.queue ++ [x] ∧ x.op = op ∧ x.cmd.k = k ∧ x.phase = 0 ∧
        (∀ i : BitVec 4, x.cmd.w.get i = BitVec.ofNat 64 (memRead s.mem (slot + 8 * i.toNat) 8)) ∧
        x.lane = (if op.toNat < 0x10 then 0 else 1 + ((x.cmd.w.get 3).extractLsb 38 37).toNat) ∧
        memRead t.mem 0x40 8 = (k + 1) % 2 ^ 64 ∧ ∀ b, b < 0x40 ∨ 0x48 ≤ b → memGet t.mem b = memGet s.mem b) ∧
    (w0 % 2 = 1 → w0 / 2 ^ 32 = k % 2 ^ 32 → opKnown op = false → memRead s.mem (slot + 8) 8 % 2 ^ 52 = 0 →
      ∃ t, exec .secCommandAccept s = .next t ∧ t.pkg.security.queue = s.pkg.security.queue ∧ memRead t.mem 0x40 8 = (k + 1) % 2 ^ 64 ∧
        memRead t.mem (slot + 128) 8 = 1 + 3 * 2 ^ 8) ∧
    (w0 % 2 = 0 ∨ w0 / 2 ^ 32 ≠ k % 2 ^ 32 → exec .secCommandAccept s = .next s)

/-- R424: FASSIGN of free frames outside the reserve zeroes them and gives them to the world with their KIND; FRELEASE of the world's
frames that nothing holds zeroes and frees them, and of a frame that is still mapped answers BUSY, nothing changed.
The reasons of BUSY are the model's reading (log 45). -/
def Claims.FramesOwned : Prop :=
  (∀ (s : State) (c : SecCmd), let kind := operand c 2 / 2 ^ 8 % 8
    let pa := fun (n : Nat) => operand c 3 + n * 2 ^ 16
    laneFree s 0x01 c → (∀ n < operand c 4, isLpddr (pa n) = true ∧ 2 ^ 30 ≤ pa n ∧ (frameKind s (pa n)).1 = 0) →
    ((s.pkg.security.worlds.get (worldArg c)).state = .live ∨ kind = 2 →
      ∃ t, answered s (.fassign c) c t 0 0 [] ∧ ∀ n < operand c 4, frameKind t (pa n) = (kind, (worldArg c).toNat) ∧ frameMaps t (pa n) = 0 ∧
        ∀ b < 2 ^ 16, memGet t.mem (pa n + b) = 0) ∧
    ((s.pkg.security.worlds.get (worldArg c)).state ≠ .live → kind ≠ 2 → ∃ t, answered s (.fassign c) c t 2 1 [] ∧
      t.pkg.security.worlds = s.pkg.security.worlds)) ∧
  (∀ (s : State) (c : SecCmd), let pa := fun (n : Nat) => operand c 3 + n * 2 ^ 16
    laneFree s 0x02 c → operand c 4 ≤ 25165824 → (∀ n < operand c 4, isLpddr (pa n) = true ∧ (frameKind s (pa n)).2 = (worldArg c).toNat ∧
      1 ≤ (frameKind s (pa n)).1 ∧ (frameKind s (pa n)).1 ≤ 3) →
    ((∀ n < operand c 4, frameMaps s (pa n) = 0) → imageFrames s = [] → s.pkg.security.queue = [] →
      ∃ t, answered s (.frelease c) c t 0 0 [] ∧ ∀ n < operand c 4, frameKind t (pa n) = (0, 0) ∧ ∀ b < 2 ^ 16, memGet t.mem (pa n + b) = 0) ∧
    ((∃ n < operand c 4, frameMaps s (pa n) ≠ 0) → ∃ t, answered s (.frelease c) c t 1 2 [] ∧
      ∀ b, 2 ^ 30 ≤ b → memGet t.mem b = memGet s.mem b))

/-- The address space that a MAPSET names: the queue entry in the table in memory, its world and PTROOT (R373, R425). -/
def mapRoot (s : State) (c : SecCmd) : Nat × Nat :=
  let e := memRead s.mem ((s.pkg.yards.get (BitVec.ofNat 2 (operand c 2 / 2 ^ 8))).qtBase.toNat + 64 * (operand c 2 / 2 ^ 16 % 2 ^ 10)) 64
  (e / 2 ^ 128 % 2 ^ 6, e / 2 ^ 64 % 2 ^ 52)

/-- An entry is a valid leaf that names the frame at a PA, `lo` being the first bit of its level's index (R394, R395). -/
def leafHas (e : Word64) (lo pa : Nat) : Prop :=
  e.getLsbD 0 = true ∧ e.getLsbD 1 = true ∧ ∃ k < 2 ^ (lo - 16), pa = (e.extractLsb 51 14).toNat * 2 ^ 14 + k * 2 ^ 16

/-- A frame that a leaf of a world may name (R425, check 5): a data frame of the world, or the NOTIFYn page of a queue of the world. -/
def mayName (s : State) (w : BitVec 6) (pa : Nat) : Prop :=
  (notifyOf pa = none ∧ isLpddr pa = true ∧ frameKind s pa = (1, w.toNat)) ∨
    ∃ d n, notifyOf pa = some (d, n) ∧ memRead s.mem ((s.pkg.yards.get d).qtBase.toNat + 64 * n.toNat) 64 / 2 ^ 128 % 2 ^ 6 = w.toNat

/-- R395, R401 and R425: a MAPSET that passes its checks writes its entry: where the old one was not valid it completes, with the old entry as
result and MAPS one higher for each frame of a new leaf; where it was, a shootdown of the world over the entry's range is started first, and MAPS
is adjusted once that is complete, one higher for a frame of the new leaf alone and one lower for one of the old alone. What each check refuses
is answered with its number, the tables unchanged; an address space of another world is refused.
The reading of R425 is the model's where the rule names no detail (log 45). -/
def Claims.MappingsSet : Prop :=
  ∀ (s : State) (c : SecCmd) (tab : Nat), let w := worldArg c
    let level := operand c 2 / 2 ^ 32 % 4
    let va := operand c 3
    let new := c.w.get 4
    let lo := if level = 0 then 43 else if level = 1 then 30 else if level = 2 then 21 else 16
    let pte := tab + 8 * (va / 2 ^ lo % 2 ^ (if level = 0 then 13 else if level = 1 then 13 else if level = 2 then 9 else 5))
    let old := BitVec.ofNat 64 (memRead s.mem pte 8)
    let written := fun (t : State) => answered s (.mapset c) c t 0 0 [old] ∧ memRead t.mem pte 8 = new.toNat
    let refusedBy := fun (n : Nat) => ∃ t, answered s (.mapset c) c t 2 n [] ∧ memRead t.mem pte 8 = old.toNat
    let shot := ∃ t x y, exec (.mapset c) s = .next t ∧ memRead t.mem pte 8 = new.toNat ∧
      t.pkg.shootdowns = s.pkg.shootdowns ++ [x] ∧ x.world = w ∧ x.lo = va / 2 ^ lo * 2 ^ lo ∧ x.hi = x.lo + 2 ^ lo ∧
      laneHead t 0 = some y ∧ y.cmd = c ∧ y.phase = 1 ∧ y.saved = old
    s.pkg.images = [] → (laneFree s 0x03 c →
    ((mapRoot s c).1 = w.toNat → frameKind s (mapRoot s c).2 = (2, w.toNat) → tableAt s w.toNat va level walkLevels (mapRoot s c).2 = some tab →
      2 ^ 30 ≤ pte →
      (new.getLsbD 0 = false →
        (old.getLsbD 0 = false → ∃ t, written t ∧ t.pkg.shootdowns = s.pkg.shootdowns) ∧ (old.getLsbD 0 = true → shot)) ∧
      (pteMalformed new level = false → new.getLsbD 0 = true → new.getLsbD 1 = false →
        (frameKind s ((new.extractLsb 51 14).toNat * 2 ^ 14) = (2, w.toNat) →
          (old.getLsbD 0 = false → ∃ t, written t ∧ ∀ pa, isLpddr pa = true → pa % 2 ^ 16 = 0 → frameMaps t pa = frameMaps s pa) ∧
          (old.getLsbD 0 = true → shot)) ∧
        (frameKind s ((new.extractLsb 51 14).toNat * 2 ^ 14) ≠ (2, w.toNat) → refusedBy 4)) ∧
      (pteMalformed new level = false → new.getLsbD 0 = true → new.getLsbD 1 = true → new.extractLsb 13 8 = w →
        (∀ pa, leafHas new lo pa → mayName s w pa) →
        ((∀ pa, leafHas new lo pa → isLpddr pa = true → frameMaps s pa < 65535) →
          (old.getLsbD 0 = false → ∃ t, written t ∧ (∀ pa, leafHas new lo pa → isLpddr pa = true → frameMaps t pa = frameMaps s pa + 1) ∧
            (∀ pa, isLpddr pa = true → pa % 2 ^ 16 = 0 → ¬ leafHas new lo pa → frameMaps t pa = frameMaps s pa) ∧
            ∀ pa, leafHas new lo pa → isLpddr pa = true → new.extractLsb 7 6 ≠ 0 →
              ∃ p ∈ (tierOf t (BitVec.ofNat 2 (pa / 2 ^ 40))).pages,
                p.frame = pa / 2 ^ 16 ∧ p.pte = pte ∧ p.tier = new.extractLsb 7 6 ∧ p.state = .warm ∧ p.heat = 0 ∧ p.world = w) ∧
          (old.getLsbD 0 = true → shot)) ∧
        ((∃ pa, leafHas new lo pa ∧ isLpddr pa = true ∧ frameMaps s pa = 65535 ∧ ¬ leafHas old lo pa) → refusedBy 6)) ∧
      (pteMalformed new level = false → new.getLsbD 0 = true → new.getLsbD 1 = true →
        (new.extractLsb 13 8 ≠ w ∨ ∃ pa, leafHas new lo pa ∧ ¬ mayName s w pa) → refusedBy 5) ∧
      (pteMalformed new level = true → new.getLsbD 0 = true → refusedBy 3)) ∧
    ((mapRoot s c).1 ≠ w.toNat → ∃ t, answered s (.mapset c) c t 2 1 [] ∧ ∀ b, 2 ^ 30 ≤ b → memGet t.mem b = memGet s.mem b)) ∧
    ∀ x, secUp s = true → Safety.memOk s → c.csig = 0 → s.pkg.security.queue = [x] → x.lane = 0 → x.op = 0x03 → x.cmd = c → x.phase = 1 →
      s.pkg.shootdowns = [] → (new.getLsbD 1 = true → 1 ≤ level) → (x.saved.getLsbD 1 = true → 1 ≤ level) →
      (∀ pa, isLpddr pa = true → leafHas x.saved lo pa → 1 ≤ frameMaps s pa) → (∀ pa, isLpddr pa = true → leafHas new lo pa →
        frameMaps s pa < 65535 ∨ leafHas x.saved lo pa) →
      ∃ t, exec (.mapset c) s = .next t ∧ t.pkg.security.queue = [] ∧ memRead t.mem (0x1000 + 0x100 * (c.k % 256) + 128) 8 = 1 ∧
        memRead t.mem (0x1000 + 0x100 * (c.k % 256) + 136) 8 = x.saved.toNat ∧
        ∀ pa, isLpddr pa = true → pa % 2 ^ 16 = 0 →
          (leafHas new lo pa → ¬ leafHas x.saved lo pa → frameMaps t pa = frameMaps s pa + 1) ∧
          (leafHas x.saved lo pa → ¬ leafHas new lo pa → frameMaps t pa = frameMaps s pa - 1) ∧
          ((leafHas new lo pa ↔ leafHas x.saved lo pa) → frameMaps t pa = frameMaps s pa)

/-- The entry of a handle of a world (R404). -/
def handleAt (s : State) (w : BitVec 6) (n : Nat) : Nat := memRead s.mem (0x1000000 + 0x100000 * w.toNat + 16 * n) 16

/-- R105, R404, R405 and R426: HCREATE takes the lowest free slot with the generation it holds, at least 1, or answers NOSPACE; HRETIRE
retires a live handle to its next generation, or quarantines its slot after the last; of a handle that is not live it is refused.
The reading of R405 and R426 is the model's where the rules name no detail (log 45). -/
def Claims.HandlesManaged : Prop :=
  (∀ (s : State) (c : SecCmd) (n : Nat), let w := worldArg c
    let gen := Nat.max 1 (handleAt s w n / 2 ^ 112)
    laneFree s 0x04 c →
    (n < 65536 → slotFree s w n = true → (∀ m < n, slotFree s w m = false) → operand c 3 % 2 ^ 16 = 0 → operand c 3 < 2 ^ 56 →
      operand c 4 % 2 ^ 16 = 0 → 0 < operand c 4 → operand c 4 < 2 ^ 40 →
      ∃ t, answered s (.hcreate c) c t 0 0 [BitVec.ofNat 64 (gen * 2 ^ 16 + n)] ∧
        handleAt t w n = operand c 3 + operand c 4 * 2 ^ 64 + operand c 5 * 2 ^ 104 + gen * 2 ^ 112 ∧
        ∀ m < 65536, m ≠ n → handleAt t w m = handleAt s w m) ∧
    ((∀ m < 65536, slotFree s w m = false) → ∃ t, answered s (.hcreate c) c t 4 1 [] ∧ ∀ m < 65536, handleAt t w m = handleAt s w m)) ∧
  (∀ (s : State) (c : SecCmd), let w := worldArg c
    let h := operand c 3
    let n := h % 2 ^ 16
    let gen := h / 2 ^ 16
    laneFree s 0x05 c →
    ((handleLive s.mem w h).isSome = true → handleHeld s w h = false →
      (gen < 0xFFFF → ∃ t, answered s (.hretire c) c t 0 0 [] ∧ handleAt t w n = (gen + 1) * 2 ^ 112 ∧
        ∀ m < 65536, m ≠ n → handleAt t w m = handleAt s w m) ∧
      (gen = 0xFFFF → ∃ t, answered s (.hretire c) c t 0 0 [] ∧ handleAt t w n = gen * 2 ^ 112 ∧
        n ∈ (t.pkg.security.worlds.get w).quarantined)) ∧
    (handleLive s.mem w h = none → ∃ t, answered s (.hretire c) c t 2 1 [] ∧ ∀ m < 65536, handleAt t w m = handleAt s w m))

/-- A record of a world (R428). -/
def recordOf (s : State) (w : BitVec 6) : World := s.pkg.security.worlds.get w

/-- R428 and R429: WSTAT gives a world's state, N, ARRIVED and EXPCNT and changes no world; WCREATE of a FREE world leaves it KEYING with
its policy and custodians, no share arrived; WDESTROY of a world without a launch leaves it FREE, its frames zeroed and free and nothing of
it cached.
What WDESTROY refuses is the model's reading where R429 names no detail (log 45). -/
def Claims.WorldsMade : Prop :=
  (∀ (s : State) (c : SecCmd), let r := recordOf s (worldArg c)
    laneFree s 0x0B c → ∃ t v, answered s (.wstat c) c t 0 0 [v] ∧ v = r.expCnt ++ r.arrived ++ 0#19 ++ r.n ++ BitVec.ofNat 8 (stateNum r.state) ∧
      t.pkg.security.worlds = s.pkg.security.worlds) ∧
  (∀ (s : State) (c : SecCmd), let w := worldArg c
    laneFree s 0x06 c →
    (w ≠ 0 → (recordOf s w).state = .free → ∃ t, answered s (.wcreate c) c t 0 0 [] ∧ (recordOf t w).state = .keying ∧
      (recordOf t w).arrived = 0 ∧ (recordOf t w).key = none ∧ (recordOf t w).n.toNat = operand c 2 / 2 ^ 8 % 2 ^ 5 ∧
      (recordOf t w).policy = (c.w.get 8) ++ (c.w.get 7) ++ (c.w.get 6) ++ (c.w.get 5) ++ (c.w.get 4) ++ (c.w.get 3) ∧
      (recordOf t w).custodians.length = operand c 2 / 2 ^ 8 % 2 ^ 5 ∧ ∀ x, x ≠ w → recordOf t x = recordOf s x) ∧
    (w = 0 → ∃ t, answered s (.wcreate c) c t 2 1 [] ∧ t.pkg.security.worlds = s.pkg.security.worlds) ∧
    (w ≠ 0 → (recordOf s w).state = .live → ∃ t, answered s (.wcreate c) c t 2 2 [] ∧ t.pkg.security.worlds = s.pkg.security.worlds)) ∧
  (∀ (s : State) (c : SecCmd), let w := worldArg c
    laneFree s 0x07 c → w ≠ 0 → (recordOf s w).state ≠ .free →
    (launchOpen s w = false →
      ∃ t, answered s (.wdestroy c) c t 0 0 [] ∧ recordOf t w = World.free ∧ (∀ e ∈ t.core.tlb, e.world ≠ w) ∧ (∀ l ∈ t.pkg.l2, l.world ≠ w) ∧
        (∀ pa ∈ worldFrames s w, frameKind t pa = (0, 0) ∧ ∀ b < 2 ^ 16, memGet t.mem (pa + b) = 0) ∧ ∀ n < 65536, handleAt t w n = 0) ∧
    (launchOpen s w = true → ∃ t, answered s (.wdestroy c) c t 2 3 [] ∧ t.pkg.security.worlds = s.pkg.security.worlds))

/-- R439, R441 and R442: KREVOKE of a LIVE world that nothing uses leaves it KEYLESS, or with DISCARD ERASED, without its key and its
cached lines; EXPORT seals it under its count, which then goes up, and leaves it EXPORTED; IMPORT of a matching checkpoint makes it KEYING, and
once its key is rebuilt LIVE, where its frames find their places (log 26).
The layout of a checkpoint and the reasons of KREVOKE are the model's choice and reading (log 10 and 45). -/
def Claims.WorldsKeyed : Prop :=
  (∀ (s : State) (c : SecCmd), let w := worldArg c
    let discard := (c.w.get 2).getLsbD 8
    laneFree s 0x08 c → w ≠ 0 → launchOpen s w = false →
    ((recordOf s w).state = .live → s.pkg.images = [] → s.pkg.security.queue = [] → migrationOpen s w = false →
      ∃ t v, answered s (.krevoke c) c t 0 0 [v] ∧ (recordOf t w).state = (if discard then .erased else .keyless) ∧ (recordOf t w).key = none ∧
        (recordOf t w).check = (if discard then none else (recordOf s w).check) ∧ (discard = true → v = 0) ∧ (∀ l ∈ t.pkg.l2, l.world ≠ w) ∧
        ∀ x, x ≠ w → recordOf t x = recordOf s x) ∧
    (s.pkg.images = [] → s.pkg.security.queue = [] → (recordOf s w).state ≠ .live → ∃ t, answered s (.krevoke c) c t 2 4 [] ∧
      t.pkg.security.worlds = s.pkg.security.worlds)) ∧
  (∀ (s : State) (c : SecCmd), let w := worldArg c
    laneFree s 0x09 c → w ≠ 0 →
    ((recordOf s w).state = .live → launchOpen s w = false →
      (∀ k : Checkpoint, k.custodians = (recordOf s w).custodians → k.maps = worldMaps s w → k.spaces = boundSpaces s w →
        k.frames = (framesByVa s w).map (fun pa => (pa, memRead s.mem (entryOf pa) 4, memWords s.mem pa 8192)) →
        checkpointFrames k ≤ (((frameList s (operand c 3) (operand c 4)).filter
          (fun pa => pa % frameBytes == 0 && isLpddr pa && frameKind s pa == (1, 0))).eraseDups).length) →
      ∃ t k v, answered s (.exportWorld c) c t 0 0 [v, ((recordOf s w).expCnt + 1).zeroExtend 64] ∧ (recordOf t w).state = .exported ∧
        (recordOf t w).expCnt = (recordOf s w).expCnt + 1 ∧ (recordOf t w).key = none ∧ k ∈ t.pkg.security.checkpoints ∧ k.world = w ∧
        k.expCnt = (recordOf s w).expCnt ∧ k.policy = (recordOf s w).policy ∧ k.n = (recordOf s w).n ∧ k.check = (recordOf s w).check ∧
        k.custodians = (recordOf s w).custodians ∧ k.maps = worldMaps s w ∧ k.spaces = boundSpaces s w ∧ v = BitVec.ofNat 64 (checkpointFrames k * 2 ^ 16) ∧
        k.frames = (framesByVa s w).map (fun pa => (pa, memRead s.mem (entryOf pa) 4, memWords s.mem pa 8192))) ∧
    ((recordOf s w).state ≠ .live → ∃ t, answered s (.exportWorld c) c t 1 1 [] ∧ t.pkg.security.worlds = s.pkg.security.worlds)) ∧
  (∀ (s : State) (c : SecCmd) (k : Checkpoint), let w := worldArg c
    laneFree s 0x0A c → w ≠ 0 → headerFound s (frameList s (operand c 3) (operand c 4)) = some k → k.world = w → k.calmed = false →
    k.expCnt = (recordOf s w).expCnt - 1 →
    (recordOf s w).state = .exported → policyMet s w = true →
    ∃ t x, exec (.importWorld c) s = .next t ∧ (recordOf t w).state = .keying ∧ (recordOf t w).arrived = 0 ∧ laneHead t 0 = some x ∧ x.cmd = c ∧
      x.phase = 1 ∧ t.mem = s.mem) ∧
  (∀ (s : State) (c : SecCmd) (x : LaneCmd) (k : Checkpoint) (root : BitVec 512), let w := worldArg c
    let l := frameList s (operand c 3) (operand c 4)
    secUp s = true → Safety.memOk s → c.csig = 0 → s.pkg.security.queue = [x] → x.lane = 0 → x.op = 0x0A → x.cmd = c → x.phase = 1 →
    (recordOf s w).key = some root → headerFound s l = some k → chunksPass s k l = true → sealKey root w k.expCnt = k.sealKey →
    (placeFrames k (((frameList s (operand c 5) (operand c 6)).filter
      (fun pa => pa % frameBytes == 0 && isLpddr pa && (frameKind s pa).1 == 0)).eraseDups)).isSome = true →
    ∃ t, exec (.importWorld c) s = .next t ∧ (recordOf t w).state = .live ∧ t.pkg.security.queue = [] ∧
      t.pkg.security.checkpoints = s.pkg.security.checkpoints ∧ (recordOf t w).expCnt = k.expCnt + 1 ∧ memRead t.mem (0x1000 + 0x100 * (c.k % 256) + 128) 8 = 1)

/-- R13, R423, R448, R449 and R457: PSTATE makes the package active, or breeze while no launch is ready or runs; sets it on its way to
lull and, with nothing left running, enters lull, the core, its caches and the scrambler keys lost; in calm only the loft's contents are left, and it is
refused while a protected world is in any state but FREE, ERASED and EXPORTED.
The details of lull and calm are the model's reading (log 46). -/
def Claims.PowerStates : Prop :=
  ∀ (s : State) (c : SecCmd), let p := operand c 2 % 4
    (laneFree s 0x0C c →
      (p = 0 → ∃ t, answered s (.pstateActive c) c t 0 0 [] ∧ t.pkg.power.state = .active ∧ t.core = s.core) ∧
      (p = 1 → (∀ l ∈ s.pkg.launches, l.state ≠ .ready ∧ l.state ≠ .running) → ∃ t, answered s (.pstateBreeze c) c t 0 0 [] ∧
        t.pkg.power.state = .breeze ∧ t.core = s.core) ∧
      (p = 2 → s.pkg.launches = [] → ∃ t x, exec (.pstateLull c) s = .next t ∧ t.pkg.power.toLull = true ∧ t.pkg.power.state = s.pkg.power.state ∧
        laneHead t 0 = some x ∧ x.cmd = c ∧ x.phase = 1 ∧ t.mem = s.mem ∧ t.core = s.core) ∧
      (p = 3 → (∀ w, 1 ≤ w → ((recordOf s w).state = .free ∨ (recordOf s w).state = .erased ∨ (recordOf s w).state = .exported)) →
        ∃ t, exec (.pstateCalm c) s = .next t ∧ t.pkg.power.state = .calm ∧ t.pkg.loft.owner = s.pkg.loft.owner ∧ t.pkg.launches = [] ∧
          t.core.run = .idle ∧ (∀ k < 2 ^ 61, memGet t.mem k = 0) ∧ ∀ k, 2 ^ 61 ≤ k → memGet t.mem k = memGet s.mem k) ∧
      (p = 3 → (∃ w, 1 ≤ w ∧ ¬ ((recordOf s w).state = .free ∨ (recordOf s w).state = .erased ∨ (recordOf s w).state = .exported)) →
        ∃ t, answered s (.pstateCalm c) c t 2 1 [] ∧ t.pkg.power.state = s.pkg.power.state)) ∧
    (∀ x, secUp s = true → Safety.memOk s → c.csig = 0 → s.pkg.security.queue = [x] → x.lane = 0 → x.op = 0x0C → x.cmd = c → x.phase = 1 → p = 2 →
      s.pkg.power.toLull = true → s.core.run = .idle → (∀ q ∈ s.pkg.peers, q.placed = false) → s.pkg.launches = [] →
      s.pkg.loft.held = [] →
      ∃ t, exec (.pstateLull c) s = .next t ∧ t.pkg.power.state = .lull ∧ t.pkg.power.toLull = false ∧ t.pkg.l2 = [] ∧ t.core.l1 = [] ∧
        t.core.tlb = [] ∧ t.core.task = Core.reset.task ∧ t.pkg.security.queue = [] ∧ t.pkg.security.scramblers = [] ∧
        (s.core.resident = [] → ∀ k, 2 ^ 30 ≤ k → k < 2 ^ 60 → memGet t.mem k = memGet s.mem k))

/-! ## The loft programming engines, boot, attestation and shares -/

/-- The lane of a loft command, and its world LIVE (R422, R431). -/
def loftFree (s : State) (op : BitVec 8) (c : SecCmd) : Prop :=
  laneFree s op c ∧ (s.pkg.security.worlds.get (worldArg c)).state = .live

/-- The die whose engine runs a loft command (R422). -/
def dieArg (c : SecCmd) : BitVec 2 := (c.w.get 3).extractLsb 38 37

/-- A programming command under way, with no row done. -/
def programming (s t : State) (c : SecCmd) : Prop :=
  ∃ x, laneHead t (1 + (dieArg c).toNat) = some x ∧ x.cmd = c ∧ x.phase = 1 ∧ (t.pkg.loft.lanes.get (dieArg c)).rows = 0 ∧
    (t.pkg.loft.lanes.get (dieArg c)).pulses = 0 ∧ t.mem = s.mem ∧ t.pkg.loft.owner = s.pkg.loft.owner

/-- R423, R430, R431 and R434: LGRANT gives a free segment to a LIVE world with its root stored, or starts to zero one that it takes back;
LPROG and LZERO of the world's own segments start; LHASH answers a segment's root and whether it is the stored one, tainting the segment
where it is not; LWEAR answers the spares left and the rows retired of a bank, and the loft's telemetry is sampled with it (R463, R465); a command of a world that is not LIVE starts nothing. -/
def Claims.LoftCommands : Prop :=
  (∀ (s : State) (c : SecCmd), let seg := operand c 3 / 2 ^ 24
    loftFree s 0x10 c → operand c 3 % 2 ^ 24 = 0 →
    ((c.w.get 2).getLsbD 8 = false → segState s seg = 0 → ∃ t, answered s (.lgrant c) c t 0 0 [] ∧ segState t seg = 1 ∧
      segOwner t seg = (worldArg c).toNat ∧ assoc t.pkg.loft.roots seg = some (segRoot s seg)) ∧
    ((c.w.get 2).getLsbD 8 = false → segState s seg ≠ 0 → ∃ t, answered s (.lgrant c) c t 2 2 [] ∧ t.pkg.loft = s.pkg.loft) ∧
    ((c.w.get 2).getLsbD 8 = true → (segState s seg = 1 ∨ segState s seg = 3) → segOwner s seg = (worldArg c).toNat →
      ∃ t, exec (.lgrant c) s = .next t ∧ programming s t c)) ∧
  (∀ (s : State) (c : SecCmd), operand c 3 % 2 ^ 13 = 0 → operand c 5 % 2 ^ 13 = 0 → 2 ^ 13 ≤ operand c 5 →
    operand c 3 / 2 ^ 30 = (operand c 3 + operand c 5 - 1) / 2 ^ 30 →
    (∀ g, operand c 3 / 2 ^ 24 ≤ g → g * 2 ^ 24 < operand c 3 + operand c 5 → segState s g = 1 ∧ segOwner s g = (worldArg c).toNat) →
    (loftFree s 0x12 c → ∃ t, exec (.lzero c) s = .next t ∧ programming s t c) ∧
    (loftFree s 0x11 c → operand c 4 % 2 ^ 16 = 0 →
      (∀ n, n * 2 ^ 16 < operand c 5 → isLpddr (operand c 4 + n * 2 ^ 16) = true ∧
        frameKind s (operand c 4 + n * 2 ^ 16) = (1, (worldArg c).toNat)) → ∃ t, exec (.lprog c) s = .next t ∧ programming s t c) ∧
    (laneFree s 0x12 c → (s.pkg.security.worlds.get (worldArg c)).state = .keying → ∃ t, answered s (.lzero c) c t 1 4 [] ∧
      t.pkg.loft = s.pkg.loft)) ∧
  (∀ (s : State) (c : SecCmd), let seg := operand c 3 / 2 ^ 24
    loftFree s 0x13 c → operand c 3 % 2 ^ 24 = 0 → segState s seg = 1 → segOwner s seg = (worldArg c).toNat →
    ∃ t, answered s (.lhash c) c t 0 0 (wordsOf (segRoot s seg).toNat 6 ++ [if segRoot s seg = storedRoot s seg then 1 else 0]) ∧
      segState t seg = (if segRoot s seg = storedRoot s seg then 1 else 3)) ∧
  (∀ (s : State) (c : SecCmd), let b := operand c 3 / 2 ^ 30 % 2 ^ 9
    loftFree s 0x14 c → ∃ t n m, answered s (.lwear c) c t 0 0 [BitVec.ofNat 64 (2048 - (assoc s.pkg.loft.spares b).getD 0), n, m,
        BitVec.ofNat 64 ((assoc s.pkg.loft.retired b).getD 0)] ∧ t.pkg.loft = s.pkg.loft ∧
      t.pkg.telemetry.loftRetired = s.pkg.loft.retired ∧ t.pkg.telemetry.loftWorn = s.pkg.loft.wear.filter (fun p => decide (90000 ≤ p.2)) ∧
      t.pkg.telemetry.loftBands = s.pkg.loft.spares.map (fun p => (p.1, if 512 ≤ 2048 - p.2 then WearBand.normal else
        if 128 ≤ 2048 - p.2 then .warn else if 1 ≤ 2048 - p.2 then .critical else .exhausted)))

/-- The row that a die's engine programs next, and its first byte as a memory key (R47, R432). -/
def nextRow (s : State) (d : BitVec 2) (x : LaneCmd) : Nat := operand x.cmd 3 / 2 ^ 13 + (s.pkg.loft.lanes.get d).rows

/-- R432 and R433: a programming engine first takes the bank of its row, once that has rested; then it programs the row with the source's
bytes or with zeros, one program of wear on its home, remapped to a spare where its own cells fail, that home counted as retired, and lets the bank go; with no good
cells the row is unreadable and the command FAILED; after the last row the roots are stored and the command is answered.
What the cells do under pulses is a free value (log 3), and that a home that fails takes no wear is the model's choice (log 47). -/
def Claims.RowsProgrammed : Prop :=
  ∀ (s : State) (d : BitVec 2) (x : LaneCmd) (u : PulseResult), let r := nextRow s d x
    let bank := r / 2 ^ 17
    let len := operand x.cmd 5
    let l := s.pkg.loft
    let src := operand x.cmd 4 + (l.lanes.get d).rows * 2 ^ 13
    s.pkg.security.queue = [x] → x.lane = 1 + d.toNat → x.phase = 1 → (x.op = 0x11 ∨ x.op = 0x12) → Safety.memOk s → x.cmd.csig = 0 →
    l.refresh.get d = none →
    (bank ∉ l.held → secUp s = true → s.pkg.power.toLull = false → bank ∉ s.pkg.farrier.claimed →
      ((l.lanes.get d).rest = 0 ∨ 20000 ≤ (s.pkg.time - (l.lanes.get d).rest).toNat) →
      ∃ t, exec (.lpeRowProgram d u) s = .next t ∧ t.pkg.loft = { l with held := bank :: l.held } ∧ t.mem = s.mem) ∧
    (bank ∈ l.held → wearOf l (physRow l r) < 100000 → (x.op = 0x11 → readFails s src (2 ^ 13) = none) →
      (u.ok = true → (l.lanes.get d).rows + 1 < len / 2 ^ 13 →
        ∃ t, exec (.lpeRowProgram d u) s = .next t ∧ (t.pkg.loft.lanes.get d).rows = (l.lanes.get d).rows + 1 ∧
          t.pkg.loft.held = l.held.erase bank ∧ (t.pkg.loft.lanes.get d).rest = s.pkg.time ∧ r ∉ t.pkg.loft.unreadable ∧
          wearOf t.pkg.loft (physRow l r) = wearOf l (physRow l r) + 1 ∧ t.pkg.loft.remap = l.remap ∧
          (∀ b < 2 ^ 13, memGet t.mem (2 ^ 61 + r * 2 ^ 13 + b) = if x.op = 0x11 then memGet s.mem (src + b) else 0) ∧
          (∀ k, k < 2 ^ 61 + r * 2 ^ 13 ∨ 2 ^ 61 + r * 2 ^ 13 + 2 ^ 13 ≤ k → memGet t.mem k = memGet s.mem k)) ∧
      (u.ok = false → u.spareOk = true → (l.lanes.get d).rows + 1 < len / 2 ^ 13 → (assoc l.spares bank).getD 0 < 2048 →
        let spare := 2 ^ 26 + bank * 2048 + (assoc l.spares bank).getD 0
        ∃ t, exec (.lpeRowProgram d u) s = .next t ∧ (t.pkg.loft.lanes.get d).rows = (l.lanes.get d).rows + 1 ∧
          (t.pkg.loft.lanes.get d).remapped = (l.lanes.get d).remapped + 1 ∧ physRow t.pkg.loft r = spare ∧
          wearOf t.pkg.loft spare = wearOf l spare + 1 ∧
          (assoc t.pkg.loft.retired bank).getD 0 = (assoc l.retired bank).getD 0 + 1 ∧ (assoc t.pkg.loft.spares bank).getD 0 = (assoc l.spares bank).getD 0 + 1 ∧
          (∀ b < 2 ^ 13, memGet t.mem (2 ^ 61 + r * 2 ^ 13 + b) = if x.op = 0x11 then memGet s.mem (src + b) else 0)) ∧
      (u.ok = false → u.spareOk = false → (assoc l.spares bank).getD 0 < 2048 →
        ∃ t, exec (.lpeRowProgram d u) s = .next t ∧ r ∈ t.pkg.loft.unreadable ∧ t.pkg.security.queue = [] ∧
          memRead t.mem (0x1000 + 0x100 * (x.cmd.k % 256) + 128) 8 = 1 + 5 * 2 ^ 8) ∧
      (u.ok = true → (l.lanes.get d).rows + 1 = len / 2 ^ 13 →
        ∃ t, exec (.lpeRowProgram d u) s = .next t ∧ t.pkg.security.queue = [] ∧
          memRead t.mem (0x1000 + 0x100 * (x.cmd.k % 256) + 128) 8 = 1 ∧
          memRead t.mem (0x1000 + 0x100 * (x.cmd.k % 256) + 136) 8 = ((l.lanes.get d).rows + 1) % 2 ^ 64 ∧
          (∀ b < 2 ^ 13, memGet t.mem (2 ^ 61 + r * 2 ^ 13 + b) = if x.op = 0x11 then memGet s.mem (src + b) else 0)))

/-- An image that the boot ROM accepts (R444): the key at the end of its chain of certificates, which begins at the root that the ROM knows,
verifies its signature, and its version is not too old. -/
def bootable (i : BootImage) : Prop :=
  i.arrived = true ∧ Config.minVersion.toNat ≤ i.version.toNat ∧
    ∃ root sig rest k, i.chain = (root, sig) :: rest ∧ Config.sha384 48 root.toNat = Config.rootDigest ∧ chainEnd root rest = some k ∧
      Config.ecdsaVerify k (imageDigest i) i.signature = true

/-- R13, R36, R435 and R444: a cold start leaves the loft's cells alone in memory and TIME 0, draws new scrambler keys, and boots an acceptable image; else it waits for one, and 60 s
later the loft's copy is tried, without which the device stays halted and says so on the management port. A booted device takes its configuration.
The layout of an image is the model's choice (log 56), and so is that of the report of a failed boot (log 46). -/
def Claims.BootRuns : Prop :=
  (∀ (s : State) (i : BootImage), Safety.memOk s → ∃ t, exec (.coldStart i) s = .next t ∧ t.pkg.time = 0 ∧ t.pkg.power.supply = true ∧
    t.pkg.launches = [] ∧ t.core.run = .idle ∧ t.pkg.power.state = .active ∧ (∀ k < 2 ^ 61, memGet t.mem k = 0) ∧
    (∀ k, 2 ^ 61 ≤ k → memGet t.mem k = memGet s.mem k) ∧ t.pkg.loft.wear = s.pkg.loft.wear ∧
    t.pkg.security.draws = s.pkg.security.draws + 1 ∧
    (bootable i → t.pkg.power.boot = .running ∧ t.pkg.security.fwDigest = imageDigest i ∧ t.pkg.security.fwFromLoft = false ∧
      t.pkg.security.measured = true ∧ t.pkg.power.capw = s.pkg.config.capw ∧ (∀ d, (tierOf t d).ctl = s.pkg.config.tierCtl.get d) ∧
      ∀ n : Fin 18, t.pkg.ports[n.val].en = s.pkg.config.portEn.getLsbD n.val) ∧
    (¬ bootable i → t.pkg.power.boot = .cold ∧ t.pkg.security.measured = false)) ∧
  (∀ (s : State), s.pkg.power.boot = .cold → s.pkg.power.supply = true → s.pkg.power.state ≠ .calm →
    ((s.pkg.time - s.pkg.bootTimer).toNat < 150000000000 → ∀ i, (bootable i → ∃ t, exec (.bootFetchTimeout i) s = .next t ∧
      t.pkg.power.boot = .running ∧ t.pkg.security.fwFromLoft = false ∧ t.pkg.security.fwDigest = imageDigest i ∧ t.mem = s.mem) ∧
      (¬ bootable i → exec (.bootFetchTimeout i) s = .next s)) ∧
    (150000000000 ≤ (s.pkg.time - s.pkg.bootTimer).toNat → ∀ x, (∀ i, s.pkg.loft.firmware = some i → bootable i → ∃ t, exec (.bootFetchTimeout x) s = .next t ∧ t.pkg.power.boot = .running ∧ t.pkg.security.fwFromLoft = true ∧
      t.pkg.security.fwDigest = imageDigest i ∧ t.mem = s.mem) ∧
    ((∀ i, s.pkg.loft.firmware = some i → ¬ bootable i) → ∃ t, exec (.bootFetchTimeout x) s = .next t ∧ t.pkg.power.boot = .failed ∧
      SecLog.bootFailure ∈ t.pkg.security.log ∧ ∃ a, t.pkg.security.answers = s.pkg.security.answers ++ [a] ∧ a.message = "BOOT FAILURE")))

/-- The answers sent grow by one, of a message in a session (R446). -/
def said (s t : State) (message : String) (sess : Nat) (values : List (BitVec 384)) : Prop :=
  ∃ a, t.pkg.security.answers = s.pkg.security.answers ++ [a] ∧ a.message = message ∧ a.session = sess ∧ a.values = values

/-- The management port answers and the package is active (R448, R457). -/
def managed (s : State) : Prop := portUp s = true ∧ s.pkg.power.state = .active

/-- A request whose answer is the device's own and that changes nothing else; a device that failed to boot answers that, and a port that does not
answer does nothing (R444). -/
def answeredPlainly (s : State) (i : Instr) (message : String) (n : Nat) (values : List (BitVec 384)) : Prop :=
  (managed s → ∃ t, exec i s = .next t ∧ said s t message n values ∧ t.core = s.core ∧ t.mem = s.mem ∧ t.pkg.power = s.pkg.power) ∧
    (portUp s = false → if s.pkg.power.supply = true ∧ s.pkg.power.boot = .failed then
      ∃ t, exec i s = .next t ∧ said s t "BOOT FAILURE" 0 [] ∧ t.core = s.core ∧ t.mem = s.mem
    else exec i s = .next s)

/-- R443 to R447: a request that the port takes is answered; CHALLENGE and GET_MEASUREMENTS sign what they answer over the requester's nonce,
WAKECNT going with the first measurements that a session asks for after a wake; a block that does not exist is an error. In lull or calm, before boot and without supply nothing is answered, but that a boot failed. -/
def Claims.RequestsAnswered : Prop :=
  (∀ (s : State) (n : Nat), answeredPlainly s (.getVersion n) "VERSION 1.3" n [] ∧
    answeredPlainly s (.getCapabilities n) "CAPABILITIES CERT CHAL MEAS KEY_EX MUT_AUTH HBEAT KEY_UPD" n [] ∧
    answeredPlainly s (.negotiateAlgorithms n) "ALGORITHMS ECDSA-P384 SHA-384 secp384r1 AES-256-GCM" n [] ∧
    answeredPlainly s (.getDigests n) "DIGESTS" n [chainDigest s] ∧ answeredPlainly s (.getCertificate n) "CERTIFICATE" n (certChain s)) ∧
  (∀ (s : State) (n : Nat) (nonce : BitVec 256), managed s →
    (∃ t a, exec (.challenge n nonce) s = .next t ∧ t.pkg.security.answers = s.pkg.security.answers ++ [a] ∧ a.message = "CHALLENGE_AUTH" ∧
      a.values = [chainDigest s] ∧ a.signature = some (aliasSign s nonce.toNat [chainDigest s])) ∧
    (∀ (i : BitVec 8), (measureBlock s i.toNat = none → ∃ t, exec (.getMeasurements n nonce i) s = .next t ∧ said s t "ERROR InvalidRequest" n []) ∧
      ∀ v, measureBlock s i.toNat = some v → ∃ t a, exec (.getMeasurements n nonce i) s = .next t ∧
        t.pkg.security.answers = s.pkg.security.answers ++ [a] ∧ a.values = v ++ wakeBlock s n i ∧
        a.signature = some (aliasSign s nonce.toNat (v ++ wakeBlock s n i))) ∧
    (∀ (x : Session) (rest : List Session) (i : BitVec 8), s.pkg.security.sessions = x :: rest → x.id = n → i ≠ 0x10 →
      wakeBlock s n i = (if x.wakeSeen = s.pkg.power.wakeCnt then [] else [BitVec.ofNat 384 s.pkg.power.wakeCnt]) ∧
      (measureBlock s i.toNat ≠ none → ∃ t, exec (.getMeasurements n nonce i) s = .next t ∧
        t.pkg.security.sessions = { x with wakeSeen := s.pkg.power.wakeCnt } :: rest)) ∧
    measureBlock s 1 = some [Config.romDigest] ∧ measureBlock s 0x10 = some [BitVec.ofNat 384 s.pkg.power.wakeCnt] ∧
    ∀ w : BitVec 6, w ≠ 0 → measureBlock s (0x40 + w.toNat) = some [BitVec.ofNat 384 (stateNum (recordOf s w).state),
      BitVec.ofNat 384 (recordOf s w).n.toNat, BitVec.ofNat 384 (recordOf s w).expCnt.toNat, (recordOf s w).policy,
      (recordOf s w).check.getD 0, loftDigest s w.toNat])

/-- R446: KEY_EXCHANGE opens a session of its requester while fewer than 64 are open; FINISH secures it, HEARTBEAT and KEY_UPDATE keep it
up to date, END_SESSION and a missed heartbeat period of 30 s end it. -/
def Claims.SessionsKept : Prop :=
  (∀ (s : State) (h : BitVec 384), managed s →
    (s.pkg.security.sessions.length < 64 → ∃ t x, exec (.keyExchange h) s = .next t ∧ t.pkg.security.sessions = s.pkg.security.sessions ++ [x] ∧
      x.requester = h ∧ x.secured = false ∧ x.beat = s.pkg.time ∧ x.id = s.pkg.security.nextSession + 1) ∧
    (64 ≤ s.pkg.security.sessions.length → ∃ t, exec (.keyExchange h) s = .next t ∧ t.pkg.security.sessions = s.pkg.security.sessions ∧
      said s t "ERROR SessionLimitExceeded" 0 [])) ∧
  (∀ (s : State) (x : Session) (rest : List Session), s.pkg.security.sessions = x :: rest → (∀ y ∈ rest, y.id ≠ x.id) →
    (managed s →
      (∃ t, exec (.finish x.id) s = .next t ∧ t.pkg.security.sessions = { x with secured := true, beat := s.pkg.time } :: rest ∧
        said s t "FINISH_RSP" x.id []) ∧
      (∃ t, exec (.heartbeat x.id) s = .next t ∧ t.pkg.security.sessions = { x with beat := s.pkg.time } :: rest ∧
        said s t "HEARTBEAT_ACK" x.id []) ∧
      (∃ t, exec (.keyUpdate x.id) s = .next t ∧ t.pkg.security.sessions = { x with keyGen := x.keyGen + 1 } :: rest ∧
        said s t "KEY_UPDATE_ACK" x.id []) ∧
      (∃ t, exec (.endSession x.id) s = .next t ∧ t.pkg.security.sessions = rest ∧ said s t "END_SESSION_ACK" x.id [])) ∧
    (s.pkg.power.state ≠ .lull → 75000000000 ≤ (s.pkg.time - x.beat).toNat → ∃ t, exec (.heartbeatTimeout x.id) s = .next t ∧
      t.pkg.security.sessions = rest ∧ t.core = s.core ∧ t.mem = s.mem) ∧
    ((s.pkg.time - x.beat).toNat < 75000000000 → exec (.heartbeatTimeout x.id) s = .next s))

/-- R437 and R438: a share from a secured session of its own custodian is held; with the last one the key is their exclusive or, its data and tag
keys are loaded with it and the world is LIVE, the shares discarded, unless the key does not fit the world's check value; from anyone else it is refused. -/
def Claims.SharesTaken : Prop :=
  ∀ (s : State) (n : Nat) (x : Session) (w : BitVec 6) (j : BitVec 4) (share : BitVec 512), let r := recordOf s w
    let arrived := r.arrived ||| BitVec.ofNat 16 (2 ^ j.toNat)
    managed s → s.pkg.security.sessions.find? (fun y => y.id == n) = some x → r.state = .keying → r.key = none → j.toNat < r.n.toNat →
    (x.secured = true → r.custodians[j.toNat]? = some x.requester → r.shares.any (fun p => p.1 == j) = false →
      (arrived.toNat ≠ 2 ^ r.n.toNat - 1 → ∃ t, exec (.vendorDefinedRequest n w j share) s = .next t ∧ (recordOf t w).arrived = arrived ∧
        (recordOf t w).state = .keying ∧ (recordOf t w).key = none ∧ (j, share) ∈ (recordOf t w).shares) ∧
      (arrived.toNat = 2 ^ r.n.toNat - 1 → let k := (r.shares.map Prod.snd).foldl (· ^^^ ·) share
        (r.check = none ∨ r.check = some (checkValue k) → s.pkg.security.queue = [] →
          ∃ t, exec (.vendorDefinedRequest n w j share) s = .next t ∧ (recordOf t w).state = .live ∧ (recordOf t w).key = some k ∧
            (recordOf t w).dataKey.isSome = true ∧ (recordOf t w).tagKey.isSome = true ∧ (recordOf t w).shares = [] ∧ (recordOf t w).check = some (checkValue k)) ∧
        (∀ v, r.check = some v → v ≠ checkValue k → ∃ t, exec (.vendorDefinedRequest n w j share) s = .next t ∧ (recordOf t w).state = .keying ∧
          (recordOf t w).key = none ∧ (recordOf t w).shares = [] ∧ (recordOf t w).arrived = 0))) ∧
    (x.secured = false ∨ r.custodians[j.toNat]? ≠ some x.requester → ∃ t, exec (.vendorDefinedRequest n w j share) s = .next t ∧
      t.pkg.security.worlds = s.pkg.security.worlds ∧ said s t "ERROR Refused" n [])

/-! ## Power, the hub, links, errors, repair and management -/

/-- R448, R456 and R457: an idle package enters breeze after 250,000 ticks and leaves it when woken; a wake from lull counts itself, draws new
scrambler keys and starts the heartbeats anew; 105 degrees slow the floors of a die to 0.8 GHz, 115 set the package on its way to lull, 125 and
a loss of supply leave the loft alone.
The details of lull and calm are the model's reading (log 46). -/
def Claims.PowerEvents : Prop :=
  (∀ (s : State), s.pkg.power.state = .active → s.pkg.power.toLull = false → packageIdle s = true →
    (250000 ≤ (s.pkg.time - s.pkg.power.idleSince).toNat → ∃ t, exec .breezeEntry s = .next t ∧ t.pkg.power.state = .breeze ∧
      t.pkg.power.changed = s.pkg.time ∧ t.core = s.core ∧ t.mem = s.mem) ∧
    ((s.pkg.time - s.pkg.power.idleSince).toNat < 250000 → exec .breezeEntry s = .next s)) ∧
  (∀ (s : State), s.pkg.power.state = .breeze → ∃ t, exec .breezeWake s = .next t ∧ t.pkg.power.state = .active ∧ t.core = s.core ∧ t.mem = s.mem) ∧
  (∀ (s : State), s.pkg.power.state = .lull → ∃ t, exec .lullWake s = .next t ∧ t.pkg.power.state = .active ∧ t.pkg.power.changed = s.pkg.time ∧
    t.pkg.power.wakeCnt = s.pkg.power.wakeCnt + 1 ∧ t.pkg.security.draws = s.pkg.security.draws + 1 ∧ t.pkg.security.scramblers.length = 64 ∧
    (∀ x ∈ t.pkg.security.sessions, x.beat = s.pkg.time) ∧ t.pkg.security.worlds = s.pkg.security.worlds ∧ t.mem = s.mem) ∧
  (∀ (s : State) (d : BitVec 2), ∃ t, exec (.thermal105 d) s = .next t ∧ t.core = s.core ∧ t.mem = s.mem ∧ ∀ i : Fin 24,
    t.pkg.power.islands[i.val] = (if i.val < 20 ∧ i.val / 5 = d.toNat ∧ i.val % 5 ≠ 4 then
        { s.pkg.power.islands[i.val] with now := 8, thermal := true }
      else s.pkg.power.islands[i.val])) ∧
  (∀ (s : State), s.pkg.power.state = .active → s.pkg.power.toLull = false → ∃ t, exec .thermal115 s = .next t ∧ t.pkg.power.toLull = true ∧
    t.core = s.core ∧ t.mem = s.mem) ∧
  (∀ (s : State), Safety.memOk s → (∃ t, exec .thermal125 s = .next t ∧ exec .supplyLoss s = .next t ∧ t.pkg.power.supply = false ∧
    t.pkg.power.state = .calm ∧ t.pkg.launches = [] ∧ t.core.run = .idle ∧ t.pkg.loft.owner = s.pkg.loft.owner ∧ t.pkg.config = s.pkg.config ∧
    (∀ k < 2 ^ 61, memGet t.mem k = 0) ∧ ∀ k, 2 ^ 61 ≤ k → memGet t.mem k = memGet s.mem k))

/-- R454 to R456 and R464: PCAP takes a cap of 1,000 to 4,200 W from an operator, in CAPW alone; a millisecond above the cap is counted and lowers
each island that may be lowered one step, and one that was to be lowered is lowered whatever the power is; else each rises one step to its set
clock, but for a floor that is still too hot, which stays at the lowest; after 10 ms the groups of one island are halted, and the island is to be
lowered.
The choice of islands and the way up again are the model's reading (log 32), and whether a die is still too hot is a free value (log 3). -/
def Claims.PowerCapped : Prop :=
  (∀ (s : State) (v : Word64) (h : BitVec 384), let n := (v.extractLsb 28 16).toNat
    managed s → (h ∈ s.pkg.config.operators →
      ∃ t, exec (.pcapWrite ⟨some h, v⟩) s = .next t ∧ t.core = s.core ∧ t.mem = s.mem ∧ t.pkg.power.islands = s.pkg.power.islands ∧
        t.pkg.power.capw = (if 1000 ≤ n ∧ n ≤ 4200 then BitVec.ofNat 13 n else s.pkg.power.capw) ∧
        t.pkg.config.capw = (if 1000 ≤ n ∧ n ≤ 4200 then BitVec.ofNat 13 n else s.pkg.config.capw)) ∧
    (∀ c, c = none ∨ (c = some h ∧ h ∉ s.pkg.config.operators) → ∃ t, exec (.pcapWrite ⟨c, v⟩) s = .next t ∧ t.pkg.power = s.pkg.power ∧
      t.pkg.config = s.pkg.config ∧ t.pkg.replies = s.pkg.replies ++ [.forbidden])) ∧
  (∀ (s : State) (w : BitVec 13), ∃ t, exec (.powerCapStep w) s = .next t ∧ t.pkg.power.pkgw = w ∧ t.core = s.core ∧ t.mem = s.mem ∧
    t.pkg.power.overMs = (if s.pkg.power.capw.toNat < w.toNat then s.pkg.power.overMs + 1 else 0) ∧
    (∀ i, i ∈ t.pkg.power.lowering ↔ i ∈ s.pkg.power.lowering ∧ mayLower s i = false) ∧
    ∀ i : Fin 24, let x := s.pkg.power.islands[i.val]
      let y := t.pkg.power.islands[i.val]
      let down := s.pkg.power.capw.toNat < w.toNat ∨ i.val ∈ s.pkg.power.lowering
      let moved := (mayLower s i.val = false → y = x) ∧ (mayLower s i.val = true →
        (down → y.now = Nat.max (x.now - 1) (Nat.min x.now 8)) ∧ (¬ down → y.now = (if x.now < x.set then x.now + 1 else x.now)))
      y.set = x.set ∧ (x.thermal = false → moved) ∧ (x.thermal = true → y.now = 8 ∨ moved)) ∧
  (∀ (s : State) (i : Nat) (l : Launch) (x : Group), islandToFree s = some i → groupsOn s i = [(l, x)] → groupOf s l.lid x.num l x →
    saveRoom s (l.world s) l.lid x.num = true →
    (10 ≤ s.pkg.power.overMs → ∃ t m y, exec .capExcessPreempt s = .next t ∧ t.pkg.power.lowering = i :: s.pkg.power.lowering ∧
      t.pkg.power.overMs = 0 ∧ groupOf t l.lid x.num m y ∧ y.state = .halting ∧ t.mem = s.mem) ∧
    (s.pkg.power.overMs < 10 → exec .capExcessPreempt s = .next s))

/-- A port of the package. -/
def portOf (s : State) (n : Fin 18) : Port := s.pkg.ports[n.val]

/-- R367, R368 and R427: an aligned hub access to memory that is not barred reads, writes or performs its AMO at its address alone, the AMO answering what
stood there; to a protected world's
frame, or to the reserve past the ring, a read gives all ones, a write does nothing, and the refusal is logged.
A hub access is one event of the model's own form (log 19). -/
def Claims.HubAccesses : Prop :=
  ∀ (s : State) (a : HubAccess), let pa := a.pa.toNat
    let n := 2 ^ a.logSize.toNat
    let barred := 0x20000 ≤ pa ∧ pa < 2 ^ 30 ∨ 2 ^ 30 ≤ pa ∧ (frameKind s pa).2 ≠ 0 ∧ (frameKind s pa).1 ≠ 0
    s.pkg.power.state = .active → isLpddr pa = true → isYard pa = false → pa % n = 0 → Safety.memOk s →
    (¬ barred → readFails s pa n = none →
      (a.op = .read → ∃ t, exec (.hubMemoryAccess a) s = .next t ∧ t.pkg.hubReply = some (BitVec.ofNat 64 (memRead s.mem pa n)) ∧ t.mem = s.mem ∧
        t.core = s.core) ∧
      (∀ v, a.op = .write v → ∃ t, exec (.hubMemoryAccess a) s = .next t ∧ memRead t.mem pa n = v.toNat % 2 ^ (8 * n) ∧
        (∀ k, k < pa ∨ pa + n ≤ k → memGet t.mem k = memGet s.mem k) ∧ t.core = s.core) ∧
      (∀ op v x, a.op = .amo op v x →
        let new := amoNew op (8 * n) (memRead s.mem pa n) (v.toNat % 2 ^ (8 * n)) (x.toNat % 2 ^ (8 * n))
        ∃ t, exec (.hubMemoryAccess a) s = .next t ∧ t.pkg.hubReply = some (BitVec.ofNat 64 (memRead s.mem pa n)) ∧ t.core = s.core ∧
          memRead t.mem pa n = new.getD (memRead s.mem pa n) % 2 ^ (8 * n) ∧ (∀ k, k < pa ∨ pa + n ≤ k → memGet t.mem k = memGet s.mem k))) ∧
    (barred → ∃ t, exec (.hubMemoryAccess a) s = .next t ∧ t.mem = s.mem ∧ SecLog.hubRefusal a.pa ∈ t.pkg.security.log ∧
      (a.op = .read → t.pkg.hubReply = some (BitVec.ofNat 64 (2 ^ (8 * n) - 1))))

/-- R450: a request sent on a port is a flit, counted, numbered after the last one and kept in the replay buffer, which holds the last 256;
R451: to another device it goes on the first port that is up, under its own number, or as a frame of its scale-out port.
The port that a request goes on is the model's choice (log 49), and which devices lie beyond the scale-out ports is a free value (log 31). -/
def Claims.FlitsSent : Prop :=
  (∀ (p : Port) (r : OutReq), (p.send r).flitsTx = p.flitsTx + 1 ∧ (p.send r).nextTx = p.nextTx + 1 ∧ (p.nextTx, r) ∈ (p.send r).sent ∧
    (p.send r).sent.length = Nat.min (p.sent.length + 1) 256 ∧ ∀ x ∈ (p.send r).sent, x = (p.nextTx, r) ∨ x ∈ p.sent) ∧
  (∀ (s : State) (k size : Nat) (write : Bool) (n : Fin 18), let d := BitVec.ofNat 22 ((k - 2 ^ 80) / 2 ^ 52)
    Config.scaleOut d = false → (portOf s n).up = true → (∀ m : Fin 18, m < n → (portOf s m).up = false) →
    let t := linkSend s k size write
    t.mem = s.mem ∧ t.core = s.core ∧ numFor t.pkg.linkNum d = numFor s.pkg.linkNum d + 1 ∧ (∀ m, m ≠ n → portOf t m = portOf s m) ∧
      portOf t n = (portOf s n).send { target := d, num := numFor s.pkg.linkNum d, key := k, size := size, write := write }) ∧
  (∀ (s : State) (k size : Nat) (write : Bool), let d := BitVec.ofNat 22 ((k - 2 ^ 80) / 2 ^ 52)
    Config.scaleOut d = true → let t := linkSend s k size write
    t.mem = s.mem ∧ t.core = s.core ∧ t.pkg.ports = s.pkg.ports ∧ t.pkg.linkNum = s.pkg.linkNum ∧
      (t.pkg.gbe.get (d.truncate 3)).framesTx = (s.pkg.gbe.get (d.truncate 3)).framesTx + 1)

/-- R392 and R450 to R453: EN takes what an operator writes, a port disabled being down; a port that is up and not held for a retraining counts
good flits, delivers the next one in order once and performs the request that it brings, one that has performed already not again, and replays
its buffer as asked; a bad one it counts, and asks for a replay or fails the one under way, the sixteenth in a row holding it for a retraining; one
held takes none. A plane that goes down hands the requests in its buffer to the next one; a training that succeeds brings a port up with its
peer, and one that fails takes it from eight lanes to four and then down.
The first training, what a flit is numbered by and the count of a retraining are the model's reading (log 49); the form of a request over a link and what it may reach are its choice (log 57). -/
def Claims.PortsKept : Prop :=
  ∀ (s : State) (n : Fin 18), let p := portOf s n
    (∀ (h : BitVec 384) (en : Bool), managed s →
      (h ∈ s.pkg.config.operators → ∃ t, exec (.portEnableWrite ⟨some h, n.val⟩ en) s = .next t ∧ (portOf t n).en = en ∧
        t.pkg.config.portEn.getLsbD n.val = en ∧ (en = true → (portOf t n).up = p.up) ∧ (en = false → (portOf t n).up = false) ∧
        t.core = s.core ∧ t.mem = s.mem ∧ (en = true ∨ p.up = false ∨ p.sent = [] → ∀ m, m ≠ n → portOf t m = portOf s m)) ∧
      (h ∉ s.pkg.config.operators → ∃ t, exec (.portEnableWrite ⟨some h, n.val⟩ en) s = .next t ∧ t.pkg.ports = s.pkg.ports ∧
        t.pkg.config = s.pkg.config)) ∧
    (∀ f : Flit, (p.up = false ∨ p.retraining = true → ∃ t, exec (.flitReceive n.val f) s = .next t ∧ portOf t n = p ∧ t.core = s.core ∧
      t.mem = s.mem)) ∧
    (∀ f : Flit, p.up = true → p.retraining = false →
      (f.good = true → f.replayFrom = none →
        (f.num = p.nextRx → ∃ t, exec (.flitReceive n.val f) s = .next t ∧ t.core = s.core ∧
          portOf t n = { p with flitsRx := p.flitsRx + 1, nextRx := p.nextRx + 1, replaying := false, failures := 0 } ∧
          (f.request = none → t.mem = s.mem) ∧
          ∀ r, f.request = some r → ((r.source, r.num) ∈ s.pkg.linkSeen → t.mem = s.mem) ∧ (r.source, r.num) ∈ t.pkg.linkSeen ∧
            ((r.source, r.num) ∉ s.pkg.linkSeen → isLpddr r.pa.toNat = true → r.pa.toNat % 2 ^ r.logSize.toNat = 0 → 2 ^ 30 ≤ r.pa.toNat →
              (frameKind s r.pa.toNat).2 = 0 → Safety.memOk s →
              memRead t.mem r.pa.toNat (2 ^ r.logSize.toNat) = r.val.toNat % 2 ^ (8 * 2 ^ r.logSize.toNat) ∧
              ∀ k, k < r.pa.toNat ∨ r.pa.toNat + 2 ^ r.logSize.toNat ≤ k → memGet t.mem k = memGet s.mem k)) ∧
        (f.num ≠ p.nextRx → ∃ t, exec (.flitReceive n.val f) s = .next t ∧ portOf t n = { p with flitsRx := p.flitsRx + 1 } ∧ t.core = s.core ∧
          t.mem = s.mem ∧ t.pkg.linkSeen = s.pkg.linkSeen)) ∧
      (∀ k, f.good = true → f.replayFrom = some k → ∃ t, exec (.flitReceive n.val f) s = .next t ∧
        (portOf t n).replayFlits = p.replayFlits + BitVec.ofNat 64 (p.sent.filter (fun x => decide (k ≤ x.1))).length ∧ (portOf t n).sent = p.sent) ∧
      (f.good = false → ∃ t, exec (.flitReceive n.val f) s = .next t ∧ t.core = s.core ∧ t.mem = s.mem ∧
        portOf t n = (if p.replaying then { p with crcErr := p.crcErr + 1, failures := p.failures + 1, retraining := decide (16 ≤ p.failures + 1) }
          else { p with crcErr := p.crcErr + 1, replays := p.replays + 1, replaying := true }))) ∧
    (p.up = true → ∃ t, exec (.planeDown n.val) s = .next t ∧ (portOf t n).up = false ∧ (portOf t n).width = 0 ∧ (portOf t n).degrade = p.degrade + 1 ∧
      (portOf t n).sent = [] ∧ t.core = s.core ∧ t.mem = s.mem ∧
      ∀ m : Fin 18, m ≠ n → (portOf s m).up = true → (∀ k : Fin 18, k < m → k ≠ n → (portOf s k).up = false) →
        (portOf t n).rerouted = p.rerouted + BitVec.ofNat 64 p.sent.length ∧ portOf t m = (p.sent.map Prod.snd).foldl Port.send (portOf s m)) ∧
    (p.en = true →
      (∃ t, exec (.portRetrain n.val true) s = .next t ∧ (portOf t n).up = true ∧ (portOf t n).width = (if p.up then p.width else 2) ∧
        (portOf t n).retrains = (if p.up then p.retrains + 1 else p.retrains) ∧ (portOf t n).degrade = (if p.up then p.degrade + 1 else p.degrade) ∧
        (portOf t n).peer = Config.switchPort n.val ∧ (portOf t n).retraining = false ∧ t.core = s.core ∧ t.mem = s.mem) ∧
      (p.up = true → p.width = 2 → ∃ t, exec (.portRetrain n.val false) s = .next t ∧ (portOf t n).up = true ∧ (portOf t n).width = 1 ∧
        (portOf t n).degrade = p.degrade + 2) ∧
      (p.up = true → p.width = 1 → ∃ t, exec (.portRetrain n.val false) s = .next t ∧ (portOf t n).up = false ∧
        (portOf t n).degrade = p.degrade + 2)) ∧
    (p.en = false → ∀ b, exec (.portRetrain n.val b) s = .next s)

/-- R226, R392, R436 and R458: an error that correction mends changes no value and is counted, in LPDDR-6 and L2 when the scrubber meets its line; one that
it does not makes its unit of memory fail with its cause, a line of a protected world with INTEGRITY where its tag is hit, or poisons its
register, or breaks storage of the core that has no poison; each is counted. A clean line whose tag in L1 or L2 is hit leaves the cache, and a modified one fails whole and is counted. A boundary whose retry fails takes the die beyond
it out of service.
When a correctable error of LPDDR-6 is counted is the model's reading (log 33). -/
def Claims.ErrorsTaken : Prop :=
  (∀ (s : State) (k : Nat) (e : ErrStruct) (d : BitVec 2), keyHome s k = some (e, d) →
    (e = .lpddr ∨ e = .cache → ∃ t, exec (.softError { place := .mem k, correctable := true }) s = .next t ∧ t.pkg.latent = k / 128 :: s.pkg.latent ∧
      t.mem = s.mem ∧ t.bad = s.bad ∧ t.core = s.core) ∧
    (e ≠ .lpddr → e ≠ .cache → ∃ t, exec (.softError { place := .mem k, correctable := true }) s = .next t ∧ t.mem = s.mem ∧ t.bad = s.bad ∧
      (t.pkg.errors.get (errIndex e d)).ce = (s.pkg.errors.get (errIndex e d)).ce + 1) ∧
    (∃ t, exec (.softError { place := .mem k, correctable := false }) s = .next t ∧ t.mem = s.mem ∧
      t.bad = (k / 8 * 8, if isLoft k then causeLoftRead else 0x10#8) :: s.bad ∧
      (t.pkg.errors.get (errIndex e d)).ue = (s.pkg.errors.get (errIndex e d)).ue + 1)) ∧
  (∀ (s : State) (l : Nat) (e : ErrStruct) (d : BitVec 2), hitHome s (.lineTag l) = some (e, d) →
    ∃ t, exec (.softError { place := .lineTag l, correctable := false }) s = .next t ∧ t.mem = s.mem ∧ t.bad = (l * 128, causeIntegrity) :: s.bad ∧
      e = .lpddr ∧ (t.pkg.errors.get (errIndex .lpddr d)).ue = (s.pkg.errors.get (errIndex .lpddr d)).ue + 1) ∧
  (∀ (s : State) (l : Nat) (c : Bool), (∃ x ∈ s.core.l1, x.line = l) → ∃ t, exec (.softError { place := .l1Tag l, correctable := c }) s = .next t ∧
    (∀ x ∈ t.core.l1, x.line ≠ l) ∧ (∀ x ∈ s.core.l1, x.line ≠ l → x ∈ t.core.l1) ∧ t.pkg = s.pkg ∧ t.mem = s.mem ∧ t.bad = s.bad ∧ t.task = s.task) ∧
  (∀ (s : State) (l : Nat) (c : Bool) (x : L2Line), s.pkg.l2.find? (fun y => y.line == l) = some x →
    (x.dirty = false → ∃ t, exec (.softError { place := .l2Tag l, correctable := c }) s = .next t ∧ t.pkg.l2 = s.pkg.l2.erase x ∧
      t.pkg.errors = s.pkg.errors ∧ t.mem = s.mem ∧ t.bad = s.bad ∧ t.core = s.core) ∧
    (x.dirty = true → let d := BitVec.ofNat 2 (l / 2 ^ 33)
      ∃ t, exec (.softError { place := .l2Tag l, correctable := c }) s = .next t ∧ t.mem = s.mem ∧ t.core = s.core ∧
        (t.pkg.errors.get (errIndex .cache d)).ue = (s.pkg.errors.get (errIndex .cache d)).ue + 1 ∧
        (∀ n < 16, (l * 128 + 8 * n, 0x10#8) ∈ t.bad) ∧ (∀ u ∈ s.bad, u ∈ t.bad))) ∧
  (∀ (s : State) (x : SoftHit), hitHome s x.place = none → exec (.softError x) s = .next s) ∧
  (∀ (s : State) (q : SeqId) (r : BitVec 4), r ≠ 0 → ∃ t p, exec (.softError { place := .xReg q r, correctable := false }) s = .next t ∧
    (t.seq q).xPoison.get r = some p ∧ p.cause = 0x10#8 ∧ (t.seq q).x = (s.seq q).x ∧ t.mem = s.mem) ∧
  (∀ (s : State) (w : SoftWhere), let i := errIndex .sram (dieOf s.core.coreId)
    (∃ q r b m k a z l f, w = .flag q r ∨ w = .btReg q b ∨ w = .lcReg q b ∨ w = .laneMask m ∨ w = .keepMask k ∨ w = .accReg a ∨ w = .scoutBuf ∨
      w = .maskProg z ∨ w = .tplRec l ∨ w = .imWord q f) →
    (∃ t, exec (.softError { place := w, correctable := false }) s = .next t ∧ w ∈ t.task.broken ∧ (∀ x ∈ s.task.broken, x ∈ t.task.broken) ∧
      (t.pkg.errors.get i).ue = (s.pkg.errors.get i).ue + 1 ∧ t.mem = s.mem) ∧
    ∃ t, exec (.softError { place := w, correctable := true }) s = .next t ∧ t.task = s.task ∧ t.mem = s.mem ∧
      (t.pkg.errors.get i).ce = (s.pkg.errors.get i).ce + 1) ∧
  (∀ (s : State), let line := s.pkg.scrubPos
    let i := errIndex (if s.pkg.l2.any (fun l => l.line == line) then .cache else .lpddr) (BitVec.ofNat 2 (line / 2 ^ 33))
    ∃ t, exec .patrolScrub s = .next t ∧ t.mem = s.mem ∧ t.bad = s.bad ∧ line ∉ t.pkg.latent ∧ t.pkg.scrubPos = scrubNext line ∧
      (line ∈ s.pkg.latent → (t.pkg.errors.get i).scrubCe = (s.pkg.errors.get i).scrubCe + 1 ∧ (t.pkg.errors.get i).ce = (s.pkg.errors.get i).ce + 1) ∧
      (line ∉ s.pkg.latent → t.pkg.errors = s.pkg.errors)) ∧
  (∀ (s : State) (d : BitVec 2), (yardOf s d).failed = false → ∃ t, exec (.d2dRetryFailure d) s = .next t ∧ (yardOf t d).failed = true ∧
    (yardOf t (d + 1)).mirroring = true ∧ (t.pkg.d2d.get ((d - 1).zeroExtend 3)).up = false ∧
    (t.pkg.d2d.get ((d - 1).zeroExtend 3)).retry = (s.pkg.d2d.get ((d - 1).zeroExtend 3)).retry + 1)

/-- R459 to R462: a farrier engine claims the bus of a column on which nothing runs or is owed and whose bank nothing holds, its earlier repairs
coming into use, mapping each lane that it finds failed to a spare and retiring the column once they are more than its 32 spare ones; else it
waits. It lets a column go. A weak row has its free and rested bank taken, and then is programmed with its own contents, one program of wear.
What a claim waits for on its bus, and the order of the spares, is the model's reading (log 32). -/
def Claims.ColumnsRepaired : Prop :=
  (∀ (s : State) (d : BitVec 2) (c : BitVec 7) (u : FarrierFinding), let n := d.toNat * 128 + c.toNat
    let before := (assoc s.pkg.farrier.failedLanes n).getD 0
    let total := before + u.failedLanes.eraseDups.length
    (mayClaim s n = true → ∃ t, exec (.farrierClaim d c u) s = .next t ∧ t.pkg.farrier.claimed = n :: s.pkg.farrier.claimed ∧
      (assoc t.pkg.farrier.failedLanes n).getD 0 = total ∧ (32 < total → n ∈ t.pkg.farrier.retired) ∧
      (∀ r ∈ s.pkg.farrier.repairs, r.column = n → r.lane ∉ u.failedLanes → { r with inUse := true } ∈ t.pkg.farrier.repairs) ∧
      (∀ l ∈ u.failedLanes, total ≤ 32 → ∃ r ∈ t.pkg.farrier.repairs, r.column = n ∧ r.lane = l ∧ before ≤ r.spare ∧ r.spare < total ∧
        r.inUse = false) ∧
      (∀ r ∈ u.weakRows, r / 2 ^ 17 = n → r ∉ s.pkg.farrier.stuck → ∃ x, (x, r) ∈ t.pkg.farrier.weak) ∧ t.core = s.core ∧ t.mem = s.mem) ∧
    (mayClaim s n = false → ∃ t, exec (.farrierClaim d c u) s = .next t ∧ t.core = s.core ∧ t.mem = s.mem ∧
      t.pkg.farrier = { s.pkg.farrier with waiting := s.pkg.farrier.waiting ++ [(n, u)] })) ∧
  (∀ (s : State) (d : BitVec 2) (c : BitVec 7), ∃ t, exec (.farrierYield d c) s = .next t ∧
    t.pkg.farrier.claimed = s.pkg.farrier.claimed.erase (d.toNat * 128 + c.toNat) ∧ t.core = s.core ∧ t.mem = s.mem) ∧
  (∀ (s : State) (d : BitVec 2) (r : Nat), let l := s.pkg.loft
    let e := l.lanes.get d
    (l.refresh.get d = none → (d, r) ∈ s.pkg.farrier.weak → lpeHolds s d = false → r / 2 ^ 17 ∉ l.held → r / 2 ^ 17 ∉ s.pkg.farrier.claimed →
      (e.rest = 0 ∨ 20000 ≤ (s.pkg.time - e.rest).toNat) → s.pkg.power.toLull = false → secUp s = true →
      ∃ t, exec (.weakRowRefresh d r) s = .next t ∧ t.pkg.loft = { l with held := r / 2 ^ 17 :: l.held, refresh := l.refresh.set d (some r) } ∧
        t.mem = s.mem ∧ t.pkg.farrier = s.pkg.farrier) ∧
    (l.refresh.get d = some r → wearOf l (physRow l r) < 100000 → Safety.memOk s →
      ∃ t, exec (.weakRowRefresh d r) s = .next t ∧ t.pkg.farrier.weak = s.pkg.farrier.weak.erase (d, r) ∧
        t.pkg.farrier.refreshed = s.pkg.farrier.refreshed + 1 ∧ wearOf t.pkg.loft (physRow l r) = wearOf l (physRow l r) + 1 ∧
        t.pkg.loft.held = l.held.erase (r / 2 ^ 17) ∧ t.pkg.loft.refresh.get d = none ∧ (t.pkg.loft.lanes.get d).rest = s.pkg.time ∧
        ∀ k, memGet t.mem k = memGet s.mem k))

/-- R393, R464 and R465: a Redfish client reads a resource as it was sampled, and one that is no operator writes nothing; an operator's setting
goes into the device configuration, or an aperture entry into its place, and takes effect, where its value is allowed; a telemetry sample holds the readings of its moment but for those of the loft, which its own commands sample.
The form of an answer is the model's choice (log 49). -/
def Claims.ManagementServed : Prop :=
  (∀ (s : State) (q : RedfishReq), managed s →
    (q.write = none → ∃ t, exec (.redfishRequest q) s = .next t ∧ t.pkg.config = s.pkg.config ∧ t.pkg.power = s.pkg.power ∧
      t.pkg.replies = s.pkg.replies ++ [.content q.resource (resourceContent s.pkg.telemetry s.pkg.config q.resource)]) ∧
    (∀ h n e, q.client = some h → h ∈ s.pkg.config.operators → q.write = some (.aperture n e) → n < 2047 → ∃ t, exec (.redfishRequest q) s = .next t ∧
      t.pkg.replies = s.pkg.replies ++ [.done] ∧ ∀ a : Aperture, a ∈ t.pkg.apertures ↔
        (a.num = n ∧ e = some (a.device, a.rbase)) ∨ (a.num ≠ n ∧ a ∈ s.pkg.apertures)) ∧
    (∀ w, q.write = some w → (∀ h, q.client = some h → h ∉ s.pkg.config.operators) → ∃ t, exec (.redfishRequest q) s = .next t ∧
      t.pkg.replies = s.pkg.replies ++ [.forbidden] ∧ t.pkg.config = s.pkg.config ∧ t.pkg.power = s.pkg.power ∧ t.pkg.tiers = s.pkg.tiers) ∧
    (∀ h v, q.client = some h → h ∈ s.pkg.config.operators → q.write = some (.powerCap v) → let n := (v.extractLsb 28 16).toNat
      (1000 ≤ n ∧ n ≤ 4200 → ∃ t, exec (.redfishRequest q) s = .next t ∧ t.pkg.config.capw.toNat = n ∧ t.pkg.power.capw.toNat = n ∧
        t.pkg.replies = s.pkg.replies ++ [.done]) ∧
      (¬ (1000 ≤ n ∧ n ≤ 4200) → ∃ t, exec (.redfishRequest q) s = .next t ∧ t.pkg.config = s.pkg.config ∧ t.pkg.power = s.pkg.power ∧
        t.pkg.replies = s.pkg.replies ++ [.refused]))) ∧
  (∀ (s : State), portUp s = true → ∃ t, exec .telemetrySample s = .next t ∧ t.pkg.telemetry.sampled = s.pkg.time ∧
    t.pkg.telemetry.pkgw = s.pkg.power.pkgw ∧ t.pkg.telemetry.capw = s.pkg.power.capw ∧ t.pkg.telemetry.throt = s.pkg.power.throt ∧
    t.pkg.telemetry.ports = s.pkg.ports.toList ∧ t.pkg.telemetry.gbe = t.pkg.gbe.toList ∧
    t.pkg.telemetry.d2d = t.pkg.d2d.toList ∧ t.pkg.telemetry.errors = s.pkg.errors.toList ∧ t.pkg.telemetry.secLog = s.pkg.security.log ∧
    t.pkg.telemetry.retired = s.pkg.farrier.retired ∧ t.pkg.telemetry.loftBands = s.pkg.telemetry.loftBands ∧ t.pkg.telemetry.power = s.pkg.power.state ∧ t.core = s.core ∧ t.mem = s.mem)

/-! ## The machine: its words, its step, its reads, its reset and its invariant -/

/-- No token action. -/
def noTok : Tok := { tk := 0, peer := 0 }

/-- A word with the words after it decodes to the instruction, which takes `n` words. -/
def decodesTo (w : Word32) (ls : List Word32) (i : Instr) (n : Nat) : Prop := decodeWord w ls = some (i, n)

/-- The worked words of chapters 7, 8, 9, 12 and 13 decode to the instructions that stand beside them there. -/
def Obligations.WordsDecode : Prop :=
  decodesTo 0x064C4800#32 [] (.add { tk := 2, peer := 1 } 3 1 (.reg 2)) 1 ∧
  decodesTo 0x08157FF8#32 [] (.addi noTok 5 5 0x3FF8) 1 ∧
  decodesTo 0x04110100#32 [0x12345678#32] (.add noTok 4 4 (.lit32 0x12345678#32)) 2 ∧
  decodesTo 0x04100200#32 [0x00000000#32, 0x01000000#32] (.add noTok 4 0 (.lit64 0x0100000000000000#64)) 3 ∧
  decodesTo 0x44188EAA#32 [] (.ld noTok 6 2 3 2 2 1 0 1 2) 1 ∧
  decodesTo 0x30032000#32 [] (.brtCond noTok 0 1 1 1 0) 1 ∧
  decodesTo 0x240C2064#32 [] (.cmpi noTok 1 4 2 100) 1 ∧
  decodesTo 0x3C000192#32 [] (.fence noTok 6 2 2) 1 ∧
  decodesTo 0x54336DA0#32 [0x10040000#32] (.amo noTok 12 13 11 6 1 1 0 0 0 2) 2 ∧
  decodesTo 0x74080200#32 [0x00000008#32, 0x40800000#32] (.thr noTok 2 0 (.lit64 0x4080000000000008#64)) 3 ∧
  decodesTo 0x68191C04#32 [] (.bwait noTok 6 4 (.reg 7)) 1 ∧
  decodesTo 0xC08A000B#32 [] (.patchWord 0 2 10 0xB []) 1

/-- R166, R168, R169 and R180: an instruction that is well formed comes back from its own words, whatever words follow it, with the
number of words it takes; a patch word comes back from its own words, its literals being those that its record needs. -/
def Obligations.EncodeDecodes : Prop :=
  ∀ (i : Instr) (w : Word32) (t ls : List Word32), i.wellFormed = true → instrTemplate i = none → encode i = w :: t →
    (w.extractLsb 31 30 ≠ 3#2 → decodeWord w (t ++ ls) = some (i, 1 + t.length)) ∧
    (w.extractLsb 31 30 = 3#2 → decodeWord w t = some (i, 1))

/-- R166, R168, R169 and R180: what words decode to is encoded as those words: no two words decode to one instruction, and no bit of a
word is dropped. -/
def Obligations.DecodeEncodes : Prop :=
  ∀ (w : Word32) (ls : List Word32) (i : Instr) (n : Nat), decodeWord w ls = some (i, n) →
    (w.extractLsb 31 30 ≠ 3#2 → encode i = w :: ls.take (n - 1) ∧ n ≤ 1 + ls.length ∧ 1 ≤ n) ∧
    (w.extractLsb 31 30 = 3#2 → encode i = w :: ls.take 4 ∧ n = 1)

/-- R16, R166 and R167: in a sequencer's turn, with the power on and no event from outside waiting, the words at its PC are decoded, and the
step is the meaning of the instruction they hold, the turn passing on; words that hold none fault at decode, with SEQ_ILLEGAL where the
sequencer may not issue the major; a fault of the stream unit that is held is delivered in their place; a sequencer that may not issue takes no step but that of its turn. An event from outside comes first,
and where no power or no firmware lets anything run the step stops.
The order of turns is the model's choice (log 2). -/
def Obligations.StepRunsDecoded : Prop :=
  (∀ (s : State) (q : SeqId), s.inputs = [] → off s = false → s.pkg.power.boot ≠ .failed → s.turn = .seq q →
    (canIssue s q = false → step s = .next (s.withTurn (nextTurn q))) ∧
    (∀ s1 r, canIssue s q = true → heldFault s q (fun _ => false) = some (s1, r) →
      step s = .next ((faultDeliver s1 q r (s.seq q).popped).withTurn (nextTurn q))) ∧
    (canIssue s q = true → heldFault s q (fun _ => false) = none →
      let pc := (s.seq q).pc.toNat
      let w := s.plane.word q pc
      let ls := followers s.plane q pc 4
      (∀ (i : Instr) (n : Nat), pc < 0x8000 → announced w ≤ ls.length → (w.extractLsb 31 30 = 3#2 → q = .C) → seqAllowed w q = true →
        decodeWord w ls = some (i, n) → step s = thenTurn (exec i { s with cur := q }) (nextTurn q)) ∧
      (0x8000 ≤ pc → step s = .next ((faultPast s q).withTurn (nextTurn q))) ∧
      (pc < 0x8000 → w.extractLsb 31 30 = 3#2 → ls.length < announced w → ∃ body origin, step s =
        .next (State.withTurn { faultWord s q 0x01#8 body origin with freeCtr := s.freeCtr + 1 } (nextTurn q))) ∧
      (pc < 0x8000 → w.extractLsb 31 30 = 3#2 → q ≠ .C → announced w ≤ ls.length → ∃ c body origin, (c = 0x03#8 ∨ c = 0x01#8 ∧ ls.length < 4) ∧
        step s = .next (State.withTurn { faultWord s q c body origin with freeCtr := s.freeCtr + 1 } (nextTurn q))) ∧
      (pc < 0x8000 → w.extractLsb 31 30 ≠ 3#2 → ls.length < announced w → step s = .next ((faultBase s q w ls 0x01#8).withTurn (nextTurn q))) ∧
      (pc < 0x8000 → announced w ≤ ls.length → 0x1E ≤ (w.extractLsb 31 26).toNat → (w.extractLsb 31 26).toNat ≤ 0x2E →
        step s = .next ((faultBase s q w ls 0x01#8).withTurn (nextTurn q))) ∧
      (pc < 0x8000 → announced w ≤ ls.length → (w.extractLsb 31 26).toNat < 0x1E → seqAllowed w q = false →
        step s = .next ((faultBase s q w ls 0x03#8).withTurn (nextTurn q))) ∧
      (pc < 0x8000 → announced w ≤ ls.length → (w.extractLsb 31 30 = 3#2 → q = .C) → seqAllowed w q = true → decodeWord w ls = none →
        step s = .next ((faultBase s q w ls 0x01#8).withTurn (nextTurn q))))) ∧
  (∀ (s : State) (i : Instr) (rest : List Instr), s.inputs = i :: rest → isEvent i = true → step s = exec i { s with inputs := rest }) ∧
  (∀ s : State, s.inputs = [] → off s = true → step s = .fault .poweredOff) ∧
  (∀ s : State, s.inputs = [] → off s = false → s.pkg.power.boot = .failed → step s = .fault .bootHalted) ∧
  (∀ s : State, s.inputs = [] → off s = false → s.pkg.power.boot ≠ .failed → s.turn = .tick → step s = thenTurn (exec .timeTick s) (.seq .S))

/-- No write in flight of these is to the x register. -/
def noWriteX (l : List Pending) (r : BitVec 4) : Prop := ∀ p ∈ l, ∀ v o, Write.x r v o ∉ p.writes

/-- R15, R22 and R23: x0 reads zero; a register that no instruction in flight writes reads as it stands; one that a single instruction in
flight writes reads as its result once the bound has come, and before that as the old value or the result.
That a result is there from its bound on and not before, and which of the values a read inside the window returns, is the model's choice (log 3 and 4). -/
def Obligations.RegisterReads : Prop :=
  ∀ (s : State) (q : SeqId) (tag : Nat),
    s.readX q 0 tag = (0, none) ∧
    (∀ r : BitVec 4, r ≠ 0 →
      (noWriteX (s.seq q).pend r → s.readX q r tag = ((s.seq q).x.get r, (s.seq q).xPoison.get r)) ∧
      (∀ (a b : List Pending) (p : Pending) (v : Word64) (o : Option Poison), (s.seq q).pend = a ++ p :: b → noWriteX a r → noWriteX b r →
        p.writes = [.x r v o] →
        (p.due ≤ s.core.cycle → s.readX q r tag = (v, o)) ∧
        (s.core.cycle < p.due → s.readX q r tag = ((s.seq q).x.get r, (s.seq q).xPoison.get r) ∨ s.readX q r tag = (v, o))))

/-- R36, R227, R229, R370, R371, R408, R428, R452 and R455: after reset TIME is 0, the fault record registers are zero, each yard's window and each
tier engine's registers hold the resets of their tables, world 0 is LIVE and every other world FREE, each port is enabled and not trained, the
cap is 4,200 W with no throttling, no launch is known and the core is idle.
Of what it names, the idle core without a task and the cleared memory are the model's choice where R36, R46, R370 to R372, R408, R428, R452 and R455 give no value (log 5 and 6). -/
def Obligations.ResetLeaves : Prop :=
  let s := State.reset
  s.pkg.time = 0 ∧ s.task.faults = FaultRec.none ∧
  (∀ d : BitVec 2, let y := s.pkg.yards.get d
    y.state = 0 ∧ y.mirroring = false ∧ y.qtBase = 0 ∧ y.jBase = 0 ∧ y.jMirror = 0 ∧ y.jSize = 0 ∧ y.regBase = 0 ∧ y.schedBase = 0 ∧
      y.ageTick = 250000 ∧ y.quantum = 2500000 ∧ y.stageMax = 2500000 ∧ y.logBase = 0 ∧ y.cmdErr = 0) ∧
  (∀ d : BitVec 2, let c := (s.pkg.tiers.get d).ctl
    c.extractLsb 63 32 = 250000#32 ∧ c.extractLsb 31 24 = 0#8 ∧ c.extractLsb 23 16 = 16#8 ∧ c.extractLsb 15 12 = 4#4 ∧
      c.extractLsb 11 8 = 1#4 ∧ c.extractLsb 7 0 = 0#8) ∧
  (∀ d : BitVec 2, let c := (s.pkg.tiers.get d).thr
    c.extractLsb 63 48 = 64#16 ∧ c.extractLsb 47 32 = 4#16 ∧ c.extractLsb 31 16 = 512#16 ∧ c.extractLsb 15 0 = 128#16) ∧
  (s.pkg.security.worlds.get 0).state = .live ∧ (∀ w : BitVec 6, w ≠ 0 → (s.pkg.security.worlds.get w).state = .free) ∧
  (∀ n : Fin 18, s.pkg.ports[n].en = true ∧ s.pkg.ports[n].up = false ∧ s.pkg.ports[n].width = 0 ∧ s.pkg.ports[n].retrains = 0 ∧
    s.pkg.ports[n].peer = 0) ∧
  s.pkg.power.capw = 4200 ∧ s.pkg.power.throt = false ∧ s.pkg.launches = [] ∧ s.core.run = .idle ∧ Safety.memOk s ∧ Safety.zeroOk s

/-- Memory keeps its canonical form through every step, from every state that has it.
The canonical form and the zero that an unlisted byte reads as are the model's choice (log 5). -/
def Obligations.StepKeepsMemory : Prop :=
  ∀ s t : State, Safety.memOk s → step s = .next t → Safety.memOk t

/-! ## Statements of several claims -/

/-- ALU instructions and immediate forms. -/
def Obligations.ScalarArithmetic : Prop :=
  Claims.AluTwoOperands ∧ Claims.BinsReplacesField ∧ Claims.AluOneOperand ∧ Claims.AluImmediate

/-- Compares, mask tests and flag instructions. -/
def Obligations.FlagsAndCompares : Prop :=
  Claims.CompareSetsFlag ∧ Claims.FlagOperations

/-- RDSR and WRSR. -/
def Obligations.SpecialRegisters : Prop :=
  Claims.RdsrReads ∧ Claims.WrsrWrites

/-- NOP, YIELD, FENCE, FENCEX and HINT. -/
def Obligations.PlainInstructions : Prop :=
  Claims.NopAndYield ∧ Claims.FencesAndHints ∧ Claims.FenceFields

/-- EXIT and SWAP. -/
def Obligations.SequencerEnds : Prop :=
  Claims.ExitEnds ∧ Claims.SwapWaits

/-- PBT and BRT. -/
def Obligations.Branches : Prop :=
  Claims.PbtPrepares ∧ Claims.BranchGoes ∧ Claims.BranchLinks

/-- LOOP and the end of a loop body. -/
def Obligations.Loops : Prop :=
  Claims.LoopStarts ∧ Claims.LoopEnds

/-- TRAP, BRK, the retired conversions and ERET. -/
def Obligations.TrapsAndReturn : Prop :=
  Claims.TrapsStop ∧ Claims.EretStarts

/-- LD, LDX, ST, STX and a store to a NOTIFY page. -/
def Obligations.LoadsAndStores : Prop :=
  Claims.LoadsRead ∧ Claims.StoresWrite ∧ Claims.StoreNotifies

/-- AMO. -/
def Obligations.Atomics : Prop :=
  Claims.AtomicsUpdate ∧ Claims.AtomicFields

/-- Where an access of each space lies, and how a global one is translated. -/
def Obligations.SpacesAndTranslation : Prop :=
  Claims.SpacesPlaced ∧ Claims.GlobalTranslated

/-- WAITM, SPLITW, the cache instructions and the pins. -/
def Obligations.MemoryControl : Prop :=
  Claims.WaitmReads ∧ Claims.SplitwSets ∧ Claims.CacheMaintenance ∧ Claims.PinsSet

/-- BINIT, BINV and what barrier objects refuse. -/
def Obligations.BarrierObjects : Prop :=
  Claims.BarrierInit ∧ Claims.BarrierRefusals ∧ Claims.ObjectErrorDelivered

/-- BARV, BARD, BEXP, BWAIT and BTEST. -/
def Obligations.BarrierArrivalsAndWaits : Prop :=
  Claims.BarrierArrivals ∧ Claims.DeferredRegistered ∧ Claims.BarrierWaits

/-- The RING group. -/
def Obligations.Rings : Prop :=
  Claims.RingInit ∧ Claims.RingClaims ∧ Claims.RingPublishes ∧ Claims.RingStatus

/-- SDEF, SSET, SGET, SADV, SRST and SPOS. -/
def Obligations.StreamSlots : Prop :=
  Claims.SdefTakes ∧ Claims.StreamFields ∧ Claims.StreamCursor

/-- SLD, SLDN, SST, SSTN and the COPY group. -/
def Obligations.EngineCommands : Prop :=
  Claims.StreamMoves ∧ Claims.CopiesQueued

/-- MKLD and MKEV. -/
def Obligations.MaskPrograms : Prop :=
  Claims.MaskProgramsLoaded ∧ Claims.MkevStarts

/-- Which pairs a mask program allows, and that the class of a tile is sound. -/
def Obligations.MaskRule : Prop :=
  Claims.PairsAllowed ∧ Claims.TileClassesSound

/-- MKCT, KMOP, KMIO and QX. -/
def Obligations.KeepMasks : Prop :=
  Claims.KeepMaskOperations ∧ Claims.KeepMaskQueues ∧ Claims.QxReads

/-- ACCT, ACCTZ, ATTQ and ATTW. -/
def Obligations.CountersAndRequests : Prop :=
  Claims.CountersWritten ∧ Claims.AttentionRequests

/-- Matrix operations at issue, stamped ones, and MSCR. -/
def Obligations.MatrixIssues : Prop :=
  Claims.MatrixIssues ∧ Claims.StampedIssues ∧ Claims.ScoresMoved

/-- What the groups of an accumulating operation and the moves leave. -/
def Obligations.MatrixResults : Prop :=
  Claims.MatrixGroups ∧ Claims.MatrixMoves ∧ Claims.BandsStored ∧ Claims.ScoutScored

/-- How a task starts, flips, ends, stops and halts. -/
def Obligations.TaskLife : Prop :=
  Claims.TaskStarts ∧ Claims.DrainPoints ∧ Claims.TaskStops

/-- Gang groups halted, saved and resumed. -/
def Obligations.GangGroups : Prop :=
  Claims.GroupsHalted ∧ Claims.GroupsResumed

/-- Yard registers, commands, resets and failures. -/
def Obligations.YardControl : Prop :=
  Claims.YardCommands ∧ Claims.YardFailures

/-- How sleeping instructions wake. -/
def Obligations.WaitsEnd : Prop :=
  Claims.WakeCompletes ∧ Claims.WaitmWakes ∧ Claims.BarrierWakes ∧ Claims.RingWakes ∧ Claims.TimeWakes

/-- Deferred arrivals and the stream unit. -/
def Obligations.EntriesAndArrivals : Prop :=
  Claims.DeferredMade ∧ Claims.EntriesMove

/-- The copy buffer and the copy engine. -/
def Obligations.CopiesRun : Prop :=
  Claims.CopyLeaves ∧ Claims.CopyMoves ∧ Claims.CopyCompletes

/-- Held operations and classifications. -/
def Obligations.MaskUnitRuns : Prop :=
  Claims.HeldIssues ∧ Claims.ClassificationEnds

/-- Slice attention requests. -/
def Obligations.AttentionRuns : Prop :=
  Claims.PagesConsumed ∧ Claims.RequestWrites ∧ Claims.RequestResults ∧ Claims.RequestsComplete

/-- Tier registers and migrations. -/
def Obligations.TierEngines : Prop :=
  Claims.TierRegisters ∧ Claims.PagesMigrate

/-- The command ring, frames, mappings and handles. -/
def Obligations.SecurityCommands : Prop :=
  Claims.CommandsAccepted ∧ Claims.FramesOwned ∧ Claims.MappingsSet ∧ Claims.HandlesManaged

/-- Worlds made, keyed, exported and destroyed. -/
def Obligations.Worlds : Prop :=
  Claims.WorldsMade ∧ Claims.WorldsKeyed

/-- Power states, the cap and power events. -/
def Obligations.PowerManagement : Prop :=
  Claims.PowerStates ∧ Claims.PowerEvents ∧ Claims.PowerCapped

/-- The loft: segments, rows and spares. -/
def Obligations.LoftProgramming : Prop :=
  Claims.LoftCommands ∧ Claims.RowsProgrammed

/-- Boot, attestation, sessions and custodian shares. -/
def Obligations.BootAndSessions : Prop :=
  Claims.BootRuns ∧ Claims.RequestsAnswered ∧ Claims.SessionsKept ∧ Claims.SharesTaken

/-- Hub accesses and link ports. -/
def Obligations.HubAndLinks : Prop :=
  Claims.HubAccesses ∧ Claims.FlitsSent ∧ Claims.PortsKept

/-- Errors, repair and management requests. -/
def Obligations.ErrorsAndRepair : Prop :=
  Claims.ErrorsTaken ∧ Claims.ColumnsRepaired ∧ Claims.ManagementServed
end

