-- ==== Sys2Proof/Laws/State.lean ====
section
/-! SUPPORT. Register files and the named updates of the state, one lemma per field: no later proof unfolds a record update. -/

namespace Sys2Proof

open Machine

/-! ## Register files -/

@[simp] theorem RegFile.get_set_same {w : Nat} {α : Type} (r : RegFile w α) (i : BitVec w) (a : α) : (r.set i a).get i = a := by
  simp [RegFile.get, RegFile.set]

theorem RegFile.get_set {w : Nat} {α : Type} (r : RegFile w α) (i j : BitVec w) (a : α) :
    (r.set i a).get j = if i = j then a else r.get j := by
  by_cases h : i = j
  · subst h; simp
  · have h' : i.toNat ≠ j.toNat := fun e => h (BitVec.eq_of_toNat_eq e)
    simp [RegFile.get, RegFile.set, h, h']

@[simp] theorem RegFile.get_set_other {w : Nat} {α : Type} (r : RegFile w α) {i j : BitVec w} (h : i ≠ j) (a : α) :
    (r.set i a).get j = r.get j := by rw [RegFile.get_set, if_neg h]

@[simp] theorem RegFile.get_fill {w : Nat} {α : Type} (a : α) (i : BitVec w) : (RegFile.fill w a).get i = a := by
  simp [RegFile.get, RegFile.fill]

@[simp] theorem RegFile.get_map {w : Nat} {α β : Type} (f : α → β) (r : RegFile w α) (i : BitVec w) :
    RegFile.get (w := w) (Vector.map f r) i = f (r.get i) := by
  simp [RegFile.get]

/-! ## The sequencers' numbers -/

@[simp] theorem SeqId.num_inj {a b : SeqId} : a.num = b.num ↔ a = b := by cases a <;> cases b <;> decide

namespace Machine

/-! ## State.withTask -/

@[simp] theorem State.withTask_task (s : State) (t : Task) : (s.withTask t).task = t := rfl
@[simp] theorem State.withTask_coreId (s : State) (t : Task) : (s.withTask t).core.coreId = s.core.coreId := rfl
@[simp] theorem State.withTask_run (s : State) (t : Task) : (s.withTask t).core.run = s.core.run := rfl
@[simp] theorem State.withTask_planes (s : State) (t : Task) : (s.withTask t).core.planes = s.core.planes := rfl
@[simp] theorem State.withTask_ready (s : State) (t : Task) : (s.withTask t).core.ready = s.core.ready := rfl
@[simp] theorem State.withTask_loading (s : State) (t : Task) : (s.withTask t).core.loading = s.core.loading := rfl
@[simp] theorem State.withTask_staged (s : State) (t : Task) : (s.withTask t).core.staged = s.core.staged := rfl
@[simp] theorem State.withTask_refused (s : State) (t : Task) : (s.withTask t).core.refused = s.core.refused := rfl
@[simp] theorem State.withTask_lastWorld (s : State) (t : Task) : (s.withTask t).core.lastWorld = s.core.lastWorld := rfl
@[simp] theorem State.withTask_resident (s : State) (t : Task) : (s.withTask t).core.resident = s.core.resident := rfl
@[simp] theorem State.withTask_l1 (s : State) (t : Task) : (s.withTask t).core.l1 = s.core.l1 := rfl
@[simp] theorem State.withTask_tlb (s : State) (t : Task) : (s.withTask t).core.tlb = s.core.tlb := rfl
@[simp] theorem State.withTask_firmware (s : State) (t : Task) : (s.withTask t).core.firmware = s.core.firmware := rfl
@[simp] theorem State.withTask_cycle (s : State) (t : Task) : (s.withTask t).core.cycle = s.core.cycle := rfl
@[simp] theorem State.withTask_haltCause (s : State) (t : Task) : (s.withTask t).core.haltCause = s.core.haltCause := rfl
@[simp] theorem State.withTask_next (s : State) (t : Task) : (s.withTask t).core.next = s.core.next := rfl
@[simp] theorem State.withTask_fw (s : State) (t : Task) : (s.withTask t).core.fw = s.core.fw := rfl
@[simp] theorem State.withTask_l1Split (s : State) (t : Task) : (s.withTask t).core.l1Split = s.core.l1Split := rfl
@[simp] theorem State.withTask_stampFrom (s : State) (t : Task) : (s.withTask t).core.stampFrom = s.core.stampFrom := rfl
@[simp] theorem State.withTask_olds (s : State) (t : Task) : (s.withTask t).core.olds = s.core.olds := rfl
@[simp] theorem State.withTask_core_task (s : State) (t : Task) : (s.withTask t).core.task = t := rfl
@[simp] theorem State.withTask_pkg (s : State) (t : Task) : (s.withTask t).pkg = s.pkg := rfl
@[simp] theorem State.withTask_mem (s : State) (t : Task) : (s.withTask t).mem = s.mem := rfl
@[simp] theorem State.withTask_bad (s : State) (t : Task) : (s.withTask t).bad = s.bad := rfl
@[simp] theorem State.withTask_inputs (s : State) (t : Task) : (s.withTask t).inputs = s.inputs := rfl
@[simp] theorem State.withTask_turn (s : State) (t : Task) : (s.withTask t).turn = s.turn := rfl
@[simp] theorem State.withTask_cur (s : State) (t : Task) : (s.withTask t).cur = s.cur := rfl
@[simp] theorem State.withTask_nextId (s : State) (t : Task) : (s.withTask t).nextId = s.nextId := rfl
@[simp] theorem State.withTask_freeCtr (s : State) (t : Task) : (s.withTask t).freeCtr = s.freeCtr := rfl
@[simp] theorem State.withTask_seq (s : State) (t : Task) (q : SeqId) : (s.withTask t).seq q = t.seqs.get q.num := rfl
@[simp] theorem State.withTask_plane (s : State) (t : Task) : (s.withTask t).plane = s.core.planes.get t.active := rfl
@[simp] theorem State.withTask_time (s : State) (t : Task) : (s.withTask t).time = s.time := rfl

/-! ## Task.withSeq -/

@[simp] theorem Task.withSeq_ident (t : Task) (p : SeqId) (x : SeqState) : (t.withSeq p x).ident = t.ident := rfl
@[simp] theorem Task.withSeq_fifos (t : Task) (p : SeqId) (x : SeqState) : (t.withSeq p x).fifos = t.fifos := rfl
@[simp] theorem Task.withSeq_q (t : Task) (p : SeqId) (x : SeqState) : (t.withSeq p x).q = t.q := rfl
@[simp] theorem Task.withSeq_o (t : Task) (p : SeqId) (x : SeqState) : (t.withSeq p x).o = t.o := rfl
@[simp] theorem Task.withSeq_v (t : Task) (p : SeqId) (x : SeqState) : (t.withSeq p x).v = t.v := rfl
@[simp] theorem Task.withSeq_vPoison (t : Task) (p : SeqId) (x : SeqState) : (t.withSeq p x).vPoison = t.vPoison := rfl
@[simp] theorem Task.withSeq_t (t : Task) (p : SeqId) (x : SeqState) : (t.withSeq p x).t = t.t := rfl
@[simp] theorem Task.withSeq_tPoison (t : Task) (p : SeqId) (x : SeqState) : (t.withSeq p x).tPoison = t.tPoison := rfl
@[simp] theorem Task.withSeq_m (t : Task) (p : SeqId) (x : SeqState) : (t.withSeq p x).m = t.m := rfl
@[simp] theorem Task.withSeq_km (t : Task) (p : SeqId) (x : SeqState) : (t.withSeq p x).km = t.km := rfl
@[simp] theorem Task.withSeq_acc (t : Task) (p : SeqId) (x : SeqState) : (t.withSeq p x).acc = t.acc := rfl
@[simp] theorem Task.withSeq_scout (t : Task) (p : SeqId) (x : SeqState) : (t.withSeq p x).scout = t.scout := rfl
@[simp] theorem Task.withSeq_fflags (t : Task) (p : SeqId) (x : SeqState) : (t.withSeq p x).fflags = t.fflags := rfl
@[simp] theorem Task.withSeq_seed (t : Task) (p : SeqId) (x : SeqState) : (t.withSeq p x).seed = t.seed := rfl
@[simp] theorem Task.withSeq_split (t : Task) (p : SeqId) (x : SeqState) : (t.withSeq p x).split = t.split := rfl
@[simp] theorem Task.withSeq_tofs (t : Task) (p : SeqId) (x : SeqState) : (t.withSeq p x).tofs = t.tofs := rfl
@[simp] theorem Task.withSeq_acct (t : Task) (p : SeqId) (x : SeqState) : (t.withSeq p x).acct = t.acct := rfl
@[simp] theorem Task.withSeq_faults (t : Task) (p : SeqId) (x : SeqState) : (t.withSeq p x).faults = t.faults := rfl
@[simp] theorem Task.withSeq_active (t : Task) (p : SeqId) (x : SeqState) : (t.withSeq p x).active = t.active := rfl
@[simp] theorem Task.withSeq_copies (t : Task) (p : SeqId) (x : SeqState) : (t.withSeq p x).copies = t.copies := rfl
@[simp] theorem Task.withSeq_mats (t : Task) (p : SeqId) (x : SeqState) : (t.withSeq p x).mats = t.mats := rfl
@[simp] theorem Task.withSeq_hold (t : Task) (p : SeqId) (x : SeqState) : (t.withSeq p x).hold = t.hold := rfl
@[simp] theorem Task.withSeq_jobs (t : Task) (p : SeqId) (x : SeqState) : (t.withSeq p x).jobs = t.jobs := rfl
@[simp] theorem Task.withSeq_deferred (t : Task) (p : SeqId) (x : SeqState) : (t.withSeq p x).deferred = t.deferred := rfl
@[simp] theorem Task.withSeq_mkevs (t : Task) (p : SeqId) (x : SeqState) : (t.withSeq p x).mkevs = t.mkevs := rfl
@[simp] theorem Task.withSeq_atts (t : Task) (p : SeqId) (x : SeqState) : (t.withSeq p x).atts = t.atts := rfl
@[simp] theorem Task.withSeq_gpins (t : Task) (p : SeqId) (x : SeqState) : (t.withSeq p x).gpins = t.gpins := rfl
@[simp] theorem Task.withSeq_pins (t : Task) (p : SeqId) (x : SeqState) : (t.withSeq p x).pins = t.pins := rfl
@[simp] theorem Task.withSeq_broken (t : Task) (p : SeqId) (x : SeqState) : (t.withSeq p x).broken = t.broken := rfl
@[simp] theorem Task.withSeq_same (t : Task) (p : SeqId) (x : SeqState) : (t.withSeq p x).seqs.get p.num = x := by simp [Task.withSeq]
theorem Task.withSeq_get (t : Task) (p q : SeqId) (x : SeqState) :
    (t.withSeq p x).seqs.get q.num = if p = q then x else t.seqs.get q.num := by
  simp [Task.withSeq, RegFile.get_set]
@[simp] theorem Task.withSeq_other (t : Task) {p q : SeqId} (h : p ≠ q) (x : SeqState) :
    (t.withSeq p x).seqs.get q.num = t.seqs.get q.num := by rw [Task.withSeq_get, if_neg h]

/-! ## State.withSeq -/

@[simp] theorem State.withSeq_task (s : State) (p : SeqId) (x : SeqState) : (s.withSeq p x).task = s.task.withSeq p x := rfl
@[simp] theorem State.withSeq_coreId (s : State) (p : SeqId) (x : SeqState) : (s.withSeq p x).core.coreId = s.core.coreId := rfl
@[simp] theorem State.withSeq_run (s : State) (p : SeqId) (x : SeqState) : (s.withSeq p x).core.run = s.core.run := rfl
@[simp] theorem State.withSeq_planes (s : State) (p : SeqId) (x : SeqState) : (s.withSeq p x).core.planes = s.core.planes := rfl
@[simp] theorem State.withSeq_ready (s : State) (p : SeqId) (x : SeqState) : (s.withSeq p x).core.ready = s.core.ready := rfl
@[simp] theorem State.withSeq_loading (s : State) (p : SeqId) (x : SeqState) : (s.withSeq p x).core.loading = s.core.loading := rfl
@[simp] theorem State.withSeq_staged (s : State) (p : SeqId) (x : SeqState) : (s.withSeq p x).core.staged = s.core.staged := rfl
@[simp] theorem State.withSeq_refused (s : State) (p : SeqId) (x : SeqState) : (s.withSeq p x).core.refused = s.core.refused := rfl
@[simp] theorem State.withSeq_lastWorld (s : State) (p : SeqId) (x : SeqState) : (s.withSeq p x).core.lastWorld = s.core.lastWorld := rfl
@[simp] theorem State.withSeq_resident (s : State) (p : SeqId) (x : SeqState) : (s.withSeq p x).core.resident = s.core.resident := rfl
@[simp] theorem State.withSeq_l1 (s : State) (p : SeqId) (x : SeqState) : (s.withSeq p x).core.l1 = s.core.l1 := rfl
@[simp] theorem State.withSeq_tlb (s : State) (p : SeqId) (x : SeqState) : (s.withSeq p x).core.tlb = s.core.tlb := rfl
@[simp] theorem State.withSeq_firmware (s : State) (p : SeqId) (x : SeqState) : (s.withSeq p x).core.firmware = s.core.firmware := rfl
@[simp] theorem State.withSeq_cycle (s : State) (p : SeqId) (x : SeqState) : (s.withSeq p x).core.cycle = s.core.cycle := rfl
@[simp] theorem State.withSeq_haltCause (s : State) (p : SeqId) (x : SeqState) : (s.withSeq p x).core.haltCause = s.core.haltCause := rfl
@[simp] theorem State.withSeq_next (s : State) (p : SeqId) (x : SeqState) : (s.withSeq p x).core.next = s.core.next := rfl
@[simp] theorem State.withSeq_fw (s : State) (p : SeqId) (x : SeqState) : (s.withSeq p x).core.fw = s.core.fw := rfl
@[simp] theorem State.withSeq_l1Split (s : State) (p : SeqId) (x : SeqState) : (s.withSeq p x).core.l1Split = s.core.l1Split := rfl
@[simp] theorem State.withSeq_stampFrom (s : State) (p : SeqId) (x : SeqState) : (s.withSeq p x).core.stampFrom = s.core.stampFrom := rfl
@[simp] theorem State.withSeq_olds (s : State) (p : SeqId) (x : SeqState) : (s.withSeq p x).core.olds = s.core.olds := rfl
@[simp] theorem State.withSeq_pkg (s : State) (p : SeqId) (x : SeqState) : (s.withSeq p x).pkg = s.pkg := rfl
@[simp] theorem State.withSeq_mem (s : State) (p : SeqId) (x : SeqState) : (s.withSeq p x).mem = s.mem := rfl
@[simp] theorem State.withSeq_bad (s : State) (p : SeqId) (x : SeqState) : (s.withSeq p x).bad = s.bad := rfl
@[simp] theorem State.withSeq_inputs (s : State) (p : SeqId) (x : SeqState) : (s.withSeq p x).inputs = s.inputs := rfl
@[simp] theorem State.withSeq_turn (s : State) (p : SeqId) (x : SeqState) : (s.withSeq p x).turn = s.turn := rfl
@[simp] theorem State.withSeq_cur (s : State) (p : SeqId) (x : SeqState) : (s.withSeq p x).cur = s.cur := rfl
@[simp] theorem State.withSeq_nextId (s : State) (p : SeqId) (x : SeqState) : (s.withSeq p x).nextId = s.nextId := rfl
@[simp] theorem State.withSeq_freeCtr (s : State) (p : SeqId) (x : SeqState) : (s.withSeq p x).freeCtr = s.freeCtr := rfl
@[simp] theorem State.withSeq_plane (s : State) (p : SeqId) (x : SeqState) : (s.withSeq p x).plane = s.plane := rfl
@[simp] theorem State.withSeq_time (s : State) (p : SeqId) (x : SeqState) : (s.withSeq p x).time = s.time := rfl
@[simp] theorem State.withSeq_same (s : State) (p : SeqId) (x : SeqState) : (s.withSeq p x).seq p = x := by simp [State.seq, State.withSeq, State.withTask]
theorem State.withSeq_seq (s : State) (p q : SeqId) (x : SeqState) : (s.withSeq p x).seq q = if p = q then x else s.seq q := by
  simp only [State.seq, State.withSeq, State.withTask, Task.withSeq_get]; rfl
@[simp] theorem State.withSeq_other (s : State) {p q : SeqId} (h : p ≠ q) (x : SeqState) : (s.withSeq p x).seq q = s.seq q := by
  rw [State.withSeq_seq, if_neg h]

/-! ## State.withPkg -/

@[simp] theorem State.withPkg_core (s : State) (p : Package) : (s.withPkg p).core = s.core := rfl
@[simp] theorem State.withPkg_pkg (s : State) (p : Package) : (s.withPkg p).pkg = p := rfl
@[simp] theorem State.withPkg_mem (s : State) (p : Package) : (s.withPkg p).mem = s.mem := rfl
@[simp] theorem State.withPkg_bad (s : State) (p : Package) : (s.withPkg p).bad = s.bad := rfl
@[simp] theorem State.withPkg_inputs (s : State) (p : Package) : (s.withPkg p).inputs = s.inputs := rfl
@[simp] theorem State.withPkg_turn (s : State) (p : Package) : (s.withPkg p).turn = s.turn := rfl
@[simp] theorem State.withPkg_cur (s : State) (p : Package) : (s.withPkg p).cur = s.cur := rfl
@[simp] theorem State.withPkg_nextId (s : State) (p : Package) : (s.withPkg p).nextId = s.nextId := rfl
@[simp] theorem State.withPkg_freeCtr (s : State) (p : Package) : (s.withPkg p).freeCtr = s.freeCtr := rfl
@[simp] theorem State.withPkg_task (s : State) (p : Package) : (s.withPkg p).task = s.task := rfl
@[simp] theorem State.withPkg_seq (s : State) (p : Package) (q : SeqId) : (s.withPkg p).seq q = s.seq q := rfl
@[simp] theorem State.withPkg_plane (s : State) (p : Package) : (s.withPkg p).plane = s.plane := rfl
@[simp] theorem State.withPkg_time (s : State) (p : Package) : (s.withPkg p).time = p.time := rfl

/-! ## State.withPlane -/

@[simp] theorem State.withPlane_pkg (s : State) (p : Plane) : (s.withPlane p).pkg = s.pkg := rfl
@[simp] theorem State.withPlane_mem (s : State) (p : Plane) : (s.withPlane p).mem = s.mem := rfl
@[simp] theorem State.withPlane_bad (s : State) (p : Plane) : (s.withPlane p).bad = s.bad := rfl
@[simp] theorem State.withPlane_inputs (s : State) (p : Plane) : (s.withPlane p).inputs = s.inputs := rfl
@[simp] theorem State.withPlane_turn (s : State) (p : Plane) : (s.withPlane p).turn = s.turn := rfl
@[simp] theorem State.withPlane_cur (s : State) (p : Plane) : (s.withPlane p).cur = s.cur := rfl
@[simp] theorem State.withPlane_nextId (s : State) (p : Plane) : (s.withPlane p).nextId = s.nextId := rfl
@[simp] theorem State.withPlane_freeCtr (s : State) (p : Plane) : (s.withPlane p).freeCtr = s.freeCtr := rfl
@[simp] theorem State.withPlane_coreId (s : State) (p : Plane) : (s.withPlane p).core.coreId = s.core.coreId := rfl
@[simp] theorem State.withPlane_run (s : State) (p : Plane) : (s.withPlane p).core.run = s.core.run := rfl
@[simp] theorem State.withPlane_task (s : State) (p : Plane) : (s.withPlane p).core.task = s.core.task := rfl
@[simp] theorem State.withPlane_ready (s : State) (p : Plane) : (s.withPlane p).core.ready = s.core.ready := rfl
@[simp] theorem State.withPlane_loading (s : State) (p : Plane) : (s.withPlane p).core.loading = s.core.loading := rfl
@[simp] theorem State.withPlane_staged (s : State) (p : Plane) : (s.withPlane p).core.staged = s.core.staged := rfl
@[simp] theorem State.withPlane_refused (s : State) (p : Plane) : (s.withPlane p).core.refused = s.core.refused := rfl
@[simp] theorem State.withPlane_lastWorld (s : State) (p : Plane) : (s.withPlane p).core.lastWorld = s.core.lastWorld := rfl
@[simp] theorem State.withPlane_resident (s : State) (p : Plane) : (s.withPlane p).core.resident = s.core.resident := rfl
@[simp] theorem State.withPlane_l1 (s : State) (p : Plane) : (s.withPlane p).core.l1 = s.core.l1 := rfl
@[simp] theorem State.withPlane_tlb (s : State) (p : Plane) : (s.withPlane p).core.tlb = s.core.tlb := rfl
@[simp] theorem State.withPlane_firmware (s : State) (p : Plane) : (s.withPlane p).core.firmware = s.core.firmware := rfl
@[simp] theorem State.withPlane_cycle (s : State) (p : Plane) : (s.withPlane p).core.cycle = s.core.cycle := rfl
@[simp] theorem State.withPlane_haltCause (s : State) (p : Plane) : (s.withPlane p).core.haltCause = s.core.haltCause := rfl
@[simp] theorem State.withPlane_next (s : State) (p : Plane) : (s.withPlane p).core.next = s.core.next := rfl
@[simp] theorem State.withPlane_fw (s : State) (p : Plane) : (s.withPlane p).core.fw = s.core.fw := rfl
@[simp] theorem State.withPlane_l1Split (s : State) (p : Plane) : (s.withPlane p).core.l1Split = s.core.l1Split := rfl
@[simp] theorem State.withPlane_stampFrom (s : State) (p : Plane) : (s.withPlane p).core.stampFrom = s.core.stampFrom := rfl
@[simp] theorem State.withPlane_olds (s : State) (p : Plane) : (s.withPlane p).core.olds = s.core.olds := rfl
@[simp] theorem State.withPlane_seq (s : State) (p : Plane) (q : SeqId) : (s.withPlane p).seq q = s.seq q := rfl
@[simp] theorem State.withPlane_plane (s : State) (p : Plane) : (s.withPlane p).plane = p := by simp [State.plane, State.withPlane]

/-! ## State.fresh and State.store -/

@[simp] theorem State.fresh_core (s : State) : s.fresh.core = s.core := rfl
@[simp] theorem State.fresh_pkg (s : State) : s.fresh.pkg = s.pkg := rfl
@[simp] theorem State.fresh_mem (s : State) : s.fresh.mem = s.mem := rfl
@[simp] theorem State.fresh_bad (s : State) : s.fresh.bad = s.bad := rfl
@[simp] theorem State.fresh_inputs (s : State) : s.fresh.inputs = s.inputs := rfl
@[simp] theorem State.fresh_turn (s : State) : s.fresh.turn = s.turn := rfl
@[simp] theorem State.fresh_cur (s : State) : s.fresh.cur = s.cur := rfl
@[simp] theorem State.fresh_nextId (s : State) : s.fresh.nextId = s.nextId + 1 := rfl
@[simp] theorem State.fresh_freeCtr (s : State) : s.fresh.freeCtr = s.freeCtr := rfl
@[simp] theorem State.store_core (s : State) (k n v : Nat) : (s.store k n v).core = s.core := rfl
@[simp] theorem State.store_pkg (s : State) (k n v : Nat) : (s.store k n v).pkg = s.pkg := rfl
@[simp] theorem State.store_inputs (s : State) (k n v : Nat) : (s.store k n v).inputs = s.inputs := rfl
@[simp] theorem State.store_turn (s : State) (k n v : Nat) : (s.store k n v).turn = s.turn := rfl
@[simp] theorem State.store_cur (s : State) (k n v : Nat) : (s.store k n v).cur = s.cur := rfl
@[simp] theorem State.store_nextId (s : State) (k n v : Nat) : (s.store k n v).nextId = s.nextId := rfl
@[simp] theorem State.store_freeCtr (s : State) (k n v : Nat) : (s.store k n v).freeCtr = s.freeCtr := rfl
@[simp] theorem State.fresh_task (s : State) : s.fresh.task = s.task := rfl
@[simp] theorem State.fresh_seq (s : State) (q : SeqId) : s.fresh.seq q = s.seq q := rfl
@[simp] theorem State.fresh_plane (s : State) : s.fresh.plane = s.plane := rfl
@[simp] theorem State.store_mem (s : State) (k n v : Nat) : (s.store k n v).mem = memWrite s.mem k n v := rfl
@[simp] theorem State.store_bad (s : State) (k n v : Nat) : (s.store k n v).bad = badAfterWrite s.bad k n := rfl
@[simp] theorem State.store_task (s : State) (k n v : Nat) : (s.store k n v).task = s.task := rfl
@[simp] theorem State.store_seq (s : State) (k n v : Nat) (q : SeqId) : (s.store k n v).seq q = s.seq q := rfl
@[simp] theorem State.store_plane (s : State) (k n v : Nat) : (s.store k n v).plane = s.plane := rfl

end Machine

end Sys2Proof
end

