-- ==== Sys2Proof/Laws/Issue.lean ====
section
/-! SUPPORT. What the issue of an instruction does when nothing holds it back, said once. -/

namespace Sys2Proof.Laws

open Sys2Proof Machine

/-! ## What the parts of an issue leave alone -/

/-- The parts of a sequencer that decide where it stands. -/
def sameStand (a b : SeqState) : Prop :=
  a.pc = b.pc ∧ a.lc = b.lc ∧ a.loops = b.loops ∧ a.delay = b.delay ∧ a.popped = b.popped

theorem armIf_stand (x : SeqState) : sameStand (armIf x) x := by
  unfold armIf; split <;> exact ⟨rfl, rfl, rfl, rfl, rfl⟩

@[simp] theorem armIf_e (x : SeqState) : (armIf x).e = x.e := by unfold armIf; split <;> rfl
@[simp] theorem armIf_reqs (x : SeqState) : (armIf x).reqs = x.reqs := by unfold armIf; split <;> rfl
@[simp] theorem armIf_popped (x : SeqState) : (armIf x).popped = x.popped := by unfold armIf; split <;> rfl

@[simp] theorem armed_seq_same (s : State) (q : SeqId) : (armed s q).seq q = armIf (s.seq q) := by
  show (s.withSeq q (armIf (s.seq q))).seq q = _; simp

@[simp] theorem armed_task_seqs (s : State) (q : SeqId) : (armed s q).task.seqs.get q.num = armIf (s.seq q) := armed_seq_same s q

@[simp] theorem armed_fifos (s : State) (q : SeqId) : (armed s q).task.fifos = s.task.fifos := rfl

theorem dropToken_stand (t : Task) (q : SeqId) (peer : BitVec 2) :
    sameStand ((dropToken t q peer).seqs.get q.num) (t.seqs.get q.num) := by
  unfold dropToken
  split
  · exact ⟨rfl, rfl, rfl, rfl, rfl⟩
  · dsimp only
    split
    · exact ⟨rfl, rfl, rfl, rfl, rfl⟩
    · rw [Task.withSeq_same]; exact ⟨rfl, rfl, rfl, rfl, rfl⟩

theorem popFences_stand (s : State) (q : SeqId) : sameStand ((popFences s q).seq q) (s.seq q) := by
  unfold popFences; rw [State.withSeq_same]; exact ⟨rfl, rfl, rfl, rfl, rfl⟩

theorem sameStand.trans {a b c : SeqState} (h : sameStand a b) (k : sameStand b c) : sameStand a c :=
  ⟨h.1.trans k.1, h.2.1.trans k.2.1, h.2.2.1.trans k.2.2.1, h.2.2.2.1.trans k.2.2.2.1, h.2.2.2.2.trans k.2.2.2.2⟩

/-- An instruction meets its effect where its sequencer stood. -/
theorem reached_stand (s : State) (q : SeqId) (i : Instr) : sameStand ((reached s q i).seq q) (s.seq q) := by
  have ha : sameStand ((armed s q).seq q) (s.seq q) := by rw [armed_seq_same]; exact armIf_stand _
  have hd : ∀ p, sameStand (((armed s q).withTask (dropToken (armed s q).task q p)).seq q) ((armed s q).seq q) := fun p => dropToken_stand _ q p
  unfold reached
  dsimp only
  split
  · split
    · exact ((popFences_stand _ q).trans (hd _)).trans ha
    · exact ha
  · exact ha

theorem endingLoops_congr {a b : SeqState} (h : sameStand a b) (p n : Nat) : endingLoops a p n = endingLoops b p n := by
  unfold endingLoops; rw [h.2.2.1]

theorem dropToken_broken (t : Task) (q : SeqId) (peer : BitVec 2) : (dropToken t q peer).broken = t.broken := by
  unfold dropToken
  split
  · rfl
  · dsimp only
    split <;> rfl

/-- Making its pop leaves the broken storage as it is. -/
theorem reached_broken (s : State) (q : SeqId) (i : Instr) : (reached s q i).task.broken = s.task.broken := by
  unfold reached
  dsimp only
  split
  · split
    · simp only [popFences, State.withSeq_task, Task.withSeq_broken, State.withTask_task, dropToken_broken]; rfl
    · rfl
  · rfl

theorem reached_readsBroken (s : State) (q : SeqId) (i : Instr) : readsBroken (reached s q i).task q i = readsBroken s.task q i := by
  have h : sameStand ((reached s q i).task.seqs.get q.num) (s.task.seqs.get q.num) := reached_stand s q i
  unfold readsBroken
  rw [reached_broken, h.1, endingLoops_congr h]

/-- A legal place holds nothing back. -/
theorem issueBody_legal {s : State} {q : SeqId} {i : Instr} {eff : State → SeqId → Effect} (h : placeLegal s q i = true) :
    issueBody (reached s q i) q i eff = eff (reached s q i) q := by
  have hs := reached_stand s q i
  simp only [placeLegal, Bool.and_eq_true, Bool.not_eq_eq_eq_not, Bool.not_true, Bool.and_eq_false_iff, decide_eq_false_iff_not,
    Bool.or_eq_false_iff] at h
  obtain ⟨⟨h0, h1⟩, h2⟩ := h
  unfold issueBody
  rw [if_neg, if_neg, if_neg]
  · rw [reached_readsBroken, h0]; exact Bool.false_ne_true
  · rw [endingLoops_congr hs, hs.1, hs.2.2.2.1]
    rintro ⟨ha, hb⟩
    rcases h2 with ⟨x, y⟩ | y
    · rcases ha with ha | ha
      · rw [ha] at x; exact absurd x (by decide)
      · exact y ha
    · exact hb (by simpa using y)
  · rw [hs.2.2.2.1]
    rintro ⟨ha, hb⟩
    rcases h1 with x | x
    · exact x ha
    · rw [hb] at x; exact absurd x (by decide)

/-! ## The issue -/

theorem popFifo_armed (s : State) (q : SeqId) (p : BitVec 2) : popFifo (armed s q).task q p = popFifo s.task q p := by
  unfold popFifo
  split
  · rfl
  · rw [armed_task_seqs, armIf_e]; rfl

theorem popValue_armed (s : State) (q : SeqId) (p : BitVec 2) (hd : Slot) :
    popValue (armed s q).task q p hd = popValue s.task q p hd := by
  unfold popValue
  rw [armed_task_seqs, armIf_reqs]; rfl

theorem pushRoom_armed (s : State) (q : SeqId) (i : Instr) : pushRoom (armed s q) q i = pushRoom s q i := rfl

/-- An instruction whose push, pop and place hold nothing back carries out its effect. -/
theorem issuePop_effect {s : State} {q : SeqId} {i : Instr} {eff : State → SeqId → Effect} {e : Effect}
    (hp : popReady s q i = true) (hl : placeLegal s q i = true) (he : eff (reached s q i) q = e) (hs : ∀ why, e ≠ .stall why) :
    issuePop (armed s q) q i eff = perform (reached s q i) q i (holdsPop s q i) e := by
  have hb := issueBody_legal (eff := eff) hl
  rw [he] at hb
  unfold issuePop holdsPop
  unfold popReady at hp
  unfold reached at hb ⊢
  cases hk : instrTokens i with
  | none =>
    simp only [hk] at hb ⊢
    rw [hb, armed_seq_same, armIf_popped]
  | some k =>
    obtain ⟨tk, peer⟩ := k
    simp only [hk, popFifo_armed, popValue_armed, armed_seq_same, armIf_popped] at hb hp ⊢
    by_cases hc : (tk.getLsbD 0 && !(s.seq q).popped) = true
    · rw [if_pos hc] at hb hp ⊢
      rw [if_pos hc]
      have h0 : tk.getLsbD 0 = true := (Bool.and_eq_true_iff.mp hc).1
      cases hq : popFifo s.task q peer with
      | nil => rw [hq] at hp; exact absurd hp Bool.false_ne_true
      | cons hd tl =>
        simp only [hq, Bool.and_eq_true_iff] at hp
        simp only [hp.1, hp.2, Bool.not_true, Bool.false_eq_true, if_false, hb, h0, Bool.true_or]
    · rw [if_neg hc] at hb hp ⊢
      rw [if_neg hc, hb]
      cases h0 : tk.getLsbD 0
      · rw [Bool.false_or]
      · have : (s.seq q).popped = true := by simpa [h0] using hc
        rw [this, Bool.true_or]

/-- An instruction that nothing holds back carries out its effect. -/
theorem issueOn_effect {s : State} {q : SeqId} {i : Instr} {eff : State → SeqId → Effect} {e : Effect}
    (h : readyOn s q i = true) (he : eff (reached s q i) q = e) (hs : ∀ why, e ≠ .stall why) :
    issueOn q i true eff s = perform (reached s q i) q i (holdsPop s q i) e := by
  simp only [readyOn, Bool.and_eq_true, Option.isNone_iff_eq_none, Bool.not_eq_eq_eq_not, Bool.not_true] at h
  obtain ⟨⟨⟨⟨⟨⟨⟨⟨⟨⟨⟨h1, h2⟩, h3⟩, h4⟩, h5⟩, h6⟩, h7⟩, h8⟩, h9⟩, h10⟩, h11⟩, h12⟩ := h
  rw [← pushRoom_armed] at h10
  unfold issueOn
  simp only [h1, h2, h3, h4, h5, h6, h7, Bool.not_true, Bool.false_eq_true, if_false, Bool.or_self]
  change (if coveredHit (armed s q).task q (instrLocs q i) = true then _ else
    if (pushTokens i && fencedPoint (armed s q) q) = true then _ else
    if (!pushRoom (armed s q) q i) = true then _ else issuePop (armed s q) q i eff) = _
  rw [h8, h9, h10]
  simp only [Bool.not_true, Bool.false_eq_true, if_false]
  exact issuePop_effect h11 h12 he hs

/-- An instruction that nothing holds back and whose effect is done has exactly that effect. -/
theorem issueOn_ready {s t : State} {q : SeqId} {i : Instr} {eff : State → SeqId → Effect} {b : Nat} {w : List Write} {f : Flow}
    (h : readyOn s q i = true) (he : eff (reached s q i) q = .done t b w f) :
    issueOn q i true eff s = issuedOn s q i t b w f := by
  rw [issueOn_effect h he (fun _ => nofun)]; cases f <;> rfl

/-- The same for the sequencer under step. -/
theorem issue_ready {s t : State} {i : Instr} {eff : State → SeqId → Effect} {b : Nat} {w : List Write} {f : Flow}
    (h : ready s i = true) (he : eff (met s i) s.cur = .done t b w f) :
    issue i eff s = .next (issuedOn s s.cur i t b w f) := by
  unfold issue; rw [issueOn_ready h he]

/-- The same for an effect that is no stall. -/
theorem issue_effect {s : State} {i : Instr} {eff : State → SeqId → Effect} {e : Effect}
    (h : ready s i = true) (he : eff (met s i) s.cur = e) (hs : ∀ why, e ≠ .stall why) :
    issue i eff s = .next (perform (met s i) s.cur i (holdsPop s s.cur i) e) := by
  unfold issue; rw [issueOn_effect h he hs]; rfl

end Sys2Proof.Laws
end

