-- ==== Sys2Proof/Laws/Operands.lean ====
section
/-! SUPPORT. Operands of an instruction that nothing holds back: clean registers and literals, sign extension. -/

namespace Sys2Proof.Laws

open Sys2Proof Machine

theorem toSigned_eq (w v : Nat) (h0 : 0 < w) : toSigned w v = (BitVec.ofNat w v).toInt := by
  unfold toSigned
  rw [BitVec.toInt_eq_toNat_cond, BitVec.toNat_ofNat]
  obtain ⟨k, rfl⟩ : ∃ k, w = k + 1 := ⟨w - 1, by omega⟩
  simp only [Nat.add_sub_cancel]
  have h2 : 2 ^ (k + 1) = 2 * 2 ^ k := by rw [Nat.pow_succ]; omega
  generalize v % 2 ^ (k + 1) = u
  rw [h2]
  by_cases h : u < 2 ^ k
  · rw [if_pos h, if_pos (by omega)]
  · rw [if_neg h, if_neg (by omega)]

theorem ofNat_ofSigned (n : Nat) (x : Int) : BitVec.ofNat n (ofSigned n x) = BitVec.ofInt n x := by
  apply BitVec.eq_of_toNat_eq
  have h1 : 0 ≤ x % ((2 ^ n : Nat) : Int) := Int.emod_nonneg _ (by have := Nat.two_pow_pos n; omega)
  have h2 : x % ((2 ^ n : Nat) : Int) < ((2 ^ n : Nat) : Int) := Int.emod_lt_of_pos _ (by have := Nat.two_pow_pos n; omega)
  rw [BitVec.toNat_ofNat, BitVec.toNat_ofInt, Nat.mod_eq_of_lt]
  · rfl
  · unfold ofSigned; omega

/-- The model's sign extension is that of bit vectors. -/
theorem sext64_eq (w v : Nat) (h0 : 0 < w) : sext64 w v = (BitVec.ofNat w v).signExtend 64 := by
  unfold sext64 BitVec.signExtend
  rw [toSigned_eq w v h0, ofNat_ofSigned]

theorem sext64_toNat {w : Nat} (x : BitVec w) (h0 : 0 < w) : sext64 w x.toNat = x.signExtend 64 := by
  rw [sext64_eq w _ h0, BitVec.ofNat_toNat, BitVec.setWidth_eq]

/-- A clean x register gives its value. -/
theorem withX_clean {s : State} {i : Instr} {r : BitVec 4} {tag : Nat} {k : Word64 → Effect} (h : cleanX s i r tag = true) :
    withX (met s i) s.cur r tag k = k (xVal s i r tag) := by
  unfold cleanX at h; unfold withX xVal
  generalize (met s i).readX s.cur r tag = p at *
  obtain ⟨v, o⟩ := p
  cases o with
  | none => rfl
  | some x => exact absurd h Bool.false_ne_true

/-- A clean second operand gives its value. -/
theorem withSrc_clean {s : State} {i : Instr} {b : Src} {tag : Nat} {k : Word64 → Effect} (h : cleanSrc s i b tag = true) :
    withSrcVal (met s i) s.cur b tag k = k (srcVal s i b tag) := by
  cases b with
  | reg r => exact withX_clean h
  | lit32 w => simp only [withSrcVal, srcVal, sext64_toNat w (by decide)]
  | lit64 w => rfl

end Sys2Proof.Laws
end

