-- ==== Sys2Proof/Laws/Frame.lean ====
section
/-! SUPPORT. What meeting an instruction and issuing it leave alone. -/

namespace Sys2Proof.Laws

open Sys2Proof Machine

/-! ## Popping a token -/

theorem dropToken_frame (t : Task) (q : SeqId) (peer : BitVec 2) :
    dropToken t q peer = { t with seqs := (dropToken t q peer).seqs, fifos := (dropToken t q peer).fifos } := by
  unfold dropToken Task.withSeq
  split
  · rfl
  · dsimp only; split <;> rfl

theorem popFences_frame (s : State) (q : SeqId) :
    popFences s q = s.withTask { s.task with seqs := (popFences s q).task.seqs } := rfl

/-! ## Meeting an instruction -/

/-- Meeting an instruction touches sequencers, token FIFOs and the free-value counter alone. -/
theorem reached_frame (s : State) (q : SeqId) (i : Instr) :
    reached s q i = { s.withTask { s.task with seqs := (reached s q i).task.seqs, fifos := (reached s q i).task.fifos } with freeCtr := s.freeCtr + 1 } := by
  have ha : armed s q = { s.withTask { s.task with seqs := (armed s q).task.seqs } with freeCtr := s.freeCtr + 1 } := rfl
  unfold reached
  dsimp only
  split
  · split
    · rw [popFences_frame, dropToken_frame, ha]; rfl
    · rfl
  · rfl

section
variable (s : State) (q : SeqId) (i : Instr)

@[simp] theorem reached_mem : (reached s q i).mem = s.mem := by rw [reached_frame]; rfl
@[simp] theorem reached_pkg : (reached s q i).pkg = s.pkg := by rw [reached_frame]; rfl
@[simp] theorem reached_bad : (reached s q i).bad = s.bad := by rw [reached_frame]; rfl
@[simp] theorem reached_inputs : (reached s q i).inputs = s.inputs := by rw [reached_frame]; rfl
@[simp] theorem reached_turn : (reached s q i).turn = s.turn := by rw [reached_frame]; rfl
@[simp] theorem reached_cur : (reached s q i).cur = s.cur := by rw [reached_frame]; rfl
@[simp] theorem reached_nextId : (reached s q i).nextId = s.nextId := by rw [reached_frame]; rfl
@[simp] theorem reached_run : (reached s q i).core.run = s.core.run := by rw [reached_frame]; rfl
@[simp] theorem reached_cycle : (reached s q i).core.cycle = s.core.cycle := by rw [reached_frame]; rfl
@[simp] theorem reached_coreId : (reached s q i).core.coreId = s.core.coreId := by rw [reached_frame]; rfl
@[simp] theorem reached_planes : (reached s q i).core.planes = s.core.planes := by rw [reached_frame]; rfl
@[simp] theorem reached_resident : (reached s q i).core.resident = s.core.resident := by rw [reached_frame]; rfl
@[simp] theorem reached_firmware : (reached s q i).core.firmware = s.core.firmware := by rw [reached_frame]; rfl
@[simp] theorem reached_ident : (reached s q i).task.ident = s.task.ident := by rw [reached_frame]; rfl
@[simp] theorem reached_tofs : (reached s q i).task.tofs = s.task.tofs := by rw [reached_frame]; rfl
@[simp] theorem reached_active : (reached s q i).task.active = s.task.active := by rw [reached_frame]; rfl
@[simp] theorem reached_faults : (reached s q i).task.faults = s.task.faults := by rw [reached_frame]; rfl
@[simp] theorem reached_time : (reached s q i).time = s.time := by unfold State.time; rw [reached_pkg]
@[simp] theorem reached_plane : (reached s q i).plane = s.plane := by
  unfold State.plane; rw [reached_planes]; show s.core.planes.get (reached s q i).task.active = _; rw [reached_active]; rfl

end

/-- Meeting an instruction leaves the other sequencers alone. -/
theorem reached_other (s : State) {q p : SeqId} (i : Instr) (h : q ≠ p) : (reached s q i).seq p = s.seq p := by
  have ha : (armed s q).seq p = s.seq p := by
    show (s.withSeq q (armIf (s.seq q))).seq p = _; simp [h]
  unfold reached
  dsimp only
  split
  · split
    · unfold popFences
      rw [State.withSeq_other _ h]
      show (dropToken (armed s q).task q _).seqs.get p.num = _
      unfold dropToken
      split
      · exact ha
      · dsimp only; split
        · exact ha
        · rw [Task.withSeq_other _ h]; exact ha
    · exact ha
  · exact ha

/-- The registers of a sequencer are as they were when it meets an instruction. -/
theorem reached_regs (s : State) (q : SeqId) (i : Instr) :
    ((reached s q i).seq q).x = (s.seq q).x ∧ ((reached s q i).seq q).f = (s.seq q).f ∧ ((reached s q i).seq q).bt = (s.seq q).bt ∧
      ((reached s q i).seq q).issueCnt = (s.seq q).issueCnt ∧ ((reached s q i).seq q).lvs = (s.seq q).lvs ∧
      ((reached s q i).seq q).halted = (s.seq q).halted ∧ ((reached s q i).seq q).wait = (s.seq q).wait := by
  have hA : ∀ x : SeqState, (armIf x).x = x.x ∧ (armIf x).f = x.f ∧ (armIf x).bt = x.bt ∧ (armIf x).issueCnt = x.issueCnt ∧
      (armIf x).lvs = x.lvs ∧ (armIf x).halted = x.halted ∧ (armIf x).wait = x.wait := by
    intro x; unfold armIf; split <;> exact ⟨rfl, rfl, rfl, rfl, rfl, rfl, rfl⟩
  have ha := hA (s.seq q)
  rw [← armed_seq_same s q] at ha
  unfold reached
  dsimp only
  split
  · split
    · unfold popFences
      rw [State.withSeq_same]
      rw [show ∀ x : State, ∀ t : Task, (x.withTask t).seq q = t.seqs.get q.num from fun _ _ => rfl]
      unfold dropToken
      split
      · exact ha
      · dsimp only; split
        · exact ha
        · rw [Task.withSeq_same]; exact ha
    · exact ha
  · exact ha

end Sys2Proof.Laws
end

