-- ==== Sys2Proof/Laws/Late.lean ====
section
/-! SUPPORT. What keeping the bytes that a late write replaced, and fixing a load, leave alone. -/

namespace Sys2Proof.Laws

open Sys2Proof Machine

section
variable (s : State) (w : Option (SeqId × BitVec 4)) (k n : Nat)

@[simp] theorem remember_mem : (s.remember w k n).mem = s.mem := rfl
@[simp] theorem remember_bad : (s.remember w k n).bad = s.bad := rfl
@[simp] theorem remember_pkg : (s.remember w k n).pkg = s.pkg := rfl
@[simp] theorem remember_inputs : (s.remember w k n).inputs = s.inputs := rfl
@[simp] theorem remember_task : (s.remember w k n).task = s.task := rfl
@[simp] theorem remember_nextId : (s.remember w k n).nextId = s.nextId + 1 := rfl
@[simp] theorem forget_mem : (s.forget k n).mem = s.mem := rfl
@[simp] theorem forget_bad : (s.forget k n).bad = s.bad := rfl
@[simp] theorem forget_pkg : (s.forget k n).pkg = s.pkg := rfl
@[simp] theorem forget_task : (s.forget k n).task = s.task := rfl

end

/-- Fixing a load changes nothing but the record of the writes that come before the loads of its sequencer. -/
theorem fixLoad_frame (s : State) (q : SeqId) (oc : BitVec 4) (inv : Bool) (k n : Nat) :
    ∃ (a : RegFile 3 Nat) (f : BitVec 8), s.fixLoad q oc inv k n = s.withSeq q { s.seq q with seen := a, newFence := f } ∨ s.fixLoad q oc inv k n = s := by
  unfold State.fixLoad
  split
  · exact ⟨RegFile.fill 3 0, 0, Or.inr rfl⟩
  · exact ⟨_, _, Or.inl rfl⟩

section
variable (s : State) (q : SeqId) (oc : BitVec 4) (inv : Bool) (k n : Nat)

@[simp] theorem fixLoad_mem : (s.fixLoad q oc inv k n).mem = s.mem := by unfold State.fixLoad; split <;> rfl
@[simp] theorem fixLoad_bad : (s.fixLoad q oc inv k n).bad = s.bad := by unfold State.fixLoad; split <;> rfl
@[simp] theorem fixLoad_pkg : (s.fixLoad q oc inv k n).pkg = s.pkg := by unfold State.fixLoad; split <;> rfl
@[simp] theorem fixLoad_inputs : (s.fixLoad q oc inv k n).inputs = s.inputs := by unfold State.fixLoad; split <;> rfl
@[simp] theorem fixLoad_nextId : (s.fixLoad q oc inv k n).nextId = s.nextId := by unfold State.fixLoad; split <;> rfl

end

/-- A load that passes no late write finds the bytes as memory holds them, outside the yard window. -/
theorem loadPlain_present (s : State) (q : SeqId) (oc : BitVec 4) (inv : Bool) (k n : Nat) (h : s.passable q oc inv k n = []) :
    s.loadPlain q oc inv k n = readKey s k n := by
  have hp : s.passed q oc inv k n = [] := by unfold State.passed; rw [h]; exact List.drop_nil
  unfold State.loadPlain readKey
  rw [hp, if_pos rfl]

end Sys2Proof.Laws
end

