-- ==== Sys2Proof/Laws/Memory.lean ====
section
/-! SUPPORT. Memory: a read after a write, what a write leaves alone, and that every operation keeps the canonical form. -/

namespace Sys2Proof.Machine

open Sys2Proof

variable {α : Type} [DecidableEq α] {d : α}

/-! ## The canonical form -/

/-- Keys above `k`, rising, and no default entry: the canonical form, as an induction needs it. -/
def cellsAbove (d : α) : Nat → List (Nat × α) → Prop
  | _, [] => True
  | k, (j, v) :: t => k ≤ j ∧ v ≠ d ∧ cellsAbove d (j + 1) t

omit [DecidableEq α] in
theorem cellsAbove_mono {k k' : Nat} {l : List (Nat × α)} (hk : k ≤ k') (h : cellsAbove d k' l) : cellsAbove d k l := by
  cases l with
  | nil => trivial
  | cons c t => exact ⟨Nat.le_trans hk h.1, h.2⟩

theorem cellsWf_cons {j : Nat} {v : α} {t : List (Nat × α)} : cellsWf d ((j, v) :: t) = true ↔ v ≠ d ∧ cellsAbove d (j + 1) t := by
  induction t generalizing j v with
  | nil => simp [cellsWf, cellsAbove]
  | cons c t ih =>
    obtain ⟨k, w⟩ := c
    simp only [cellsWf, Bool.and_eq_true, decide_eq_true_eq, Bool.not_eq_true', decide_eq_false_iff_not, ih, cellsAbove, and_assoc]
    rfl

/-- The canonical form holds exactly where every key is above nothing. -/
theorem cellsWf_iff {l : List (Nat × α)} : cellsWf d l = true ↔ cellsAbove d 0 l := by
  cases l with
  | nil => simp [cellsWf, cellsAbove]
  | cons c t => obtain ⟨j, v⟩ := c; simp [cellsWf_cons, cellsAbove]

/-! ## One cell -/

omit [DecidableEq α] in
theorem cellGet_below {k j : Nat} {l : List (Nat × α)} (h : cellsAbove d j l) (hk : k < j) : cellGet d l k = d := by
  cases l with
  | nil => rfl
  | cons c t =>
    have := h.1
    rw [cellGet, if_neg (by omega), if_pos (by omega)]

theorem cellPut_above {j k : Nat} {v : α} {l : List (Nat × α)} (h : cellsAbove d j l) (hk : j ≤ k) : cellsAbove d j (cellPut d l k v) := by
  induction l generalizing j with
  | nil =>
    unfold cellPut
    split <;> simp_all [cellsAbove]
  | cons c t ih =>
    obtain ⟨i, w⟩ := c
    obtain ⟨h1, h2, h3⟩ := h
    unfold cellPut
    split
    · split
      · exact cellsAbove_mono (by omega) h3
      · subst_vars; exact ⟨h1, ‹_›, h3⟩
    · split
      · split
        · exact ⟨h1, h2, h3⟩
        · exact ⟨hk, ‹_›, by omega, h2, h3⟩
      · exact ⟨h1, h2, ih h3 (by omega)⟩

/-- A write keeps the canonical form. -/
theorem cellPut_wf {k : Nat} {v : α} {l : List (Nat × α)} (h : cellsWf d l = true) : cellsWf d (cellPut d l k v) = true :=
  cellsWf_iff.2 (cellPut_above (cellsWf_iff.1 h) (Nat.zero_le _))

theorem cellGet_cellPut_above {j k i : Nat} {v : α} {l : List (Nat × α)} (h : cellsAbove d j l) :
    cellGet d (cellPut d l k v) i = if i = k then v else cellGet d l i := by
  induction l generalizing j with
  | nil =>
    unfold cellPut
    split
    · simp_all [cellGet]
    · simp only [cellGet, eq_comm (a := k)]
      split <;> simp_all
  | cons c t ih =>
    obtain ⟨m, w⟩ := c
    obtain ⟨h1, h2, h3⟩ := h
    unfold cellPut
    split
    · subst_vars
      split
      · subst_vars
        by_cases hi : i = m
        · simp [hi, cellGet_below h3 (Nat.lt_succ_self m)]
        · simp only [hi, if_false, cellGet, if_neg (Ne.symm hi)]
          split
          · exact cellGet_below h3 (by omega)
          · rfl
      · simp only [cellGet, eq_comm (a := m)]
        split <;> simp_all
    · split
      · split
        · subst_vars
          by_cases hi : i = k
          · subst_vars; simp only [cellGet, if_neg ‹¬ m = i›, if_pos ‹i < m›, if_true]
          · simp [hi]
        · simp only [cellGet]
          by_cases hi : i = k
          · simp [hi]
          · rw [if_neg (Ne.symm hi), if_neg hi]
            split
            · rw [if_neg (by omega), if_pos (by omega)]
            · rfl
      · by_cases hi : i = k
        · subst_vars; simp only [cellGet, if_true]; rw [if_neg ‹_›, if_neg ‹_›, ih h3, if_pos rfl]
        · simp only [cellGet, ih h3, if_neg hi]

/-- A read after a write: the value at the written key, and every other key as before. -/
theorem cellGet_cellPut {k i : Nat} {v : α} {l : List (Nat × α)} (h : cellsWf d l = true) :
    cellGet d (cellPut d l k v) i = if i = k then v else cellGet d l i := cellGet_cellPut_above (cellsWf_iff.1 h)

/-! ## Ranges of cells -/

omit [DecidableEq α] in
theorem cellsAbove_filter {p : Nat × α → Bool} {j : Nat} {l : List (Nat × α)} (h : cellsAbove d j l) : cellsAbove d j (l.filter p) := by
  induction l generalizing j with
  | nil => trivial
  | cons c t ih =>
    obtain ⟨h1, h2, h3⟩ := h
    rw [List.filter_cons]
    split
    · exact ⟨h1, h2, ih h3⟩
    · exact ih (cellsAbove_mono (by omega) h3)

/-- Entries dropped leave the canonical form. -/
theorem filter_wf {p : Nat × α → Bool} {l : List (Nat × α)} (h : cellsWf d l = true) : cellsWf d (l.filter p) = true :=
  cellsWf_iff.2 (cellsAbove_filter (cellsWf_iff.1 h))

theorem cellDrop_wf {p : Nat → Bool} {l : List (Nat × α)} (h : cellsWf d l = true) : cellsWf d (cellDrop p l) = true := filter_wf h

theorem cellClear_wf {b n : Nat} {l : List (Nat × α)} (h : cellsWf d l = true) : cellsWf d (cellClear l b n) = true := filter_wf h

omit [DecidableEq α] in
theorem cellGet_drop_above {p : Nat → Bool} {j i : Nat} {l : List (Nat × α)} (h : cellsAbove d j l) :
    cellGet d (cellDrop p l) i = if p i then d else cellGet d l i := by
  induction l generalizing j with
  | nil => simp [cellDrop, cellGet]
  | cons c t ih =>
    obtain ⟨m, w⟩ := c
    obtain ⟨h1, h2, h3⟩ := h
    simp only [cellDrop, List.filter_cons] at ih ⊢
    by_cases hm : p m = true
    · simp only [hm, Bool.not_true, Bool.false_eq_true, if_false, ih h3, cellGet]
      split
      · rfl
      · by_cases hi : m = i
        · subst hi; contradiction
        · simp only [hi, if_false]
          split
          · exact cellGet_below h3 (by omega)
          · rfl
    · simp only [hm, Bool.not_false, if_true, cellGet, ih h3]
      by_cases hi : m = i
      · subst hi; simp [hm]
      · simp only [hi, if_false]
        by_cases hp : p i = true <;> simp [hp]

/-- A range cleared reads as nothing written; every other key as before. -/
theorem cellGet_cellClear {b n i : Nat} {l : List (Nat × α)} (h : cellsWf d l = true) :
    cellGet d (cellClear l b n) i = if b ≤ i ∧ i < b + n then d else cellGet d l i := by
  rw [cellClear, cellGet_drop_above (cellsWf_iff.1 h)]
  simp only [Bool.and_eq_true, decide_eq_true_eq]

theorem cellPutAll_wf {l ws : List (Nat × α)} (h : cellsWf d l = true) : cellsWf d (cellPutAll d l ws) = true := by
  induction ws generalizing l with
  | nil => exact h
  | cons c t ih => exact ih (cellPut_wf h)

/-- A range copied leaves the canonical form. -/
theorem cellCopy_wf {a b n : Nat} {l : List (Nat × α)} (h : cellsWf d l = true) : cellsWf d (cellCopy d l a b n) = true :=
  cellPutAll_wf (cellClear_wf h)

/-! ## Bytes -/

theorem memPut_wf {m : List Host.Cell} {k : Nat} {b : Byte} (h : Memory.wf m = true) : Memory.wf (memPut m k b) = true := cellPut_wf h

theorem memGet_memPut {m : List Host.Cell} {k i : Nat} {b : Byte} (h : Memory.wf m = true) :
    memGet (memPut m k b) i = if i = k then b else memGet m i := cellGet_cellPut h

/-- Reset memory lists nothing, so it has the canonical form. -/
theorem memory_nil_wf : Memory.wf [] = true := rfl

theorem memWrite_wf {m : List Host.Cell} {k n v : Nat} (h : Memory.wf m = true) : Memory.wf (memWrite m k n v) = true := by
  induction n generalizing m k v with
  | zero => exact h
  | succ n ih => exact ih (memPut_wf h)

/-- A write of `n` bytes leaves every other byte alone. -/
theorem memGet_memWrite_other {m : List Host.Cell} {k n v i : Nat} (h : Memory.wf m = true) (hi : i < k ∨ k + n ≤ i) :
    memGet (memWrite m k n v) i = memGet m i := by
  induction n generalizing m k v with
  | zero => rfl
  | succ n ih =>
    rw [memWrite, ih (memPut_wf h) (by omega), memGet_memPut h, if_neg (by omega)]

/-- A write of `n` bytes leaves byte `u` of the value at the `u`-th key. -/
theorem memGet_memWrite {m : List Host.Cell} {k n v u : Nat} (h : Memory.wf m = true) (hu : u < n) :
    memGet (memWrite m k n v) (k + u) = BitVec.ofNat 8 (v / 256 ^ u) := by
  induction n generalizing m k v u with
  | zero => omega
  | succ n ih =>
    rw [memWrite]
    cases u with
    | zero => simp only [Nat.add_zero, Nat.pow_zero, Nat.div_one]; rw [memGet_memWrite_other (memPut_wf h) (by omega), memGet_memPut h, if_pos rfl]
    | succ u =>
      have hk : k + (u + 1) = k + 1 + u := by omega
      rw [hk, ih (memPut_wf h) (by omega), Nat.div_div_eq_div_mul, Nat.pow_succ, Nat.mul_comm]

/-- Two memories that agree on `n` bytes give one value there. -/
theorem memRead_congr {m m' : List Host.Cell} {k k' n : Nat} (h : ∀ u, u < n → memGet m (k + u) = memGet m' (k' + u)) :
    memRead m k n = memRead m' k' n := by
  induction n generalizing k k' with
  | zero => rfl
  | succ n ih =>
    have h0 := h 0 (Nat.succ_pos n)
    simp only [Nat.add_zero] at h0
    have h1 : memRead m (k + 1) n = memRead m' (k' + 1) n := ih (fun u hu => by
      have := h (u + 1) (by omega)
      rwa [Nat.add_comm u, ← Nat.add_assoc, ← Nat.add_assoc] at this)
    rw [memRead, memRead, h0, h1]

/-- A write of `n` bytes leaves a read elsewhere alone. -/
theorem memRead_memWrite_other {m : List Host.Cell} {k n v a c : Nat} (h : Memory.wf m = true) (hi : a + c ≤ k ∨ k + n ≤ a) :
    memRead (memWrite m k n v) a c = memRead m a c := memRead_congr (fun _ _ => memGet_memWrite_other h (by omega))

/-- A read after a write to the same place gives the value written. -/
theorem memRead_memWrite {m : List Host.Cell} {k n v : Nat} (h : Memory.wf m = true) : memRead (memWrite m k n v) k n = v % 256 ^ n := by
  induction n generalizing m k v with
  | zero => simp [memRead, Nat.mod_one]
  | succ n ih =>
    have h0 := memGet_memWrite (v := v) (k := k) h (Nat.succ_pos n)
    rw [Nat.add_zero, Nat.pow_zero, Nat.div_one] at h0
    rw [memRead, h0, memWrite, ih (memPut_wf h), BitVec.toNat_ofNat]
    have := Nat.mod_mul (x := v) (a := 256) (b := 256 ^ n)
    rw [← Nat.pow_succ'] at this
    exact this.symm

/-- A read of `n` bytes is below 256^n. -/
theorem memRead_lt (m : List Host.Cell) (k n : Nat) : memRead m k n < 256 ^ n := by
  induction n generalizing k with
  | zero => simp [memRead]
  | succ n ih =>
    have h1 := ih (k + 1)
    have h2 := (memGet m k).isLt
    rw [memRead, Nat.pow_succ]
    omega

/-- A store keeps the canonical form. -/
theorem store_wf {s : State} {k n v : Nat} (h : Memory.wf s.mem = true) : Memory.wf (s.store k n v).mem = true := memWrite_wf h

/-! ## Words -/

theorem memPutWords_wf {m : List Host.Cell} {k : Nat} {ws : List Word64} (h : Memory.wf m = true) : Memory.wf (memPutWords m k ws) = true := by
  induction ws generalizing m k with
  | nil => exact h
  | cons w t ih => exact ih (memWrite_wf h)

theorem memGet_memPutWords_other {m : List Host.Cell} {k i : Nat} {ws : List Word64} (h : Memory.wf m = true) (hi : i < k ∨ k + 8 * ws.length ≤ i) :
    memGet (memPutWords m k ws) i = memGet m i := by
  induction ws generalizing m k with
  | nil => rfl
  | cons w t ih =>
    rw [List.length_cons] at hi
    rw [memPutWords, ih (memWrite_wf h) (by omega), memGet_memWrite_other h (by omega)]

theorem memWords_congr {m m' : List Host.Cell} {k k' n : Nat} (h : ∀ u, u < 8 * n → memGet m (k + u) = memGet m' (k' + u)) :
    memWords m k n = memWords m' k' n := by
  induction n generalizing k k' with
  | zero => rfl
  | succ n ih =>
    rw [memWords, memWords, memWord, memWord, memRead_congr (fun u hu => h u (by omega)), ih (fun u hu => by
      have := h (8 + u) (by omega)
      rwa [← Nat.add_assoc, ← Nat.add_assoc] at this)]

/-- The words written are the words read. -/
theorem memWords_memPutWords {m : List Host.Cell} {k : Nat} {ws : List Word64} (h : Memory.wf m = true) :
    memWords (memPutWords m k ws) k ws.length = ws := by
  induction ws generalizing m k with
  | nil => rfl
  | cons w t ih =>
    rw [memPutWords, List.length_cons, memWords, ih (memWrite_wf h), memWord,
      memRead_congr (m' := memWrite m k 8 w.toNat) (k' := k) (fun u hu => memGet_memPutWords_other (memWrite_wf h) (by omega)), memRead_memWrite h]
    have := w.isLt
    rw [Nat.mod_eq_of_lt (by omega), BitVec.ofNat_toNat, BitVec.setWidth_eq]

/-- A read of two neighbouring ranges. -/
theorem memRead_add (m : List Host.Cell) (k a b : Nat) : memRead m k (a + b) = memRead m k a + 256 ^ a * memRead m (k + a) b := by
  induction a generalizing k with
  | zero => simp [memRead]
  | succ a ih =>
    rw [Nat.succ_add, memRead, ih (k + 1), memRead, Nat.pow_succ', Nat.mul_add, ← Nat.add_assoc, Nat.mul_assoc, Nat.add_assoc k 1 a, Nat.add_comm 1 a]

theorem memWords_length (m : List Host.Cell) (k n : Nat) : (memWords m k n).length = n := by
  induction n generalizing k with
  | zero => rfl
  | succ n ih => simp [memWords, ih]

/-- One word of a run. -/
theorem memWords_getElem? (m : List Host.Cell) (k n i : Nat) (h : i < n) : (memWords m k n)[i]? = some (memWord m (k + 8 * i)) := by
  induction n generalizing k i with
  | zero => omega
  | succ n ih =>
    cases i with
    | zero => rfl
    | succ i => rw [memWords, List.getElem?_cons_succ, ih (k + 8) i (by omega), Nat.mul_succ, Nat.add_assoc, Nat.add_comm 8]

/-- A part of a run. -/
theorem memWords_drop_take (m : List Host.Cell) (k a b c : Nat) : ((memWords m k (a + b + c)).drop a).take b = memWords m (k + 8 * a) b := by
  induction a generalizing k with
  | zero =>
    rw [List.drop_zero, Nat.zero_add]
    induction b generalizing k with
    | zero => rfl
    | succ b ih => rw [Nat.succ_add, memWords, List.take_succ_cons, ih (k + 8)]; simp [memWords, Nat.add_comm, Nat.mul_comm]
  | succ a ih =>
    rw [Nat.succ_add, Nat.succ_add, memWords, List.drop_succ_cons, ih (k + 8), Nat.mul_succ, Nat.add_assoc, Nat.add_comm 8]

/-! ## Long runs of words -/

omit [DecidableEq α] in
theorem cellsAbove_append {j k : Nat} {l l' : List (Nat × α)} (h : cellsAbove d j l) (hl : ∀ c ∈ l, c.1 < k) (hj : j ≤ k) (h' : cellsAbove d k l') :
    cellsAbove d j (l ++ l') := by
  induction l generalizing j with
  | nil => exact cellsAbove_mono hj h'
  | cons c t ih =>
    obtain ⟨h1, h2, h3⟩ := h
    exact ⟨h1, h2, ih h3 (fun x hx => hl x (List.mem_cons_of_mem _ hx)) (hl c (List.mem_cons_self ..))⟩

omit [DecidableEq α] in
theorem cellGet_append_low {j k i : Nat} {l l' : List (Nat × α)} (h : cellsAbove d j l) (hl : ∀ c ∈ l, c.1 < k) (h' : cellsAbove d k l') :
    cellGet d (l ++ l') i = if i < k then cellGet d l i else cellGet d l' i := by
  induction l generalizing j with
  | nil =>
    simp only [List.nil_append, cellGet]
    split
    · exact cellGet_below h' ‹_›
    · rfl
  | cons c t ih =>
    obtain ⟨m, w⟩ := c
    have hm : m < k := hl (m, w) (List.mem_cons_self ..)
    obtain ⟨h1, h2, h3⟩ := h
    rw [List.cons_append, cellGet, ih h3 (fun x hx => hl x (List.mem_cons_of_mem _ hx)), cellGet]
    by_cases hi : m = i
    · subst hi; simp [hm]
    · simp only [hi, if_false]
      by_cases hk : i < m
      · simp [hk, Nat.lt_trans hk hm]
      · simp [hk]

/-- The bytes of one word as cells. -/
def byteCells (k v : Nat) : Nat → List Host.Cell
  | 0 => []
  | n + 1 => (if BitVec.ofNat 8 v = memDefault then [] else [(k, BitVec.ofNat 8 v)]) ++ byteCells (k + 1) (v / 256) n

theorem byteCells_eq (k v n : Nat) : byteCells k v n =
    ((List.range n).map (fun i => (k + i, BitVec.ofNat 8 (v / 2 ^ (8 * i))))).filter (fun c => !decide (c.2 = memDefault)) := by
  induction n generalizing k v with
  | zero => rfl
  | succ n ih =>
    rw [byteCells, ih, List.range_succ_eq_map, List.map_cons, List.filter_cons]
    simp only [Nat.add_zero, Nat.mul_zero, Nat.pow_zero, Nat.div_one, List.map_map, Function.comp_def, Nat.succ_eq_add_one, Bool.not_eq_true',
      decide_eq_false_iff_not]
    have hf : (fun i => (k + 1 + i, BitVec.ofNat 8 (v / 256 / 2 ^ (8 * i)))) = fun i => (k + (i + 1), BitVec.ofNat 8 (v / 2 ^ (8 * (i + 1)))) := by
      funext i
      rw [Nat.div_div_eq_div_mul, Nat.mul_add, Nat.pow_add, Nat.mul_comm 256, Nat.add_assoc, Nat.add_comm 1 i]
    rw [hf]
    split <;> simp_all

theorem byteCells_above (k v n : Nat) : cellsAbove memDefault k (byteCells k v n) ∧ ∀ c ∈ byteCells k v n, c.1 < k + n := by
  induction n generalizing k v with
  | zero => exact ⟨trivial, by simp [byteCells]⟩
  | succ n ih =>
    obtain ⟨h1, h2⟩ := ih (k + 1) (v / 256)
    rw [byteCells]
    split
    · exact ⟨cellsAbove_mono (Nat.le_succ k) h1, fun c hc => by have := h2 c (by simpa using hc); omega⟩
    · refine ⟨⟨Nat.le_refl k, ‹_›, h1⟩, fun c hc => ?_⟩
      simp only [List.cons_append, List.nil_append, List.mem_cons] at hc
      rcases hc with rfl | hc
      · simp
      · have := h2 c hc; omega

theorem cellGet_byteCells (k v n u : Nat) (hu : u < n) : cellGet memDefault (byteCells k v n) (k + u) = BitVec.ofNat 8 (v / 256 ^ u) := by
  induction n generalizing k v u with
  | zero => omega
  | succ n ih =>
    have h1 := (byteCells_above (k + 1) (v / 256) n).1
    rw [byteCells]
    cases u with
    | zero =>
      simp only [Nat.add_zero, Nat.pow_zero, Nat.div_one]
      split
      · rw [List.nil_append, cellGet_below h1 (Nat.lt_succ_self k)]; exact Eq.symm ‹_›
      · simp [cellGet]
    | succ u =>
      have h2 := ih (k + 1) (v / 256) u (by omega)
      rw [Nat.div_div_eq_div_mul, ← Nat.pow_succ', Nat.add_right_comm] at h2
      split
      · exact h2
      · simp only [List.cons_append, List.nil_append, cellGet]
        rw [if_neg (by omega), if_neg (by omega)]
        exact h2

theorem wordCells_cons (k : Nat) (w : Word64) (t : List Word64) : wordCells k (w :: t) = byteCells k w.toNat 8 ++ wordCells (k + 8) t := by
  rw [byteCells_eq]; rfl

theorem wordCells_above (k : Nat) (ws : List Word64) :
    cellsAbove memDefault k (wordCells k ws) ∧ ∀ c ∈ wordCells k ws, c.1 < k + 8 * ws.length := by
  induction ws generalizing k with
  | nil => exact ⟨trivial, by simp [wordCells]⟩
  | cons w t ih =>
    obtain ⟨h1, h2⟩ := ih (k + 8)
    obtain ⟨b1, b2⟩ := byteCells_above k w.toNat 8
    rw [wordCells_cons]
    refine ⟨cellsAbove_append b1 b2 (by omega) h1, fun c hc => ?_⟩
    rw [List.length_cons]
    rcases List.mem_append.1 hc with hc | hc
    · have := b2 c hc; omega
    · have := h2 c hc; omega

/-- The words of cells made from words. -/
theorem memWords_wordCells (k : Nat) (ws : List Word64) : memWords (wordCells k ws) k ws.length = ws := by
  induction ws generalizing k with
  | nil => rfl
  | cons w t ih =>
    have hb := byteCells_above k w.toNat 8
    have ht := wordCells_above (k + 8) t
    have hg : ∀ i, memGet (wordCells k (w :: t)) i = if i < k + 8 then memGet (byteCells k w.toNat 8) i else memGet (wordCells (k + 8) t) i := by
      intro i
      rw [wordCells_cons]
      exact cellGet_append_low hb.1 hb.2 ht.1
    have h1 : memWord (wordCells k (w :: t)) k = w := by
      have := memRead_congr (m := wordCells k (w :: t)) (m' := memWrite [] k 8 w.toNat) (k := k) (k' := k) (n := 8) (fun u hu => by
        rw [hg, if_pos (by omega), memGet_memWrite rfl hu]; exact cellGet_byteCells k w.toNat 8 u hu)
      rw [memWord, this, memRead_memWrite rfl]
      have := w.isLt
      rw [Nat.mod_eq_of_lt (by omega), BitVec.ofNat_toNat, BitVec.setWidth_eq]
    rw [List.length_cons, memWords, h1, memWords_congr (m' := wordCells (k + 8) t) (k' := k + 8) (fun u hu => by rw [hg, if_neg (by omega)]), ih]

omit [DecidableEq α] in
theorem takeWhile_lt {j k : Nat} {l : List (Nat × α)} (h : cellsAbove d j l) :
    cellsAbove d j (l.takeWhile (fun c => decide (c.1 < k))) ∧ ∀ c ∈ l.takeWhile (fun c => decide (c.1 < k)), c.1 < k := by
  induction l generalizing j with
  | nil => exact ⟨trivial, by simp⟩
  | cons c t ih =>
    obtain ⟨h1, h2, h3⟩ := h
    rw [List.takeWhile_cons]
    split
    · rename_i hc
      exact ⟨⟨h1, h2, (ih h3).1⟩, fun x hx => (List.mem_cons.1 hx).elim (fun e => by subst e; simpa using hc) ((ih h3).2 x)⟩
    · exact ⟨trivial, by simp⟩

omit [DecidableEq α] in
theorem dropWhile_lt {j k : Nat} {l : List (Nat × α)} (h : cellsAbove d j l) : cellsAbove d k (l.dropWhile (fun c => decide (c.1 < k))) := by
  induction l generalizing j with
  | nil => trivial
  | cons c t ih =>
    obtain ⟨h1, h2, h3⟩ := h
    rw [List.dropWhile_cons]
    split
    · exact ih h3
    · rename_i hc
      exact ⟨by simpa using hc, h2, h3⟩

omit [DecidableEq α] in
theorem cellGet_takeWhile {j k i : Nat} {l : List (Nat × α)} (h : cellsAbove d j l) (hi : i < k) :
    cellGet d (l.takeWhile (fun c => decide (c.1 < k))) i = cellGet d l i := by
  induction l generalizing j with
  | nil => rfl
  | cons c t ih =>
    obtain ⟨h1, h2, h3⟩ := h
    rw [List.takeWhile_cons]
    split
    · rw [cellGet, cellGet, ih h3]
    · rename_i hc
      have hc' : k ≤ c.1 := by simpa using hc
      rw [cellGet, cellGet, if_neg (by omega), if_pos (by omega)]

omit [DecidableEq α] in
theorem cellGet_dropWhile {j k i : Nat} {l : List (Nat × α)} (h : cellsAbove d j l) (hi : k ≤ i) :
    cellGet d (l.dropWhile (fun c => decide (c.1 < k))) i = cellGet d l i := by
  induction l generalizing j with
  | nil => rfl
  | cons c t ih =>
    obtain ⟨h1, h2, h3⟩ := h
    rw [List.dropWhile_cons]
    split
    · rename_i hc
      have hc' : c.1 < k := by simpa using hc
      rw [ih h3, cellGet, if_neg (by omega), if_neg (by omega)]
    · rfl

/-- A long run of words written keeps the canonical form. -/
theorem memPutRange_wf {m : List Host.Cell} {k : Nat} {ws : List Word64} (h : Memory.wf m = true) : Memory.wf (memPutRange m k ws) = true := by
  have ha := cellsWf_iff.1 h
  have hw := wordCells_above k ws
  have ht := takeWhile_lt (k := k) ha
  have hd := dropWhile_lt (k := k + 8 * ws.length) ha
  refine cellsWf_iff.2 (cellsAbove_append (k := k + 8 * ws.length) (cellsAbove_append ht.1 ht.2 (Nat.zero_le _) hw.1) (fun c hc => ?_) (Nat.zero_le _) hd)
  rcases List.mem_append.1 hc with hc | hc
  · have := ht.2 c hc; omega
  · exact hw.2 c hc

/-- A byte after a long run of words is written: of the run inside it, as before outside. -/
theorem memGet_memPutRange {m : List Host.Cell} {k i : Nat} {ws : List Word64} (h : Memory.wf m = true) :
    memGet (memPutRange m k ws) i = if k ≤ i ∧ i < k + 8 * ws.length then memGet (wordCells k ws) i else memGet m i := by
  have ha := cellsWf_iff.1 h
  have hw := wordCells_above k ws
  have ht := takeWhile_lt (k := k) ha
  have hd := dropWhile_lt (k := k + 8 * ws.length) ha
  have h1 : cellsAbove memDefault 0 (m.takeWhile (fun c => decide (c.1 < k)) ++ wordCells k ws) := cellsAbove_append ht.1 ht.2 (Nat.zero_le _) hw.1
  have h2 : ∀ c ∈ m.takeWhile (fun c => decide (c.1 < k)) ++ wordCells k ws, c.1 < k + 8 * ws.length := by
    intro c hc
    rcases List.mem_append.1 hc with hc | hc
    · have := ht.2 c hc; omega
    · exact hw.2 c hc
  unfold memGet memPutRange
  rw [cellGet_append_low h1 h2 hd]
  by_cases hi : i < k + 8 * ws.length
  · rw [if_pos hi, cellGet_append_low ht.1 ht.2 hw.1]
    by_cases hk : i < k
    · rw [if_pos hk, if_neg (by omega), cellGet_takeWhile ha hk]
    · rw [if_neg hk, if_pos (by omega)]
  · rw [if_neg hi, if_neg (by omega), cellGet_dropWhile ha (by omega)]

/-- The words written are the words read. -/
theorem memWords_memPutRange {m : List Host.Cell} {k : Nat} {ws : List Word64} (h : Memory.wf m = true) :
    memWords (memPutRange m k ws) k ws.length = ws := by
  rw [memWords_congr (m' := wordCells k ws) (k' := k) (fun u hu => by rw [memGet_memPutRange h, if_pos (by omega)]), memWords_wordCells]

end Sys2Proof.Machine
end

