-- ==== Sys2Proof/Laws/PerInstr.lean ====
section
/-! SUPPORT. A statement about every instruction as syntax, one lemma per constructor: no instruction that is well formed holds
more than five words (R166). -/

namespace Sys2Proof.Laws

open Sys2Proof

/-- A second operand takes at most two literal words (R169). -/
theorem src_words_le (b : Src) : b.words.length ≤ 2 := by cases b <;> simp [Src.words]

/-- A template kind's term carries at most four literal words. -/
theorem lits_le {c : BitVec 8} {i : TplIssue} (h : kindOk c i = true) : i.lits.length ≤ 4 := by
  simp only [kindOk, Bool.and_eq_true, decide_eq_true_eq] at h; exact h.2

/-- The second of two tests that both hold. -/
theorem and_true_right {a b : Bool} (h : (a && b) = true) : b = true := by cases a <;> simp_all

/-- An instruction that is well formed has at most five words (R166). -/
def Encoding.Statement (i : Instr) : Prop := i.wellFormed = true → (encode i).length ≤ 5

theorem Encoding.nop (k : Tok) : Encoding.Statement (.nop k) := fun _ => Nat.le_of_ble_eq_true rfl
theorem Encoding.trap (k : Tok) (c : BitVec 8) : Encoding.Statement (.trap k c) := fun _ => Nat.le_of_ble_eq_true rfl
theorem Encoding.brk (k : Tok) : Encoding.Statement (.brk k) := fun _ => Nat.le_of_ble_eq_true rfl
theorem Encoding.exit (k : Tok) (a : BitVec 4) : Encoding.Statement (.exit k a) := fun _ => Nat.le_of_ble_eq_true rfl
theorem Encoding.swap (k : Tok) : Encoding.Statement (.swap k) := fun _ => Nat.le_of_ble_eq_true rfl
theorem Encoding.yield (k : Tok) : Encoding.Statement (.yield k) := fun _ => Nat.le_of_ble_eq_true rfl
theorem Encoding.waitt (k : Tok) (d : BitVec 4) (a : BitVec 4) : Encoding.Statement (.waitt k d a) := fun _ => Nat.le_of_ble_eq_true rfl
theorem Encoding.twait (p : BitVec 2) (d : BitVec 4) (a : BitVec 4) (b : BitVec 4) : Encoding.Statement (.twait p d a b) := fun _ => Nat.le_of_ble_eq_true rfl
theorem Encoding.tcnt (p : BitVec 2) (d : BitVec 4) : Encoding.Statement (.tcnt p d) := fun _ => Nat.le_of_ble_eq_true rfl
theorem Encoding.eret : Encoding.Statement (.eret) := fun _ => Nat.le_of_ble_eq_true rfl
theorem Encoding.splitw (k : Tok) (a : BitVec 4) : Encoding.Statement (.splitw k a) := fun _ => Nat.le_of_ble_eq_true rfl
theorem Encoding.cflush (k : Tok) (a : BitVec 4) : Encoding.Statement (.cflush k a) := fun _ => Nat.le_of_ble_eq_true rfl
theorem Encoding.cinv (k : Tok) (a : BitVec 4) : Encoding.Statement (.cinv k a) := fun _ => Nat.le_of_ble_eq_true rfl
theorem Encoding.cwb (k : Tok) (a : BitVec 4) : Encoding.Statement (.cwb k a) := fun _ => Nat.le_of_ble_eq_true rfl
theorem Encoding.spin (k : Tok) (s : BitVec 2) (a : BitVec 4) : Encoding.Statement (.spin k s a) := fun _ => Nat.le_of_ble_eq_true rfl
theorem Encoding.spun (k : Tok) (s : BitVec 2) (a : BitVec 4) : Encoding.Statement (.spun k s a) := fun _ => Nat.le_of_ble_eq_true rfl
theorem Encoding.hint (k : Tok) (kk : BitVec 4) (a : BitVec 4) : Encoding.Statement (.hint k kk a) := fun _ => Nat.le_of_ble_eq_true rfl
theorem Encoding.qx (k : Tok) (d : BitVec 4) (a : BitVec 4) (f : BitVec 2) : Encoding.Statement (.qx k d a f) := fun _ => Nat.le_of_ble_eq_true rfl
theorem Encoding.add (k : Tok) (d : BitVec 4) (a : BitVec 4) (b : Src) : Encoding.Statement (.add k d a b) := fun _ => Nat.succ_le_succ (Nat.le_trans (src_words_le b) (Nat.le_of_ble_eq_true rfl))
theorem Encoding.sub (k : Tok) (d : BitVec 4) (a : BitVec 4) (b : Src) : Encoding.Statement (.sub k d a b) := fun _ => Nat.succ_le_succ (Nat.le_trans (src_words_le b) (Nat.le_of_ble_eq_true rfl))
theorem Encoding.and (k : Tok) (d : BitVec 4) (a : BitVec 4) (b : Src) : Encoding.Statement (.and k d a b) := fun _ => Nat.succ_le_succ (Nat.le_trans (src_words_le b) (Nat.le_of_ble_eq_true rfl))
theorem Encoding.or (k : Tok) (d : BitVec 4) (a : BitVec 4) (b : Src) : Encoding.Statement (.or k d a b) := fun _ => Nat.succ_le_succ (Nat.le_trans (src_words_le b) (Nat.le_of_ble_eq_true rfl))
theorem Encoding.xor (k : Tok) (d : BitVec 4) (a : BitVec 4) (b : Src) : Encoding.Statement (.xor k d a b) := fun _ => Nat.succ_le_succ (Nat.le_trans (src_words_le b) (Nat.le_of_ble_eq_true rfl))
theorem Encoding.andn (k : Tok) (d : BitVec 4) (a : BitVec 4) (b : Src) : Encoding.Statement (.andn k d a b) := fun _ => Nat.succ_le_succ (Nat.le_trans (src_words_le b) (Nat.le_of_ble_eq_true rfl))
theorem Encoding.sll (k : Tok) (d : BitVec 4) (a : BitVec 4) (b : Src) : Encoding.Statement (.sll k d a b) := fun _ => Nat.succ_le_succ (Nat.le_trans (src_words_le b) (Nat.le_of_ble_eq_true rfl))
theorem Encoding.srl (k : Tok) (d : BitVec 4) (a : BitVec 4) (b : Src) : Encoding.Statement (.srl k d a b) := fun _ => Nat.succ_le_succ (Nat.le_trans (src_words_le b) (Nat.le_of_ble_eq_true rfl))
theorem Encoding.sra (k : Tok) (d : BitVec 4) (a : BitVec 4) (b : Src) : Encoding.Statement (.sra k d a b) := fun _ => Nat.succ_le_succ (Nat.le_trans (src_words_le b) (Nat.le_of_ble_eq_true rfl))
theorem Encoding.rol (k : Tok) (d : BitVec 4) (a : BitVec 4) (b : Src) : Encoding.Statement (.rol k d a b) := fun _ => Nat.succ_le_succ (Nat.le_trans (src_words_le b) (Nat.le_of_ble_eq_true rfl))
theorem Encoding.mul (k : Tok) (d : BitVec 4) (a : BitVec 4) (b : Src) : Encoding.Statement (.mul k d a b) := fun _ => Nat.succ_le_succ (Nat.le_trans (src_words_le b) (Nat.le_of_ble_eq_true rfl))
theorem Encoding.mulh (k : Tok) (d : BitVec 4) (a : BitVec 4) (b : Src) : Encoding.Statement (.mulh k d a b) := fun _ => Nat.succ_le_succ (Nat.le_trans (src_words_le b) (Nat.le_of_ble_eq_true rfl))
theorem Encoding.mulhu (k : Tok) (d : BitVec 4) (a : BitVec 4) (b : Src) : Encoding.Statement (.mulhu k d a b) := fun _ => Nat.succ_le_succ (Nat.le_trans (src_words_le b) (Nat.le_of_ble_eq_true rfl))
theorem Encoding.div (k : Tok) (d : BitVec 4) (a : BitVec 4) (b : Src) : Encoding.Statement (.div k d a b) := fun _ => Nat.succ_le_succ (Nat.le_trans (src_words_le b) (Nat.le_of_ble_eq_true rfl))
theorem Encoding.divu (k : Tok) (d : BitVec 4) (a : BitVec 4) (b : Src) : Encoding.Statement (.divu k d a b) := fun _ => Nat.succ_le_succ (Nat.le_trans (src_words_le b) (Nat.le_of_ble_eq_true rfl))
theorem Encoding.rem (k : Tok) (d : BitVec 4) (a : BitVec 4) (b : Src) : Encoding.Statement (.rem k d a b) := fun _ => Nat.succ_le_succ (Nat.le_trans (src_words_le b) (Nat.le_of_ble_eq_true rfl))
theorem Encoding.remu (k : Tok) (d : BitVec 4) (a : BitVec 4) (b : Src) : Encoding.Statement (.remu k d a b) := fun _ => Nat.succ_le_succ (Nat.le_trans (src_words_le b) (Nat.le_of_ble_eq_true rfl))
theorem Encoding.min (k : Tok) (d : BitVec 4) (a : BitVec 4) (b : Src) : Encoding.Statement (.min k d a b) := fun _ => Nat.succ_le_succ (Nat.le_trans (src_words_le b) (Nat.le_of_ble_eq_true rfl))
theorem Encoding.max (k : Tok) (d : BitVec 4) (a : BitVec 4) (b : Src) : Encoding.Statement (.max k d a b) := fun _ => Nat.succ_le_succ (Nat.le_trans (src_words_le b) (Nat.le_of_ble_eq_true rfl))
theorem Encoding.minu (k : Tok) (d : BitVec 4) (a : BitVec 4) (b : Src) : Encoding.Statement (.minu k d a b) := fun _ => Nat.succ_le_succ (Nat.le_trans (src_words_le b) (Nat.le_of_ble_eq_true rfl))
theorem Encoding.maxu (k : Tok) (d : BitVec 4) (a : BitVec 4) (b : Src) : Encoding.Statement (.maxu k d a b) := fun _ => Nat.succ_le_succ (Nat.le_trans (src_words_le b) (Nat.le_of_ble_eq_true rfl))
theorem Encoding.clz (k : Tok) (d : BitVec 4) (a : BitVec 4) : Encoding.Statement (.clz k d a) := fun _ => Nat.le_of_ble_eq_true rfl
theorem Encoding.ctz (k : Tok) (d : BitVec 4) (a : BitVec 4) : Encoding.Statement (.ctz k d a) := fun _ => Nat.le_of_ble_eq_true rfl
theorem Encoding.popc (k : Tok) (d : BitVec 4) (a : BitVec 4) : Encoding.Statement (.popc k d a) := fun _ => Nat.le_of_ble_eq_true rfl
theorem Encoding.sextb (k : Tok) (d : BitVec 4) (a : BitVec 4) : Encoding.Statement (.sextb k d a) := fun _ => Nat.le_of_ble_eq_true rfl
theorem Encoding.sexth (k : Tok) (d : BitVec 4) (a : BitVec 4) : Encoding.Statement (.sexth k d a) := fun _ => Nat.le_of_ble_eq_true rfl
theorem Encoding.sextw (k : Tok) (d : BitVec 4) (a : BitVec 4) : Encoding.Statement (.sextw k d a) := fun _ => Nat.le_of_ble_eq_true rfl
theorem Encoding.zextw (k : Tok) (d : BitVec 4) (a : BitVec 4) : Encoding.Statement (.zextw k d a) := fun _ => Nat.le_of_ble_eq_true rfl
theorem Encoding.addsh1 (k : Tok) (d : BitVec 4) (a : BitVec 4) (b : Src) : Encoding.Statement (.addsh1 k d a b) := fun _ => Nat.succ_le_succ (Nat.le_trans (src_words_le b) (Nat.le_of_ble_eq_true rfl))
theorem Encoding.addsh2 (k : Tok) (d : BitVec 4) (a : BitVec 4) (b : Src) : Encoding.Statement (.addsh2 k d a b) := fun _ => Nat.succ_le_succ (Nat.le_trans (src_words_le b) (Nat.le_of_ble_eq_true rfl))
theorem Encoding.addsh3 (k : Tok) (d : BitVec 4) (a : BitVec 4) (b : Src) : Encoding.Statement (.addsh3 k d a b) := fun _ => Nat.succ_le_succ (Nat.le_trans (src_words_le b) (Nat.le_of_ble_eq_true rfl))
theorem Encoding.addsh4 (k : Tok) (d : BitVec 4) (a : BitVec 4) (b : Src) : Encoding.Statement (.addsh4 k d a b) := fun _ => Nat.succ_le_succ (Nat.le_trans (src_words_le b) (Nat.le_of_ble_eq_true rfl))
theorem Encoding.bext (k : Tok) (d : BitVec 4) (a : BitVec 4) (b : Src) : Encoding.Statement (.bext k d a b) := fun _ => Nat.succ_le_succ (Nat.le_trans (src_words_le b) (Nat.le_of_ble_eq_true rfl))
theorem Encoding.bins (k : Tok) (d : BitVec 4) (a : BitVec 4) (b : Src) : Encoding.Statement (.bins k d a b) := fun _ => Nat.succ_le_succ (Nat.le_trans (src_words_le b) (Nat.le_of_ble_eq_true rfl))
theorem Encoding.addw (k : Tok) (d : BitVec 4) (a : BitVec 4) (b : Src) : Encoding.Statement (.addw k d a b) := fun _ => Nat.succ_le_succ (Nat.le_trans (src_words_le b) (Nat.le_of_ble_eq_true rfl))
theorem Encoding.addi (k : Tok) (d : BitVec 4) (a : BitVec 4) (imm : BitVec 14) : Encoding.Statement (.addi k d a imm) := fun _ => Nat.le_of_ble_eq_true rfl
theorem Encoding.andi (k : Tok) (d : BitVec 4) (a : BitVec 4) (imm : BitVec 14) : Encoding.Statement (.andi k d a imm) := fun _ => Nat.le_of_ble_eq_true rfl
theorem Encoding.ori (k : Tok) (d : BitVec 4) (a : BitVec 4) (imm : BitVec 14) : Encoding.Statement (.ori k d a imm) := fun _ => Nat.le_of_ble_eq_true rfl
theorem Encoding.xori (k : Tok) (d : BitVec 4) (a : BitVec 4) (imm : BitVec 14) : Encoding.Statement (.xori k d a imm) := fun _ => Nat.le_of_ble_eq_true rfl
theorem Encoding.slli (k : Tok) (d : BitVec 4) (a : BitVec 4) (n : BitVec 6) : Encoding.Statement (.slli k d a n) := fun _ => Nat.le_of_ble_eq_true rfl
theorem Encoding.srli (k : Tok) (d : BitVec 4) (a : BitVec 4) (n : BitVec 6) : Encoding.Statement (.srli k d a n) := fun _ => Nat.le_of_ble_eq_true rfl
theorem Encoding.srai (k : Tok) (d : BitVec 4) (a : BitVec 4) (n : BitVec 6) : Encoding.Statement (.srai k d a n) := fun _ => Nat.le_of_ble_eq_true rfl
theorem Encoding.muli (k : Tok) (d : BitVec 4) (a : BitVec 4) (imm : BitVec 14) : Encoding.Statement (.muli k d a imm) := fun _ => Nat.le_of_ble_eq_true rfl
theorem Encoding.cmp (k : Tok) (f : BitVec 3) (a : BitVec 4) (b : Src) (c : BitVec 3) : Encoding.Statement (.cmp k f a b c) := fun _ => Nat.succ_le_succ (Nat.le_trans (src_words_le b) (Nat.le_of_ble_eq_true rfl))
theorem Encoding.cmpi (k : Tok) (f : BitVec 3) (c : BitVec 3) (a : BitVec 4) (imm : BitVec 12) : Encoding.Statement (.cmpi k f c a imm) := fun _ => Nat.le_of_ble_eq_true rfl
theorem Encoding.sel (k : Tok) (d : BitVec 4) (a : BitVec 4) (b : BitVec 4) (f : BitVec 3) : Encoding.Statement (.sel k d a b f) := fun _ => Nat.le_of_ble_eq_true rfl
theorem Encoding.flagAnd (k : Tok) (d : BitVec 3) (a : BitVec 3) (b : BitVec 3) : Encoding.Statement (.flagAnd k d a b) := fun _ => Nat.le_of_ble_eq_true rfl
theorem Encoding.flagOr (k : Tok) (d : BitVec 3) (a : BitVec 3) (b : BitVec 3) : Encoding.Statement (.flagOr k d a b) := fun _ => Nat.le_of_ble_eq_true rfl
theorem Encoding.flagXor (k : Tok) (d : BitVec 3) (a : BitVec 3) (b : BitVec 3) : Encoding.Statement (.flagXor k d a b) := fun _ => Nat.le_of_ble_eq_true rfl
theorem Encoding.flagNot (k : Tok) (d : BitVec 3) (a : BitVec 3) : Encoding.Statement (.flagNot k d a) := fun _ => Nat.le_of_ble_eq_true rfl
theorem Encoding.flagMov (k : Tok) (d : BitVec 3) (a : BitVec 3) : Encoding.Statement (.flagMov k d a) := fun _ => Nat.le_of_ble_eq_true rfl
theorem Encoding.flagSet (k : Tok) (d : BitVec 3) : Encoding.Statement (.flagSet k d) := fun _ => Nat.le_of_ble_eq_true rfl
theorem Encoding.flagClr (k : Tok) (d : BitVec 3) : Encoding.Statement (.flagClr k d) := fun _ => Nat.le_of_ble_eq_true rfl
theorem Encoding.flagRead (k : Tok) (d : BitVec 4) : Encoding.Statement (.flagRead k d) := fun _ => Nat.le_of_ble_eq_true rfl
theorem Encoding.vany (k : Tok) (d : BitVec 3) (a : BitVec 4) : Encoding.Statement (.vany k d a) := fun _ => Nat.le_of_ble_eq_true rfl
theorem Encoding.vall (k : Tok) (d : BitVec 3) (a : BitVec 4) : Encoding.Statement (.vall k d a) := fun _ => Nat.le_of_ble_eq_true rfl
theorem Encoding.vnone (k : Tok) (d : BitVec 3) (a : BitVec 4) : Encoding.Statement (.vnone k d a) := fun _ => Nat.le_of_ble_eq_true rfl
theorem Encoding.pbtDisp (k : Tok) (b : BitVec 2) (d : BitVec 19) : Encoding.Statement (.pbtDisp k b d) := fun _ => Nat.le_of_ble_eq_true rfl
theorem Encoding.pbtReg (k : Tok) (b : BitVec 2) (a : BitVec 4) : Encoding.Statement (.pbtReg k b a) := fun _ => Nat.le_of_ble_eq_true rfl
theorem Encoding.brtAlways (k : Tok) (b : BitVec 2) (e : BitVec 2) (kk : BitVec 1) : Encoding.Statement (.brtAlways k b e kk) := fun _ => Nat.le_of_ble_eq_true rfl
theorem Encoding.brtCond (k : Tok) (b : BitVec 2) (f : BitVec 3) (s : BitVec 1) (e : BitVec 2) (kk : BitVec 1) : Encoding.Statement (.brtCond k b f s e kk) := fun _ => Nat.le_of_ble_eq_true rfl
theorem Encoding.loop (k : Tok) (c : BitVec 2) (a : BitVec 4) (e : BitVec 16) : Encoding.Statement (.loop k c a e) := fun _ => Nat.le_of_ble_eq_true rfl
theorem Encoding.rdsr (k : Tok) (d : BitVec 4) (s : BitVec 13) : Encoding.Statement (.rdsr k d s) := fun _ => Nat.le_of_ble_eq_true rfl
theorem Encoding.wrsr (k : Tok) (a : BitVec 4) (s : BitVec 13) : Encoding.Statement (.wrsr k a s) := fun _ => Nat.le_of_ble_eq_true rfl
theorem Encoding.fence (k : Tok) (c : BitVec 16) (s : BitVec 3) (kk : BitVec 3) : Encoding.Statement (.fence k c s kk) := fun _ => Nat.le_of_ble_eq_true rfl
theorem Encoding.fencex (k : Tok) (a : BitVec 8) (b : BitVec 8) (s : BitVec 3) : Encoding.Statement (.fencex k a b s) := fun _ => Nat.le_of_ble_eq_true rfl
theorem Encoding.ld (k : Tok) (d : BitVec 4) (a : BitVec 4) (o : BitVec 4) (s : BitVec 2) (z : BitVec 2) (g : BitVec 1) (imm : BitVec 1) (r : BitVec 1) (f : BitVec 3) : Encoding.Statement (.ld k d a o s z g imm r f) := fun _ => Nat.le_of_ble_eq_true rfl
theorem Encoding.st (k : Tok) (d : BitVec 4) (a : BitVec 4) (o : BitVec 4) (s : BitVec 2) (z : BitVec 2) (g : BitVec 1) (r : BitVec 1) (f : BitVec 3) : Encoding.Statement (.st k d a o s z g r f) := fun _ => Nat.le_of_ble_eq_true rfl
theorem Encoding.ldx (k : Tok) (d : BitVec 4) (a : BitVec 4) (b : BitVec 4) (o : BitVec 4) (z : BitVec 2) (s : BitVec 2) (g : BitVec 1) (r : BitVec 1) : Encoding.Statement (.ldx k d a b o z s g r) := fun _ => Nat.le_of_ble_eq_true rfl
theorem Encoding.stx (k : Tok) (d : BitVec 4) (a : BitVec 4) (b : BitVec 4) (o : BitVec 4) (z : BitVec 2) (s : BitVec 2) (g : BitVec 1) (r : BitVec 1) : Encoding.Statement (.stx k d a b o z s g r) := fun _ => Nat.le_of_ble_eq_true rfl
theorem Encoding.amo (k : Tok) (d : BitVec 4) (a : BitVec 4) (b : BitVec 4) (op : BitVec 4) (sz : BitVec 1) (oc : BitVec 4) (scope : BitVec 3) (ord : BitVec 2) (c : BitVec 4) (sp : BitVec 2) : Encoding.Statement (.amo k d a b op sz oc scope ord c sp) := fun _ => Nat.le_of_ble_eq_true rfl
theorem Encoding.waitm (k : Tok) (d : BitVec 4) (a : BitVec 4) (b : BitVec 4) (o : BitVec 4) (z : BitVec 2) (s : BitVec 2) (g : BitVec 1) (r : BitVec 1) : Encoding.Statement (.waitm k d a b o z s g r) := fun _ => Nat.le_of_ble_eq_true rfl
theorem Encoding.sdef (k : Tok) (n : BitVec 4) (a : BitVec 4) : Encoding.Statement (.sdef k n a) := fun _ => Nat.le_of_ble_eq_true rfl
theorem Encoding.sset (k : Tok) (n : BitVec 4) (f : BitVec 4) (b : Src) : Encoding.Statement (.sset k n f b) := fun _ => Nat.succ_le_succ (Nat.le_trans (src_words_le b) (Nat.le_of_ble_eq_true rfl))
theorem Encoding.sget (k : Tok) (d : BitVec 4) (n : BitVec 4) (f : BitVec 4) : Encoding.Statement (.sget k d n f) := fun _ => Nat.le_of_ble_eq_true rfl
theorem Encoding.sld (k : Tok) (n : BitVec 3) (m : BitVec 4) : Encoding.Statement (.sld k n m) := fun _ => Nat.le_of_ble_eq_true rfl
theorem Encoding.sldn (k : Tok) (n : BitVec 3) (m : BitVec 4) (b : Src) : Encoding.Statement (.sldn k n m b) := fun _ => Nat.succ_le_succ (Nat.le_trans (src_words_le b) (Nat.le_of_ble_eq_true rfl))
theorem Encoding.sst (k : Tok) (m : BitVec 4) (n : BitVec 2) : Encoding.Statement (.sst k m n) := fun _ => Nat.le_of_ble_eq_true rfl
theorem Encoding.sstn (k : Tok) (d : BitVec 4) (m : BitVec 4) (n : BitVec 2) : Encoding.Statement (.sstn k d m n) := fun _ => Nat.le_of_ble_eq_true rfl
theorem Encoding.sadv (k : Tok) (m : BitVec 4) (b : Src) : Encoding.Statement (.sadv k m b) := fun _ => Nat.succ_le_succ (Nat.le_trans (src_words_le b) (Nat.le_of_ble_eq_true rfl))
theorem Encoding.srst (k : Tok) (m : BitVec 4) : Encoding.Statement (.srst k m) := fun _ => Nat.le_of_ble_eq_true rfl
theorem Encoding.spos (k : Tok) (d : BitVec 4) (m : BitVec 4) : Encoding.Statement (.spos k d m) := fun _ => Nat.le_of_ble_eq_true rfl
theorem Encoding.cpy (k : Tok) (a : BitVec 4) : Encoding.Statement (.cpy k a) := fun _ => Nat.le_of_ble_eq_true rfl
theorem Encoding.cpys (k : Tok) (a : BitVec 4) : Encoding.Statement (.cpys k a) := fun _ => Nat.le_of_ble_eq_true rfl
theorem Encoding.gath (k : Tok) (a : BitVec 4) : Encoding.Statement (.gath k a) := fun _ => Nat.le_of_ble_eq_true rfl
theorem Encoding.scat (k : Tok) (a : BitVec 4) : Encoding.Statement (.scat k a) := fun _ => Nat.le_of_ble_eq_true rfl
theorem Encoding.cpyq (k : Tok) (a : BitVec 4) (n : BitVec 3) : Encoding.Statement (.cpyq k a n) := fun _ => Nat.le_of_ble_eq_true rfl
theorem Encoding.cpyf (k : Tok) (a : BitVec 4) : Encoding.Statement (.cpyf k a) := fun _ => Nat.le_of_ble_eq_true rfl
theorem Encoding.rinit (k : Tok) (d : BitVec 4) (a : BitVec 4) (b : Src) : Encoding.Statement (.rinit k d a b) := fun _ => Nat.succ_le_succ (Nat.le_trans (src_words_le b) (Nat.le_of_ble_eq_true rfl))
theorem Encoding.rclaim (k : Tok) (d : BitVec 4) (a : BitVec 4) (b : Src) : Encoding.Statement (.rclaim k d a b) := fun _ => Nat.succ_le_succ (Nat.le_trans (src_words_le b) (Nat.le_of_ble_eq_true rfl))
theorem Encoding.rwfree (k : Tok) (d : BitVec 4) (a : BitVec 4) (b : Src) : Encoding.Statement (.rwfree k d a b) := fun _ => Nat.succ_le_succ (Nat.le_trans (src_words_le b) (Nat.le_of_ble_eq_true rfl))
theorem Encoding.rpub (k : Tok) (d : BitVec 4) (a : BitVec 4) (b : Src) : Encoding.Statement (.rpub k d a b) := fun _ => Nat.succ_le_succ (Nat.le_trans (src_words_le b) (Nat.le_of_ble_eq_true rfl))
theorem Encoding.rwfill (k : Tok) (d : BitVec 4) (a : BitVec 4) (b : Src) : Encoding.Statement (.rwfill k d a b) := fun _ => Nat.succ_le_succ (Nat.le_trans (src_words_le b) (Nat.le_of_ble_eq_true rfl))
theorem Encoding.rtake (k : Tok) (d : BitVec 4) (a : BitVec 4) (b : Src) : Encoding.Statement (.rtake k d a b) := fun _ => Nat.succ_le_succ (Nat.le_trans (src_words_le b) (Nat.le_of_ble_eq_true rfl))
theorem Encoding.rrel (k : Tok) (d : BitVec 4) (a : BitVec 4) (b : Src) : Encoding.Statement (.rrel k d a b) := fun _ => Nat.succ_le_succ (Nat.le_trans (src_words_le b) (Nat.le_of_ble_eq_true rfl))
theorem Encoding.rstat (k : Tok) (d : BitVec 4) (a : BitVec 4) : Encoding.Statement (.rstat k d a) := fun _ => Nat.le_of_ble_eq_true rfl
theorem Encoding.binit (k : Tok) (a : BitVec 4) (b : Src) : Encoding.Statement (.binit k a b) := fun _ => Nat.succ_le_succ (Nat.le_trans (src_words_le b) (Nat.le_of_ble_eq_true rfl))
theorem Encoding.barv (k : Tok) (a : BitVec 4) (b : Src) : Encoding.Statement (.barv k a b) := fun _ => Nat.succ_le_succ (Nat.le_trans (src_words_le b) (Nat.le_of_ble_eq_true rfl))
theorem Encoding.bard (k : Tok) (a : BitVec 4) (b : Src) : Encoding.Statement (.bard k a b) := fun _ => Nat.succ_le_succ (Nat.le_trans (src_words_le b) (Nat.le_of_ble_eq_true rfl))
theorem Encoding.bexp (k : Tok) (a : BitVec 4) (b : Src) : Encoding.Statement (.bexp k a b) := fun _ => Nat.succ_le_succ (Nat.le_trans (src_words_le b) (Nat.le_of_ble_eq_true rfl))
theorem Encoding.bwait (k : Tok) (d : BitVec 4) (a : BitVec 4) (b : Src) : Encoding.Statement (.bwait k d a b) := fun _ => Nat.succ_le_succ (Nat.le_trans (src_words_le b) (Nat.le_of_ble_eq_true rfl))
theorem Encoding.btest (k : Tok) (d : BitVec 4) (a : BitVec 4) (b : Src) : Encoding.Statement (.btest k d a b) := fun _ => Nat.succ_le_succ (Nat.le_trans (src_words_le b) (Nat.le_of_ble_eq_true rfl))
theorem Encoding.binv (k : Tok) (a : BitVec 4) : Encoding.Statement (.binv k a) := fun _ => Nat.le_of_ble_eq_true rfl
theorem Encoding.tld (k : Tok) (a : BitVec 4) (q : BitVec 1) (n : BitVec 3) : Encoding.Statement (.tld k a q n) := fun _ => Nat.le_of_ble_eq_true rfl
theorem Encoding.tset (k : Tok) (a : BitVec 4) (b : Src) : Encoding.Statement (.tset k a b) := fun _ => Nat.succ_le_succ (Nat.le_trans (src_words_le b) (Nat.le_of_ble_eq_true rfl))
theorem Encoding.tget (k : Tok) (d : BitVec 4) (a : BitVec 4) : Encoding.Statement (.tget k d a) := fun _ => Nat.le_of_ble_eq_true rfl
theorem Encoding.tclr (k : Tok) (a : BitVec 4) : Encoding.Statement (.tclr k a) := fun _ => Nat.le_of_ble_eq_true rfl
theorem Encoding.mkld (k : Tok) (s : BitVec 2) (a : BitVec 4) (b : Src) : Encoding.Statement (.mkld k s a b) := fun _ => Nat.succ_le_succ (Nat.le_trans (src_words_le b) (Nat.le_of_ble_eq_true rfl))
theorem Encoding.mkev (k : Tok) (n : BitVec 3) (a : BitVec 4) : Encoding.Statement (.mkev k n a) := fun _ => Nat.le_of_ble_eq_true rfl
theorem Encoding.mkel (k : Tok) (d : BitVec 3) (kk : BitVec 4) (b : Src) : Encoding.Statement (.mkel k d kk b) := fun _ => Nat.succ_le_succ (Nat.le_trans (src_words_le b) (Nat.le_of_ble_eq_true rfl))
theorem Encoding.mkct (k : Tok) (d : BitVec 4) (m : BitVec 1) (a : BitVec 2) (b : Src) : Encoding.Statement (.mkct k d m a b) := fun _ => Nat.succ_le_succ (Nat.le_trans (src_words_le b) (Nat.le_of_ble_eq_true rfl))
theorem Encoding.thr (k : Tok) (d : BitVec 2) (a : BitVec 2) (b : Src) : Encoding.Statement (.thr k d a b) := fun _ => Nat.succ_le_succ (Nat.le_trans (src_words_le b) (Nat.le_of_ble_eq_true rfl))
theorem Encoding.kmop (k : Tok) (d : BitVec 2) (a : BitVec 2) (b : Src) : Encoding.Statement (.kmop k d a b) := fun _ => Nat.succ_le_succ (Nat.le_trans (src_words_le b) (Nat.le_of_ble_eq_true rfl))
theorem Encoding.kmioIn (k : Tok) (h : BitVec 2) (kk : BitVec 2) (q : BitVec 1) (n : BitVec 3) : Encoding.Statement (.kmioIn k h kk q n) := fun _ => Nat.le_of_ble_eq_true rfl
theorem Encoding.kmioOut (k : Tok) (o : BitVec 2) (kk : BitVec 2) : Encoding.Statement (.kmioOut k o kk) := fun _ => Nat.le_of_ble_eq_true rfl
theorem Encoding.attq (k : Tok) (d : BitVec 4) (a : BitVec 4) : Encoding.Statement (.attq k d a) := fun _ => Nat.le_of_ble_eq_true rfl
theorem Encoding.attw (k : Tok) (d : BitVec 4) (a : BitVec 4) : Encoding.Statement (.attw k d a) := fun _ => Nat.le_of_ble_eq_true rfl
theorem Encoding.acct (k : Tok) (a : BitVec 4) (b : Src) : Encoding.Statement (.acct k a b) := fun _ => Nat.succ_le_succ (Nat.le_trans (src_words_le b) (Nat.le_of_ble_eq_true rfl))
theorem Encoding.acctz (k : Tok) (b : Src) : Encoding.Statement (.acctz k b) := fun _ => Nat.succ_le_succ (Nat.le_trans (src_words_le b) (Nat.le_of_ble_eq_true rfl))
theorem Encoding.retiredConversion (x : BitVec 26) : Encoding.Statement (.retiredConversion x) := fun _ => Nat.le_of_ble_eq_true rfl
theorem Encoding.patchWord (i : BitVec 6) (t : BitVec 2) (f : BitVec 6) (v : BitVec 16) (lits : List Word32) : Encoding.Statement (.patchWord i t f v lits) := fun h => Nat.succ_le_succ (of_decide_eq_true (and_true_right h))
theorem Encoding.vmov (i : TplIssue) : Encoding.Statement (.vmov i) := fun h => Nat.succ_le_succ (lits_le h)
theorem Encoding.vadd (i : TplIssue) : Encoding.Statement (.vadd i) := fun h => Nat.succ_le_succ (lits_le h)
theorem Encoding.vsub (i : TplIssue) : Encoding.Statement (.vsub i) := fun h => Nat.succ_le_succ (lits_le h)
theorem Encoding.vmul (i : TplIssue) : Encoding.Statement (.vmul i) := fun h => Nat.succ_le_succ (lits_le h)
theorem Encoding.vfma (i : TplIssue) : Encoding.Statement (.vfma i) := fun h => Nat.succ_le_succ (lits_le h)
theorem Encoding.vfms (i : TplIssue) : Encoding.Statement (.vfms i) := fun h => Nat.succ_le_succ (lits_le h)
theorem Encoding.vfnma (i : TplIssue) : Encoding.Statement (.vfnma i) := fun h => Nat.succ_le_succ (lits_le h)
theorem Encoding.vmin (i : TplIssue) : Encoding.Statement (.vmin i) := fun h => Nat.succ_le_succ (lits_le h)
theorem Encoding.vmax (i : TplIssue) : Encoding.Statement (.vmax i) := fun h => Nat.succ_le_succ (lits_le h)
theorem Encoding.vabs (i : TplIssue) : Encoding.Statement (.vabs i) := fun h => Nat.succ_le_succ (lits_le h)
theorem Encoding.vneg (i : TplIssue) : Encoding.Statement (.vneg i) := fun h => Nat.succ_le_succ (lits_le h)
theorem Encoding.vcmp (i : TplIssue) : Encoding.Statement (.vcmp i) := fun h => Nat.succ_le_succ (lits_le h)
theorem Encoding.vsel (i : TplIssue) : Encoding.Statement (.vsel i) := fun h => Nat.succ_le_succ (lits_le h)
theorem Encoding.vand (i : TplIssue) : Encoding.Statement (.vand i) := fun h => Nat.succ_le_succ (lits_le h)
theorem Encoding.vor (i : TplIssue) : Encoding.Statement (.vor i) := fun h => Nat.succ_le_succ (lits_le h)
theorem Encoding.vxor (i : TplIssue) : Encoding.Statement (.vxor i) := fun h => Nat.succ_le_succ (lits_le h)
theorem Encoding.vnot (i : TplIssue) : Encoding.Statement (.vnot i) := fun h => Nat.succ_le_succ (lits_le h)
theorem Encoding.vshl (i : TplIssue) : Encoding.Statement (.vshl i) := fun h => Nat.succ_le_succ (lits_le h)
theorem Encoding.vshr (i : TplIssue) : Encoding.Statement (.vshr i) := fun h => Nat.succ_le_succ (lits_le h)
theorem Encoding.vsra (i : TplIssue) : Encoding.Statement (.vsra i) := fun h => Nat.succ_le_succ (lits_le h)
theorem Encoding.vcvt (i : TplIssue) : Encoding.Statement (.vcvt i) := fun h => Nat.succ_le_succ (lits_le h)
theorem Encoding.vqnt (i : TplIssue) : Encoding.Statement (.vqnt i) := fun h => Nat.succ_le_succ (lits_le h)
theorem Encoding.vdqnt (i : TplIssue) : Encoding.Statement (.vdqnt i) := fun h => Nat.succ_le_succ (lits_le h)
theorem Encoding.vexp2 (i : TplIssue) : Encoding.Statement (.vexp2 i) := fun h => Nat.succ_le_succ (lits_le h)
theorem Encoding.vlog2 (i : TplIssue) : Encoding.Statement (.vlog2 i) := fun h => Nat.succ_le_succ (lits_le h)
theorem Encoding.vrcp (i : TplIssue) : Encoding.Statement (.vrcp i) := fun h => Nat.succ_le_succ (lits_le h)
theorem Encoding.vrsq (i : TplIssue) : Encoding.Statement (.vrsq i) := fun h => Nat.succ_le_succ (lits_le h)
theorem Encoding.vsqrt (i : TplIssue) : Encoding.Statement (.vsqrt i) := fun h => Nat.succ_le_succ (lits_le h)
theorem Encoding.vrope (i : TplIssue) : Encoding.Statement (.vrope i) := fun h => Nat.succ_le_succ (lits_le h)
theorem Encoding.vred (i : TplIssue) : Encoding.Statement (.vred i) := fun h => Nat.succ_le_succ (lits_le h)
theorem Encoding.vscan (i : TplIssue) : Encoding.Statement (.vscan i) := fun h => Nat.succ_le_succ (lits_le h)
theorem Encoding.vperm (i : TplIssue) : Encoding.Statement (.vperm i) := fun h => Nat.succ_le_succ (lits_le h)
theorem Encoding.vbcast (i : TplIssue) : Encoding.Statement (.vbcast i) := fun h => Nat.succ_le_succ (lits_le h)
theorem Encoding.vsplat (i : TplIssue) : Encoding.Statement (.vsplat i) := fun h => Nat.succ_le_succ (lits_le h)
theorem Encoding.viota (i : TplIssue) : Encoding.Statement (.viota i) := fun h => Nat.succ_le_succ (lits_le h)
theorem Encoding.vpopc (i : TplIssue) : Encoding.Statement (.vpopc i) := fun h => Nat.succ_le_succ (lits_le h)
theorem Encoding.vmlog (i : TplIssue) : Encoding.Statement (.vmlog i) := fun h => Nat.succ_le_succ (lits_le h)
theorem Encoding.vsmx (i : TplIssue) : Encoding.Statement (.vsmx i) := fun h => Nat.succ_le_succ (lits_le h)
theorem Encoding.vmrg (i : TplIssue) : Encoding.Statement (.vmrg i) := fun h => Nat.succ_le_succ (lits_le h)
theorem Encoding.vmadd (i : TplIssue) : Encoding.Statement (.vmadd i) := fun h => Nat.succ_le_succ (lits_le h)
theorem Encoding.vmsub (i : TplIssue) : Encoding.Statement (.vmsub i) := fun h => Nat.succ_le_succ (lits_le h)
theorem Encoding.vmmul (i : TplIssue) : Encoding.Statement (.vmmul i) := fun h => Nat.succ_le_succ (lits_le h)
theorem Encoding.vntt (i : TplIssue) : Encoding.Statement (.vntt i) := fun h => Nat.succ_le_succ (lits_le h)
theorem Encoding.vintt (i : TplIssue) : Encoding.Statement (.vintt i) := fun h => Nat.succ_le_succ (lits_le h)
theorem Encoding.vmred (i : TplIssue) : Encoding.Statement (.vmred i) := fun h => Nat.succ_le_succ (lits_le h)
theorem Encoding.vclamp (i : TplIssue) : Encoding.Statement (.vclamp i) := fun h => Nat.succ_le_succ (lits_le h)
theorem Encoding.vpack (i : TplIssue) : Encoding.Statement (.vpack i) := fun h => Nat.succ_le_succ (lits_le h)
theorem Encoding.vunpk (i : TplIssue) : Encoding.Statement (.vunpk i) := fun h => Nat.succ_le_succ (lits_le h)
theorem Encoding.vdot4 (i : TplIssue) : Encoding.Statement (.vdot4 i) := fun h => Nat.succ_le_succ (lits_le h)
theorem Encoding.mma (i : TplIssue) : Encoding.Statement (.mma i) := fun h => Nat.succ_le_succ (lits_le h)
theorem Encoding.mmax (i : TplIssue) : Encoding.Statement (.mmax i) := fun h => Nat.succ_le_succ (lits_le h)
theorem Encoding.mmb (i : TplIssue) : Encoding.Statement (.mmb i) := fun h => Nat.succ_le_succ (lits_le h)
theorem Encoding.mmod (i : TplIssue) : Encoding.Statement (.mmod i) := fun h => Nat.succ_le_succ (lits_le h)
theorem Encoding.mzero (i : TplIssue) : Encoding.Statement (.mzero i) := fun h => Nat.succ_le_succ (lits_le h)
theorem Encoding.mst (i : TplIssue) : Encoding.Statement (.mst i) := fun h => Nat.succ_le_succ (lits_le h)
theorem Encoding.mld (i : TplIssue) : Encoding.Statement (.mld i) := fun h => Nat.succ_le_succ (lits_le h)
theorem Encoding.madda (i : TplIssue) : Encoding.Statement (.madda i) := fun h => Nat.succ_le_succ (lits_le h)
theorem Encoding.mtrn (i : TplIssue) : Encoding.Statement (.mtrn i) := fun h => Nat.succ_le_succ (lits_le h)
theorem Encoding.scout (i : TplIssue) : Encoding.Statement (.scout i) := fun h => Nat.succ_le_succ (lits_le h)
theorem Encoding.mscr (i : TplIssue) : Encoding.Statement (.mscr i) := fun h => Nat.succ_le_succ (lits_le h)
theorem Encoding.timeTick : Encoding.Statement (.timeTick) := fun _ => Nat.le_of_ble_eq_true rfl
theorem Encoding.taskDispatch (core : BitVec 11) (lid : BitVec 14) (task : Word64) : Encoding.Statement (.taskDispatch core lid task) := fun _ => Nat.le_of_ble_eq_true rfl
theorem Encoding.planeLoadComplete : Encoding.Statement (.planeLoadComplete) := fun _ => Nat.le_of_ble_eq_true rfl
theorem Encoding.planeFlip : Encoding.Statement (.planeFlip) := fun _ => Nat.le_of_ble_eq_true rfl
theorem Encoding.successorStart : Encoding.Statement (.successorStart) := fun _ => Nat.le_of_ble_eq_true rfl
theorem Encoding.taskDrainPoint (core : BitVec 11) : Encoding.Statement (.taskDrainPoint core) := fun _ => Nat.le_of_ble_eq_true rfl
theorem Encoding.deadlockDetect : Encoding.Statement (.deadlockDetect) := fun _ => Nat.le_of_ble_eq_true rfl
theorem Encoding.preemptRequest (lid : BitVec 14) (group : Nat) : Encoding.Statement (.preemptRequest lid group) := fun _ => Nat.le_of_ble_eq_true rfl
theorem Encoding.sequencerHalt (q : SeqId) : Encoding.Statement (.sequencerHalt q) := fun _ => Nat.le_of_ble_eq_true rfl
theorem Encoding.saveImageComplete (core : BitVec 11) : Encoding.Statement (.saveImageComplete core) := fun _ => Nat.le_of_ble_eq_true rfl
theorem Encoding.faultResume (svc : Service) : Encoding.Statement (.faultResume svc) := fun _ => Nat.le_of_ble_eq_true rfl
theorem Encoding.gangResume (lid : BitVec 14) (group : Nat) : Encoding.Statement (.gangResume lid group) := fun _ => Nat.le_of_ble_eq_true rfl
theorem Encoding.drainAndClear : Encoding.Statement (.drainAndClear) := fun _ => Nat.le_of_ble_eq_true rfl
theorem Encoding.scratchRefill (page : BitVec 7) : Encoding.Statement (.scratchRefill page) := fun _ => Nat.le_of_ble_eq_true rfl
theorem Encoding.copyBufferLeave : Encoding.Statement (.copyBufferLeave) := fun _ => Nat.le_of_ble_eq_true rfl
theorem Encoding.copyPageCheck (cmd : Nat) : Encoding.Statement (.copyPageCheck cmd) := fun _ => Nat.le_of_ble_eq_true rfl
theorem Encoding.copyComplete (cmd : Nat) : Encoding.Statement (.copyComplete cmd) := fun _ => Nat.le_of_ble_eq_true rfl
theorem Encoding.stampedMatrixIssue : Encoding.Statement (.stampedMatrixIssue) := fun _ => Nat.le_of_ble_eq_true rfl
theorem Encoding.matrixGroupBoundary : Encoding.Statement (.matrixGroupBoundary) := fun _ => Nat.le_of_ble_eq_true rfl
theorem Encoding.mkevRetire : Encoding.Statement (.mkevRetire) := fun _ => Nat.le_of_ble_eq_true rfl
theorem Encoding.streamEntryMove (job : Nat) : Encoding.Statement (.streamEntryMove job) := fun _ => Nat.le_of_ble_eq_true rfl
theorem Encoding.deferredArrival : Encoding.Statement (.deferredArrival) := fun _ => Nat.le_of_ble_eq_true rfl
theorem Encoding.barrierWaitWake (q : SeqId) : Encoding.Statement (.barrierWaitWake q) := fun _ => Nat.le_of_ble_eq_true rfl
theorem Encoding.barrierTimeout (q : SeqId) : Encoding.Statement (.barrierTimeout q) := fun _ => Nat.le_of_ble_eq_true rfl
theorem Encoding.waitmWake (q : SeqId) : Encoding.Statement (.waitmWake q) := fun _ => Nat.le_of_ble_eq_true rfl
theorem Encoding.waitmLimit (q : SeqId) : Encoding.Statement (.waitmLimit q) := fun _ => Nat.le_of_ble_eq_true rfl
theorem Encoding.ringWaitWake (q : SeqId) : Encoding.Statement (.ringWaitWake q) := fun _ => Nat.le_of_ble_eq_true rfl
theorem Encoding.ringWaitTimeout (q : SeqId) : Encoding.Statement (.ringWaitTimeout q) := fun _ => Nat.le_of_ble_eq_true rfl
theorem Encoding.twaitWake (q : SeqId) : Encoding.Statement (.twaitWake q) := fun _ => Nat.le_of_ble_eq_true rfl
theorem Encoding.twaitLimit (q : SeqId) : Encoding.Statement (.twaitLimit q) := fun _ => Nat.le_of_ble_eq_true rfl
theorem Encoding.waittWake (q : SeqId) : Encoding.Statement (.waittWake q) := fun _ => Nat.le_of_ble_eq_true rfl
theorem Encoding.attqPageConsume (req : Nat) (page : Nat) : Encoding.Statement (.attqPageConsume req page) := fun _ => Nat.le_of_ble_eq_true rfl
theorem Encoding.attqDeadline (req : Nat) : Encoding.Statement (.attqDeadline req) := fun _ => Nat.le_of_ble_eq_true rfl
theorem Encoding.attqComplete (req : Nat) : Encoding.Statement (.attqComplete req) := fun _ => Nat.le_of_ble_eq_true rfl
theorem Encoding.tierEvaluation (die : BitVec 2) : Encoding.Statement (.tierEvaluation die) := fun _ => Nat.le_of_ble_eq_true rfl
theorem Encoding.migrationSwitchOver (die : BitVec 2) : Encoding.Statement (.migrationSwitchOver die) := fun _ => Nat.le_of_ble_eq_true rfl
theorem Encoding.translationWalkComplete (die : BitVec 2) (queue : BitVec 10) (va : BitVec 56) : Encoding.Statement (.translationWalkComplete die queue va) := fun _ => Nat.le_of_ble_eq_true rfl
theorem Encoding.shootdownComplete : Encoding.Statement (.shootdownComplete) := fun _ => Nat.le_of_ble_eq_true rfl
theorem Encoding.demandRewalk (lid : BitVec 14) : Encoding.Statement (.demandRewalk lid) := fun _ => Nat.le_of_ble_eq_true rfl
theorem Encoding.logRecordWrite (die : BitVec 2) : Encoding.Statement (.logRecordWrite die) := fun _ => Nat.le_of_ble_eq_true rfl
theorem Encoding.notify (die : BitVec 2) (queue : BitVec 10) : Encoding.Statement (.notify die queue) := fun _ => Nat.le_of_ble_eq_true rfl
theorem Encoding.queuePollTimer (die : BitVec 2) (queue : BitVec 10) : Encoding.Statement (.queuePollTimer die queue) := fun _ => Nat.le_of_ble_eq_true rfl
theorem Encoding.qenable (die : BitVec 2) (cmd : Word64) : Encoding.Statement (.qenable die cmd) := fun _ => Nat.le_of_ble_eq_true rfl
theorem Encoding.qdisable (die : BitVec 2) (cmd : Word64) : Encoding.Statement (.qdisable die cmd) := fun _ => Nat.le_of_ble_eq_true rfl
theorem Encoding.lresume (die : BitVec 2) (cmd : Word64) : Encoding.Statement (.lresume die cmd) := fun _ => Nat.le_of_ble_eq_true rfl
theorem Encoding.labort (die : BitVec 2) (cmd : Word64) : Encoding.Statement (.labort die cmd) := fun _ => Nat.le_of_ble_eq_true rfl
theorem Encoding.yardRegisterWrite (die : BitVec 2) (off : BitVec 27) (val : Word64) : Encoding.Statement (.yardRegisterWrite die off val) := fun _ => Nat.le_of_ble_eq_true rfl
theorem Encoding.depSignalSatisfied (lid : BitVec 14) : Encoding.Statement (.depSignalSatisfied lid) := fun _ => Nat.le_of_ble_eq_true rfl
theorem Encoding.stagingDone (lid : BitVec 14) : Encoding.Statement (.stagingDone lid) := fun _ => Nat.le_of_ble_eq_true rfl
theorem Encoding.stagemaxExpiry (lid : BitVec 14) : Encoding.Statement (.stagemaxExpiry lid) := fun _ => Nat.le_of_ble_eq_true rfl
theorem Encoding.groupPlacement (lid : BitVec 14) (group : Nat) : Encoding.Statement (.groupPlacement lid group) := fun _ => Nat.le_of_ble_eq_true rfl
theorem Encoding.agingTick (die : BitVec 2) : Encoding.Statement (.agingTick die) := fun _ => Nat.le_of_ble_eq_true rfl
theorem Encoding.launchComplete (lid : BitVec 14) : Encoding.Statement (.launchComplete lid) := fun _ => Nat.le_of_ble_eq_true rfl
theorem Encoding.yardReset (die : BitVec 2) : Encoding.Statement (.yardReset die) := fun _ => Nat.le_of_ble_eq_true rfl
theorem Encoding.dieFailure (die : BitVec 2) : Encoding.Statement (.dieFailure die) := fun _ => Nat.le_of_ble_eq_true rfl
theorem Encoding.secCommandAccept : Encoding.Statement (.secCommandAccept) := fun _ => Nat.le_of_ble_eq_true rfl
theorem Encoding.fassign (c : SecCmd) : Encoding.Statement (.fassign c) := fun _ => Nat.le_of_ble_eq_true rfl
theorem Encoding.frelease (c : SecCmd) : Encoding.Statement (.frelease c) := fun _ => Nat.le_of_ble_eq_true rfl
theorem Encoding.mapset (c : SecCmd) : Encoding.Statement (.mapset c) := fun _ => Nat.le_of_ble_eq_true rfl
theorem Encoding.hcreate (c : SecCmd) : Encoding.Statement (.hcreate c) := fun _ => Nat.le_of_ble_eq_true rfl
theorem Encoding.hretire (c : SecCmd) : Encoding.Statement (.hretire c) := fun _ => Nat.le_of_ble_eq_true rfl
theorem Encoding.wcreate (c : SecCmd) : Encoding.Statement (.wcreate c) := fun _ => Nat.le_of_ble_eq_true rfl
theorem Encoding.wdestroy (c : SecCmd) : Encoding.Statement (.wdestroy c) := fun _ => Nat.le_of_ble_eq_true rfl
theorem Encoding.krevoke (c : SecCmd) : Encoding.Statement (.krevoke c) := fun _ => Nat.le_of_ble_eq_true rfl
theorem Encoding.exportWorld (c : SecCmd) : Encoding.Statement (.exportWorld c) := fun _ => Nat.le_of_ble_eq_true rfl
theorem Encoding.importWorld (c : SecCmd) : Encoding.Statement (.importWorld c) := fun _ => Nat.le_of_ble_eq_true rfl
theorem Encoding.wstat (c : SecCmd) : Encoding.Statement (.wstat c) := fun _ => Nat.le_of_ble_eq_true rfl
theorem Encoding.pstateActive (c : SecCmd) : Encoding.Statement (.pstateActive c) := fun _ => Nat.le_of_ble_eq_true rfl
theorem Encoding.pstateBreeze (c : SecCmd) : Encoding.Statement (.pstateBreeze c) := fun _ => Nat.le_of_ble_eq_true rfl
theorem Encoding.pstateLull (c : SecCmd) : Encoding.Statement (.pstateLull c) := fun _ => Nat.le_of_ble_eq_true rfl
theorem Encoding.pstateCalm (c : SecCmd) : Encoding.Statement (.pstateCalm c) := fun _ => Nat.le_of_ble_eq_true rfl
theorem Encoding.lgrant (c : SecCmd) : Encoding.Statement (.lgrant c) := fun _ => Nat.le_of_ble_eq_true rfl
theorem Encoding.lprog (c : SecCmd) : Encoding.Statement (.lprog c) := fun _ => Nat.le_of_ble_eq_true rfl
theorem Encoding.lzero (c : SecCmd) : Encoding.Statement (.lzero c) := fun _ => Nat.le_of_ble_eq_true rfl
theorem Encoding.lpeRowProgram (die : BitVec 2) (pulse : PulseResult) : Encoding.Statement (.lpeRowProgram die pulse) := fun _ => Nat.le_of_ble_eq_true rfl
theorem Encoding.lhash (c : SecCmd) : Encoding.Statement (.lhash c) := fun _ => Nat.le_of_ble_eq_true rfl
theorem Encoding.lwear (c : SecCmd) : Encoding.Statement (.lwear c) := fun _ => Nat.le_of_ble_eq_true rfl
theorem Encoding.getVersion (sess : Nat) : Encoding.Statement (.getVersion sess) := fun _ => Nat.le_of_ble_eq_true rfl
theorem Encoding.getCapabilities (sess : Nat) : Encoding.Statement (.getCapabilities sess) := fun _ => Nat.le_of_ble_eq_true rfl
theorem Encoding.negotiateAlgorithms (sess : Nat) : Encoding.Statement (.negotiateAlgorithms sess) := fun _ => Nat.le_of_ble_eq_true rfl
theorem Encoding.getDigests (sess : Nat) : Encoding.Statement (.getDigests sess) := fun _ => Nat.le_of_ble_eq_true rfl
theorem Encoding.getCertificate (sess : Nat) : Encoding.Statement (.getCertificate sess) := fun _ => Nat.le_of_ble_eq_true rfl
theorem Encoding.challenge (sess : Nat) (nonce : BitVec 256) : Encoding.Statement (.challenge sess nonce) := fun _ => Nat.le_of_ble_eq_true rfl
theorem Encoding.getMeasurements (sess : Nat) (nonce : BitVec 256) (index : BitVec 8) : Encoding.Statement (.getMeasurements sess nonce index) := fun _ => Nat.le_of_ble_eq_true rfl
theorem Encoding.keyExchange (req : BitVec 384) : Encoding.Statement (.keyExchange req) := fun _ => Nat.le_of_ble_eq_true rfl
theorem Encoding.finish (sess : Nat) : Encoding.Statement (.finish sess) := fun _ => Nat.le_of_ble_eq_true rfl
theorem Encoding.heartbeat (sess : Nat) : Encoding.Statement (.heartbeat sess) := fun _ => Nat.le_of_ble_eq_true rfl
theorem Encoding.keyUpdate (sess : Nat) : Encoding.Statement (.keyUpdate sess) := fun _ => Nat.le_of_ble_eq_true rfl
theorem Encoding.endSession (sess : Nat) : Encoding.Statement (.endSession sess) := fun _ => Nat.le_of_ble_eq_true rfl
theorem Encoding.vendorDefinedRequest (sess : Nat) (world : BitVec 6) (custodian : BitVec 4) (share : BitVec 512) : Encoding.Statement (.vendorDefinedRequest sess world custodian share) := fun _ => Nat.le_of_ble_eq_true rfl
theorem Encoding.coldStart (image : BootImage) : Encoding.Statement (.coldStart image) := fun _ => Nat.le_of_ble_eq_true rfl
theorem Encoding.bootFetchTimeout (image : BootImage) : Encoding.Statement (.bootFetchTimeout image) := fun _ => Nat.le_of_ble_eq_true rfl
theorem Encoding.breezeEntry : Encoding.Statement (.breezeEntry) := fun _ => Nat.le_of_ble_eq_true rfl
theorem Encoding.breezeWake : Encoding.Statement (.breezeWake) := fun _ => Nat.le_of_ble_eq_true rfl
theorem Encoding.lullWake : Encoding.Statement (.lullWake) := fun _ => Nat.le_of_ble_eq_true rfl
theorem Encoding.hubMemoryAccess (acc : HubAccess) : Encoding.Statement (.hubMemoryAccess acc) := fun _ => Nat.le_of_ble_eq_true rfl
theorem Encoding.pcapWrite (val : Asked Word64) : Encoding.Statement (.pcapWrite val) := fun _ => Nat.le_of_ble_eq_true rfl
theorem Encoding.powerCapStep (pkgw : BitVec 13) : Encoding.Statement (.powerCapStep pkgw) := fun _ => Nat.le_of_ble_eq_true rfl
theorem Encoding.capExcessPreempt : Encoding.Statement (.capExcessPreempt) := fun _ => Nat.le_of_ble_eq_true rfl
theorem Encoding.thermal105 (die : BitVec 2) : Encoding.Statement (.thermal105 die) := fun _ => Nat.le_of_ble_eq_true rfl
theorem Encoding.thermal115 : Encoding.Statement (.thermal115) := fun _ => Nat.le_of_ble_eq_true rfl
theorem Encoding.thermal125 : Encoding.Statement (.thermal125) := fun _ => Nat.le_of_ble_eq_true rfl
theorem Encoding.tierctlWrite (die : BitVec 2) (reg : TierReg) (val : Word64) : Encoding.Statement (.tierctlWrite die reg val) := fun _ => Nat.le_of_ble_eq_true rfl
theorem Encoding.tierstatRejectClear (die : BitVec 2) (val : Word64) : Encoding.Statement (.tierstatRejectClear die val) := fun _ => Nat.le_of_ble_eq_true rfl
theorem Encoding.portEnableWrite (port : Asked Nat) (en : Bool) : Encoding.Statement (.portEnableWrite port en) := fun _ => Nat.le_of_ble_eq_true rfl
theorem Encoding.flitReceive (port : Nat) (flit : Flit) : Encoding.Statement (.flitReceive port flit) := fun _ => Nat.le_of_ble_eq_true rfl
theorem Encoding.portRetrain (port : Nat) (trained : Bool) : Encoding.Statement (.portRetrain port trained) := fun _ => Nat.le_of_ble_eq_true rfl
theorem Encoding.planeDown (port : Nat) : Encoding.Statement (.planeDown port) := fun _ => Nat.le_of_ble_eq_true rfl
theorem Encoding.d2dRetryFailure (die : BitVec 2) : Encoding.Statement (.d2dRetryFailure die) := fun _ => Nat.le_of_ble_eq_true rfl
theorem Encoding.patrolScrub : Encoding.Statement (.patrolScrub) := fun _ => Nat.le_of_ble_eq_true rfl
theorem Encoding.farrierClaim (die : BitVec 2) (column : BitVec 7) (found : FarrierFinding) : Encoding.Statement (.farrierClaim die column found) := fun _ => Nat.le_of_ble_eq_true rfl
theorem Encoding.farrierYield (die : BitVec 2) (column : BitVec 7) : Encoding.Statement (.farrierYield die column) := fun _ => Nat.le_of_ble_eq_true rfl
theorem Encoding.weakRowRefresh (die : BitVec 2) (row : Nat) : Encoding.Statement (.weakRowRefresh die row) := fun _ => Nat.le_of_ble_eq_true rfl
theorem Encoding.redfishRequest (req : RedfishReq) : Encoding.Statement (.redfishRequest req) := fun _ => Nat.le_of_ble_eq_true rfl
theorem Encoding.telemetrySample : Encoding.Statement (.telemetrySample) := fun _ => Nat.le_of_ble_eq_true rfl
theorem Encoding.instructionRetire (q : SeqId) : Encoding.Statement (.instructionRetire q) := fun _ => Nat.le_of_ble_eq_true rfl
theorem Encoding.quantumExpiry (lid : BitVec 14) (group : Nat) : Encoding.Statement (.quantumExpiry lid group) := fun _ => Nat.le_of_ble_eq_true rfl
theorem Encoding.dieReturn (die : BitVec 2) : Encoding.Statement (.dieReturn die) := fun _ => Nat.le_of_ble_eq_true rfl
theorem Encoding.heartbeatTimeout (sess : Nat) : Encoding.Statement (.heartbeatTimeout sess) := fun _ => Nat.le_of_ble_eq_true rfl
theorem Encoding.supplyLoss : Encoding.Statement (.supplyLoss) := fun _ => Nat.le_of_ble_eq_true rfl
theorem Encoding.softError (hit : SoftHit) : Encoding.Statement (.softError hit) := fun _ => Nat.le_of_ble_eq_true rfl

end Sys2Proof.Laws
end

