-- ==== Sys2Proof/Tests/Slice0.lean ====
section
/-! SUPPORT. Tests: each check of WellFormed refuses an ill-formed term; decoded words of the spec; states and operands that meet the
hypotheses of each statement. -/

namespace Sys2Proof.Tests

open Sys2Proof Machine

set_option Elab.async false

/-! ## Well-formedness: a term that each check refuses -/

/-- No token action, and the pops and pushes that the tests use. -/
def k0 : Tok := { tk := 0, peer := 0 }

theorem test_push_to_e : (Instr.nop { tk := 2, peer := 3 }).wellFormed = false := by decide
theorem test_exit_push : (Instr.exit { tk := 2, peer := 0 } 0).wellFormed = false := by decide
theorem test_hint_kind : (Instr.hint k0 5 0).wellFormed = false := by decide
theorem test_qx_form : (Instr.qx k0 1 0 3).wellFormed = false := by decide
theorem test_loop_end_zero : (Instr.loop k0 0 1 0).wellFormed = false := by decide
theorem test_loop_end_far : (Instr.loop k0 0 1 8192).wellFormed = false := by decide
theorem test_srn_unknown : (Instr.rdsr k0 1 0x006).wellFormed = false := by decide
theorem test_srn_read_only : (Instr.wrsr k0 1 0x000).wellFormed = false := by decide
theorem test_fence_kind : (Instr.fence k0 0 0 5).wellFormed = false := by decide
theorem test_fence_scope : (Instr.fence k0 0 7 0).wellFormed = false := by decide
theorem test_fencex_path : (Instr.fencex k0 0x80 0 0).wellFormed = false := by decide
theorem test_ld_inv_ord : (Instr.ld k0 1 2 0 2 3 0 1 1 0).wellFormed = false := by decide
theorem test_store_to_loft : (Instr.st k0 1 2 0 3 3 0 0 0).wellFormed = false := by decide
theorem test_stx_to_loft : (Instr.stx k0 1 2 3 0 3 3 0 0).wellFormed = false := by decide
theorem test_amo_op : (Instr.amo k0 1 2 3 10 1 0 0 0 0 2).wellFormed = false := by decide
theorem test_amo_compare_without_cas : (Instr.amo k0 1 2 3 0 1 0 0 0 4 2).wellFormed = false := by decide
theorem test_waitm_on_loft : (Instr.waitm k0 1 2 3 0 3 3 0 0).wellFormed = false := by decide
theorem test_stream_field_15 : (Instr.sset k0 0 15 (.reg 1)).wellFormed = false := by decide
theorem test_sget_field_15 : (Instr.sget k0 1 0 15).wellFormed = false := by decide
theorem test_amendment_code : (Instr.patchWord 0 0 24 0 []).wellFormed = false := by decide
theorem test_amendment_wide : (Instr.patchWord 0 0 10 0x11 []).wellFormed = false := by decide
theorem test_amendment_literal : (Instr.patchWord 0 0 62 10 [0x10]).wellFormed = false := by decide

/-! ## Decoding: the worked words of the spec (chapters 7 to 9, 11 to 16), and words written out by its layouts -/

theorem decode_nop : decodeWord 0x01C00000#32 [] = some (.nop { tk := 1, peer := 3 }, 1) := by decide
theorem decode_trap : decodeWord 0x00002001#32 [] = some (.trap k0 0x08, 1) := by decide
theorem decode_exit : decodeWord 0x00000003#32 [] = some (.exit k0 0, 1) := by decide
theorem decode_spin : decodeWord 0x0000000E#32 [] = some (.spin k0 0 0, 1) := by decide
theorem decode_qx : decodeWord 0x001AC411#32 [] = some (.qx k0 6 11 1, 1) := by decide
theorem decode_divu : decodeWord 0x04108C0E#32 [] = some (.divu k0 4 2 (.reg 3), 1) := by decide
theorem decode_add_pop_push : decodeWord 0x064C4800#32 [] = some (.add { tk := 2, peer := 1 } 3 1 (.reg 2), 1) := by decide
theorem decode_addi : decodeWord 0x080C0007#32 [] = some (.addi k0 3 0 7, 1) := by decide
theorem decode_slli : decodeWord 0x18048003#32 [] = some (.slli k0 1 2 3, 1) := by decide
theorem decode_srai : decodeWord 0x1804A03F#32 [] = some (.srai k0 1 2 63, 1) := by decide
theorem decode_shi_unused : decodeWord 0x1804B000#32 [] = none := by decide
theorem decode_cmp : decodeWord 0x20090100#32 [0xFFFFFFFF#32] = some (.cmp k0 1 4 (.lit32 0xFFFFFFFF#32) 0, 2) := by decide
theorem decode_cmpi : decodeWord 0x2401801F#32 [] = some (.cmpi k0 0 1 8 31, 1) := by decide
theorem decode_sel : decodeWord 0x28048E00#32 [] = some (.sel k0 1 2 3 4, 1) := by decide
theorem decode_vany : decodeWord 0x28048009#32 [] = some (.vany k0 1 2, 1) := by decide
theorem decode_pbt : decodeWord 0x2C37E802#32 [] = some (.pbtDisp k0 3 0x7E802, 1) := by decide
theorem decode_pbt_reg : decodeWord 0x2C0BC000#32 [] = some (.pbtReg k0 0 15, 1) := by decide
theorem decode_brt : decodeWord 0x30032000#32 [] = some (.brtCond k0 0 1 1 1 0, 1) := by decide
theorem decode_brt_link : decodeWord 0x3020B000#32 [] = some (.brtAlways k0 2 1 1, 1) := by decide
theorem decode_loop : decodeWord 0x34120020#32 [] = some (.loop k0 1 2 0x20, 1) := by decide
theorem decode_rdsr : decodeWord 0x38200002#32 [] = some (.rdsr k0 8 2, 1) := by decide
theorem decode_wrsr : decodeWord 0x3800E022#32 [] = some (.wrsr k0 3 0x22, 1) := by decide
theorem decode_fence : decodeWord 0x3C000192#32 [] = some (.fence k0 6 2 2, 1) := by decide
theorem decode_fencex : decodeWord 0x40004080#32 [] = some (.fencex k0 1 2 0, 1) := by decide
theorem decode_ld : decodeWord 0x44188EAA#32 [] = some (.ld k0 6 2 3 2 2 1 0 1 2, 1) := by decide
theorem decode_st : decodeWord 0x48174EC1#32 [] = some (.st k0 5 13 3 2 3 0 0 1, 1) := by decide
theorem decode_ldx : decodeWord 0x4C048C38#32 [] = some (.ldx k0 1 2 3 0 3 2 0 0, 1) := by decide
theorem decode_stx : decodeWord 0x50048C38#32 [] = some (.stx k0 1 2 3 0 3 2 0 0, 1) := by decide
theorem decode_amo : decodeWord 0x541C5A60#32 [0x2B9C0000#32] = some (.amo k0 7 1 6 9 1 2 5 3 3 2, 2) := by decide
theorem decode_waitm : decodeWord 0x58048C38#32 [] = some (.waitm k0 1 2 3 0 3 2 0 0, 1) := by decide
theorem decode_sldn : decodeWord 0x5C004104#32 [0x300#32] = some (.sldn k0 0 1 (.lit32 0x300#32), 2) := by decide
theorem decode_sld : decodeWord 0x5C0C0003#32 [] = some (.sld k0 3 0, 1) := by decide
theorem decode_srst : decodeWord 0x5C010008#32 [] = some (.srst k0 4, 1) := by decide
theorem decode_cpyq : decodeWord 0x60020004#32 [] = some (.cpyq k0 8 0, 1) := by decide
theorem decode_cpys : decodeWord 0x60010001#32 [] = some (.cpys k0 4, 1) := by decide
theorem decode_rclaim : decodeWord 0x64048101#32 [4#32] = some (.rclaim k0 1 2 (.lit32 4#32), 2) := by decide
theorem decode_barv : decodeWord 0x69810101#32 [3#32] = some (.barv { tk := 1, peer := 2 } 4 (.lit32 3#32), 2) := by decide
theorem decode_bwait : decodeWord 0x68191C04#32 [] = some (.bwait k0 6 4 (.reg 7), 1) := by decide
theorem decode_tclr : decodeWord 0x6C008003#32 [] = some (.tclr k0 2, 1) := by decide
theorem decode_tget : decodeWord 0x6C048002#32 [] = some (.tget k0 1 2, 1) := by decide
theorem decode_mkld : decodeWord 0x70010100#32 [3#32] = some (.mkld k0 0 4 (.lit32 3#32), 2) := by decide
theorem decode_mkev : decodeWord 0x70094001#32 [] = some (.mkev k0 2 5, 1) := by decide
theorem decode_mkel : decodeWord 0x7000A402#32 [] = some (.mkel k0 0 2 (.reg 9), 1) := by decide
theorem decode_mkct : decodeWord 0x700D8003#32 [] = some (.mkct k0 3 1 2 (.reg 0), 1) := by decide
theorem decode_kmio : decodeWord 0x74168002#32 [] = some (.kmioIn k0 1 1 1 2, 1) := by decide
theorem decode_thr : decodeWord 0x74080200#32 [0x8#32, 0x40800000#32] = some (.thr k0 2 0 (.lit64 0x4080000000000008#64), 3) := by decide
theorem decode_attq : decodeWord 0x74048003#32 [] = some (.attq k0 1 2, 1) := by decide
theorem decode_retired : decodeWord 0xBC000123#32 [] = some (.retiredConversion 0x123, 1) := by decide
theorem decode_patch : decodeWord 0xC08A000B#32 [] = some (.patchWord 0 2 10 0xB [], 1) := by decide
theorem decode_reserved_major : decodeWord 0x7C000000#32 [] = none := by decide
theorem decode_nonzero_zero_field : decodeWord 0x00000100#32 [] = none := by decide
theorem decode_lit_three : decodeWord 0x04110300#32 [0#32, 0#32] = none := by decide
/-- The record of slot 1 of the worked matrix example (chapter 11): KIND 0x85, MST. -/
theorem record_kind : (Template.ofBits (0x0000C000#32 ++ 0#32 ++ 0#32 ++ 0#32 ++ 0#32 ++ 0x00800000#32 ++ 0x00FFFF34#32 ++ 0x30006685#32)).kind = 0x85 := by
  decide

/-! ## States for the witnesses -/

/-- A running sequencer at word 0. -/
def runSeq : SeqState := { SeqState.clear with present := true, halted := false }

/-- A running task of world 0 with its four sequencers at word 0, nothing in flight, nothing in memory; sequencer `q` is under step. -/
def base (q : SeqId) : State :=
  { State.reset with
    core := { Core.reset with
      run := .running
      task := { Task.clear with seqs := RegFile.fill 2 runSeq }
      resident := [{ owner := TaskId.clear.owner, page := 0, way := 0, order := 0 }, { owner := TaskId.clear.owner, page := 1, way := 0, order := 1 }] }
    cur := q }

/-- The state with x register `r` of the sequencer under step at `v`. -/
def withReg (s : State) (r : BitVec 4) (v : Word64) : State :=
  s.withSeq s.cur { s.seq s.cur with x := (s.seq s.cur).x.set r v }

/-! ## Scalar instructions -/

theorem witness_alu : ∀ r ∈ aluRows, ready (base .S) (r.1 k0 1 2 (.reg 3)) = true ∧ cleanX (base .S) (r.1 k0 1 2 (.reg 3)) 2 0 = true ∧
    cleanSrc (base .S) (r.1 k0 1 2 (.reg 3)) (.reg 3) 1 = true := by decide +kernel

theorem witness_bins : ready (withReg (base .S) 3 0x4003C) (.bins k0 1 2 (.reg 3)) = true ∧ cleanX (base .S) (.bins k0 1 2 (.reg 3)) 1 2 = true ∧
    cleanX (base .S) (.bins k0 1 2 (.reg 3)) 2 0 = true := by decide +kernel
theorem witness_alu_one : ∀ r ∈ aluOneRows, ready (base .L) (r.1 k0 1 2) = true ∧ cleanX (base .L) (r.1 k0 1 2) 2 0 = true := by decide +kernel
theorem witness_imm : ∀ r ∈ immRows, ready (base .W) (r.1 k0 1 2 0x3FFF) = true ∧ cleanX (base .W) (r.1 k0 1 2 0x3FFF) 2 0 = true := by decide +kernel
theorem witness_shift_imm : ∀ r ∈ shiftImmRows, ready (base .C) (r.1 k0 1 2 63) = true ∧ cleanX (base .C) (r.1 k0 1 2 63) 2 0 = true := by
  decide +kernel
theorem witness_cmp : ready (base .S) (.cmp k0 1 2 (.lit32 7) 4) = true ∧ cleanSrc (base .S) (.cmp k0 1 2 (.lit32 7) 4) (.lit32 7) 1 = true ∧
    ready (base .S) (.cmpi k0 7 6 2 0x800) = true ∧ cleanX (base .S) (.cmpi k0 7 6 2 0x800) 2 0 = true := by decide +kernel
theorem witness_mask_test : ∀ r ∈ maskTestRows, ready (base .C) (r.1 k0 3 7) = true ∧ ready (base .S) (r.1 k0 3 9) = true ∧
    cleanX (base .S) (r.1 k0 3 9) 9 0 = true := by decide +kernel
theorem witness_flags : ready (base .S) (.sel k0 1 2 3 7) = true ∧ cleanX (base .S) (.sel k0 1 2 3 7) 2 0 = true ∧
    cleanX (base .S) (.sel k0 1 2 3 7) 3 1 = true ∧ (∀ r ∈ flagTwoRows, ready (base .S) (r.1 k0 1 2 3) = true) ∧
    (∀ r ∈ flagOneRows, ready (base .S) (r.1 k0 1 7) = true) ∧ (∀ r ∈ flagSetRows, ready (base .S) (r.1 k0 7) = true) ∧
    ready (base .S) (.flagRead k0 1) = true := by decide +kernel

/-! ## Special registers and system instructions -/

theorem witness_rdsr : ∀ n ∈ [0x000, 0x005, 0x010, 0x017, 0x018, 0x01F, 0x020, 0x021, 0x022, 0x023, 0x030, 0x034, 0x03B, 0x040, 0x04F, 0x050],
    ready (base .S) (.rdsr k0 1 (BitVec.ofNat 13 n)) = true := by decide +kernel
theorem witness_wrsr : ready (base .S) (.wrsr k0 1 0x022) = true ∧ ready (base .C) (.wrsr k0 1 0x021) = true ∧
    ready (base .C) (.wrsr k0 1 0x023) = true ∧ cleanX (base .C) (.wrsr k0 1 0x023) 1 0 = true := by decide +kernel
theorem witness_srn_refused : ([(SeqId.S, 0x000#13), (.S, 0x021#13), (.L, 0x023#13), (.C, 0x000#13), (.C, 0x006#13), (.W, 0x1FFF#13)].all fun p => let s := base p.1
    let i := Instr.wrsr k0 1 p.2
    canIssue s s.cur && !boundMissed s s.cur && (heldFault s s.cur (ordersWrite s.task s.cur i)).isNone && seqMayIssue i s.cur && p.2 != 0x022 &&
      (s.cur != .C || (p.2 != 0x021 && p.2 != 0x023)) && canIssue s s.cur && seqMayIssue (.rdsr k0 1 0x006) s.cur) = true := by decide +kernel
theorem witness_issue_keeps : ((base .S).seq .S).delay.owed = 0 ∧
    endingLoops ((base .S).seq .S) ((base .S).seq .S).pc.toNat (((base .S).seq .S).pc.toNat + 4 * instrWords (.nop k0)) = [] := by decide +kernel
theorem witness_plain : ready (base .S) (.nop k0) = true ∧ ready (base .S) (.yield k0) = true ∧ waitingGroups (met (base .S) (.yield k0)) = [] := by
  decide +kernel
theorem witness_exit : ready (base .S) (.exit k0 1) = true ∧ cleanX (base .S) (.exit k0 1) 1 0 = true := by decide +kernel
/-- A token waits in the FIFO from L. -/
def withToken (s : State) : State :=
  s.withTask { s.task with fifos := s.task.fifos.set (fifoNum .L .S) [{ id := 0, filled := true, val := true, record := none }] }
theorem witness_swap : ready (withToken (base .S)) (.swap { tk := 3, peer := 0 }) = true := by decide +kernel
theorem witness_waitt : ready (base .S) (.waitt k0 1 2) = true ∧ cleanX (base .S) (.waitt k0 1 2) 2 0 = true ∧
    (xVal (base .S) (.waitt k0 1 2) 2 0 + (base .S).task.tofs).toNat ≤ (base .S).pkg.time.toNat ∧
    ¬ (xVal (withReg (base .S) 2 1) (.waitt k0 1 2) 2 0 + (base .S).task.tofs).toNat ≤ (base .S).pkg.time.toNat := by decide +kernel
theorem witness_tcnt : ready (withToken (base .S)) (.tcnt 0 1) = true ∧
    ((popFifo (withToken (base .S)).task .S 0).filter Slot.filled).length ≤ 63 := by decide +kernel
theorem witness_twait : ([0#64, 1#64, 2#64, 32#64, 33#64].all fun n => let s := withToken (withReg (base .S) 2 n)
    ready s (.twait 0 1 2 3) && cleanX s (.twait 0 1 2 3) 2 0 && cleanX s (.twait 0 1 2 3) 3 1) = true := by decide +kernel
theorem witness_pbt : ready (base .S) (.pbtDisp k0 3 0x7FFFF) = true ∧ ready (base .S) (.pbtReg k0 0 15) = true ∧
    cleanX (base .S) (.pbtReg k0 0 15) 15 0 = true := by decide +kernel
/-- A branch-target register set. -/
def withTarget (s : State) (v : Word64) : State := s.withSeq s.cur { s.seq s.cur with bt := (s.seq s.cur).bt.set 0 v }
theorem witness_brt : ([0x0#64, 0x7FFC#64, 0x7FFE#64, 0x8000#64].all fun v => [0#2, 3#2].all fun e => ready (withTarget (base .S) v) (.brtAlways k0 0 e 0) &&
    ready (withTarget (base .S) v) (.brtCond k0 0 1 1 e 0) && ready (withTarget (base .S) v) (.brtCond k0 0 1 0 e 0)) = true := by decide +kernel
theorem witness_brt_legal : targetLegal (btVal (withTarget (base .S) 0x7FFC) (.brtAlways k0 0 0 0) 0) = true ∧
    targetLegal (btVal (withTarget (base .S) 0x8000) (.brtAlways k0 0 0 0) 0) = false := by decide +kernel
theorem witness_link : ready (base .S) (.brtAlways k0 0 2 1) = true ∧ targetLegal (btVal (base .S) (.brtAlways k0 0 2 1) 0) = true ∧
    slotsPatch (base .S).plane .S (((base .S).seq .S).pc.toNat + 4) 2 = false := by decide +kernel
theorem witness_loop : ready (base .S) (.loop k0 0 1 1) = true ∧ cleanX (base .S) (.loop k0 0 1 1) 1 0 = true ∧
    xVal (base .S) (.loop k0 0 1 1) 1 0 = 0 ∧ xVal (withReg (base .S) 1 9) (.loop k0 0 1 8191) 1 0 ≠ 0 ∧
    (let s := (base .S).withSeq .S { (base .S).seq .S with pc := 4 }
     ready s (.loop k0 0 1 8190) = true ∧ ready s (.loop k0 0 1 8191) = true ∧ cleanX s (.loop k0 0 1 8191) 1 0 = true ∧
       ((s.seq .S).pc.toNat + 8190 * 4 < 0x8000) ∧ 0x8000 ≤ (s.seq .S).pc.toNat + 8191 * 4) := by decide +kernel
/-- Loop 2 runs over words 0 and 1, with `n` rounds left, and the sequencer stands at its last word. -/
def inLoop (n : Word64) : State :=
  let s := base .S
  s.withSeq .S { s.seq .S with pc := 4, lc := (s.seq .S).lc.set 2 n
                               loops := (s.seq .S).loops.set 2 { start := 0, stop := 4, active := true, nest := 0 } }
theorem witness_loop_end : ([1#64, 2#64].all fun n => ready (inLoop n) (.nop k0) && decide (((inLoop n).seq .S).delay.owed = 0) &&
    decide (endingLoops ((inLoop n).seq .S) ((inLoop n).seq .S).pc.toNat (((inLoop n).seq .S).pc.toNat + 4) = [2])) = true := by decide +kernel
theorem witness_traps : ready (base .L) (.trap k0 0xFF) = true ∧ ready (base .C) (.brk k0) = true ∧ ready (base .W) (.retiredConversion 5) = true := by
  decide +kernel
/-- A task staged on the core, its firmware running. -/
def stagedCore : State := { base .S with core := { (base .S).core with run := .staging, firmware := true } }
theorem witness_eret : stagedCore.core.firmware = true ∧ stagedCore.core.run = .staging ∧ ready (base .S) .eret = true ∧
    (base .S).core.run ≠ .staging := by decide +kernel
/-- An entry of ones. -/
def onesEntry : QEntry := { id := 0, filled := true, data := BitVec.allOnes 2048, poison := none, locks := [] }
/-- An operand queue with an entry of ones at its head. -/
def withQueue (s : State) (n : BitVec 3) : State := s.withTask { s.task with q := s.task.q.set n [onesEntry] }
theorem witness_qx : ∀ f ∈ [0#2, 1#2, 2#2], ready (withQueue (base .C) 3) (.qx k0 1 11 f) = true ∧
    matAhead (met (withQueue (base .C) 3) (.qx k0 1 11 f)) 3 = false ∧
    (met (withQueue (base .C) 3) (.qx k0 1 11 f)).task.q.get 3 = [onesEntry] ∧ onesEntry.filled = true ∧ onesEntry.poison = none := by
  decide +kernel
theorem witness_fence_fields : canIssue (base .S) .S = true ∧ boundMissed (base .S) .S = false ∧ heldFault (base .S) .S (fun _ => false) = none ∧
    seqMayIssue (.fence k0 0 7 5) .S = true ∧ seqMayIssue (.fencex k0 0x80 0x80 7) .S = true := by decide +kernel
theorem witness_fences : ready (base .S) (.fence k0 0 0 4) = true ∧ fencedPoint (met (base .S) (.fence k0 0 0 4)) .S = false ∧
    ready (base .S) (.fencex k0 0x7F 0x7F 6) = true := by decide +kernel
theorem witness_hint : ∀ m ∈ [0#4, 1#4, 2#4, 3#4, 4#4], ready (base .S) (.hint k0 m 1) = true ∧ cleanX (base .S) (.hint k0 m 1) 1 0 = true := by
  decide +kernel


/-! ## Memory -/

/-- Page tables at PA 0 for a root of 0: the entry at 0 leads back to its own table, the entry at 8, for VA 0x10000 on, is `leaf`. -/
def mapped (leaf : Word64) (s : State) : State := { s with mem := memPutWords [] 0 [1, leaf] }

/-- A leaf of world 0 that maps the page to PA 0x10000, writable. -/
def rwLeaf : Word64 := 0x10007#64

/-- Two x registers set. -/
def withRegs (s : State) (a b : Word64) : State := withReg (withReg s 2 a) 3 b

/-- An access of `size` bytes at `a` in a space is placed at a key that satisfies `p`. -/
def placedAt (s : State) (i : Instr) (sp : BitVec 2) (a : Word64) (size : Nat) (w : Bool) (p : State → Nat → Bool) : Bool :=
  match checkAccess (met s i) sp a.toNat size w with
  | (s1, .key key _) => p s1 key
  | _ => false

theorem witness_load : ([(0#2, 0x1FFFF8#64), (2#2, 0x10008#64)].all fun a =>
    let s := withRegs (mapped rwLeaf (base .L)) a.2 0
    let i := Instr.ld k0 1 2 0 a.1 3 0 0 0 0
    let j := Instr.ldx k0 1 2 3 0 3 a.1 1 0
    let r : State := { s with core := { s.core with resident := { owner := TaskId.clear.owner, page := 127, way := 1, order := 2 } :: s.core.resident } }
    ready r i && cleanX r i 2 0 && !fenced (met r i) .L 0 && !lockStalls r .L a.1 a.2.toNat && !storeOwed (met r i) a.1 a.2.toNat 8 && !storeOwed (met r j) a.1 a.2.toNat 8 && placedAt r i a.1 a.2 8 false (fun s1 key => readFails s1 key 8 == none) &&
    ready r j && cleanX r j 2 0 && cleanX r j 3 1 && !fenced (met r j) .L 0 && placedAt r j a.1 a.2 8 false (fun _ _ => true)) = true := by
  decide +kernel
/-- L has stored to the eight bytes at 8 in class `c`, and the store is late. -/
def lateStore (q : SeqId) (c : BitVec 4) : State :=
  let s := withRegs (base .S) 8 0
  { s with nextId := s.nextId + 1, core := { s.core with olds := [{ num := s.nextId, by_ := some (q, c), time := s.time, key := ownKey 8, size := 8, cells := [] }] } }
/-- A store of L may be passed by a load of S, one of S itself in another class only by a load of other bytes; after a pop none is. -/
theorem witness_passes : (let s := lateStore .L 1
    let i := Instr.ld k0 1 2 0 0 3 0 0 0 0
    (ready s i && cleanX s i 2 0 && !fenced (met s i) .S 0 && !storeOwed (met s i) 0 8 8 && placedAt s i 0 8 8 false (fun s1 key => readFails s1 key 8 == none && !isYard key &&
      ((met s i).passable .S 0 false key 8).length == 1)) &&
    ((lateStore .S 1).passable .S 0 false (ownKey 8) 8).isEmpty && ((lateStore .S 0).passable .S 0 false (ownKey 8) 8).isEmpty &&
    (popFences s .S).passable .S 0 false (ownKey 8) 8 == [] && ((popFences s .S).seq .S).newFence.getLsbD 0 &&
    ((popFences s .S).passable .S 0 true (ownKey 8) 8).length == 1) = true := by decide +kernel
theorem witness_load_fails : (let s : State := { withRegs (base .L) 8 0 with bad := [(ownKey 8, 0x10)] }
    let i := Instr.ld k0 1 2 0 0 3 0 0 0 0
    ready s i && !storeOwed (met s i) 0 8 8 && placedAt s i 0 8 8 false (fun s1 key => readFails s1 key 8 == some 0x10)) = true := by decide +kernel
theorem witness_store : ([(0#2, 0x3FFC#64), (2#2, 0x1FFFC#64)].all fun a => [0#1, 1#1].all fun r =>
    let s := withRegs (mapped rwLeaf (base .S)) a.2 0
    let i := Instr.st k0 1 2 0 a.1 2 0 r 0
    let j := Instr.stx k0 1 2 3 0 2 a.1 0 r
    ready s i && Memory.wf s.mem && cleanX s i 2 0 && cleanX s i 1 1 && !fenced (met s i) .S 0 && !fencedPoint (met s i) .S &&
    placedAt s i a.1 a.2 4 true (fun _ key => !isYard key && !noRoute s key) &&
    ready s j && cleanX s j 2 0 && cleanX s j 3 1 && cleanX s j 1 2 && !fenced (met s j) .S 0 && !fencedPoint (met s j) .S &&
    placedAt s j a.1 a.2 4 true (fun _ key => !isYard key && !noRoute s key)) = true := by decide +kernel
theorem witness_store_notifies : ([(3#2, 0x10000#64), (3#2, 0x10008#64), (2#2, 0x10000#64)].all fun p =>
    let s := withRegs (mapped 0xFFF000FFF0007#64 (base .S)) p.2 0
    let i := Instr.st k0 1 2 0 2 p.1 0 1 0
    ready s i && cleanX s i 2 0 && cleanX s i 1 1 && !fenced (met s i) .S 0 && !fencedPoint (met s i) .S &&
    placedAt s i 2 p.2 (bytesOf p.1) true (fun _ key => isYard key && notifyOf key == some (1, 1023) &&
      decide (key % 2 ^ 16 = p.2.toNat % 2 ^ 16))) = true := by decide +kernel
theorem witness_atomic : ([0#4, 4#4, 5#4, 9#4].all fun op => [0#1, 1#1].all fun sz =>
    let s := withRegs (mapped rwLeaf (base .S)) 0x1FFF8 5
    let i := Instr.amo k0 1 2 3 op sz 0 6 3 (if op = 9 then 4 else 0) 2
    ready s i && Memory.wf s.mem && cleanX s i 2 0 && cleanX s i 3 1 && cleanX s i (if op = 9 then 4 else 0) 2 && !fenced (met s i) .S 0 &&
    !fencedPoint (met s i) .S && !storeOwed (met s i) 2 0x1FFF8 8 && placedAt s i 2 0x1FFF8 8 true (fun s1 key => !isYard key && !noRoute s key && readFails s1 key 8 == none)) = true := by
  decide +kernel
theorem witness_illegal_fields : (let s := base .S
    [Instr.amo k0 1 2 3 10 0 0 0 0 0 0, Instr.amo k0 1 2 3 0 0 0 0 0 0 3, Instr.amo k0 1 2 3 0 0 0 7 0 0 0, Instr.amo k0 1 2 3 8 0 0 0 0 1 0].all
      fun i => canIssue s .S && !boundMissed s .S && heldFault s .S (ordersWrite s.task .S i) == none && seqMayIssue i .S) = true := by decide +kernel
theorem witness_misaligned : ([1#2, 2#2, 3#2].all fun z =>
    let s := withRegs (base .S) 0x3FFF 1
    let u := withRegs (base .S) 0x3FFE 1
    let i := Instr.ld k0 1 2 0 0 z 0 0 0 0
    let j := Instr.st k0 1 2 0 1 z 0 1 0
    let l := Instr.ldx k0 1 2 3 0 z 2 0 0
    let m := Instr.stx k0 1 2 3 0 z 1 0 0
    let n := Instr.waitm k0 1 2 3 0 z 0 0 0
    let o := Instr.amo k0 1 2 3 0 1 0 0 0 0 0
    ready s i && cleanX s i 2 0 && !fenced (met s i) .S 0 && ready s j && cleanX s j 2 0 && cleanX s j 1 1 && !fenced (met s j) .S 0 &&
    !fencedPoint (met s j) .S && ready u l && cleanX u l 2 0 && cleanX u l 3 1 && !fenced (met u l) .S 0 &&
    ready u m && cleanX u m 2 0 && cleanX u m 3 1 && cleanX u m 1 2 && !fenced (met u m) .S 0 && !fencedPoint (met u m) .S && ready s n &&
    cleanX s n 2 0 && cleanX s n 3 1 && cleanX s n 1 2 && !fenced (met s n) .S 0 && ready s o && cleanX s o 2 0 && cleanX s o 3 1 && cleanX s o 0 2 &&
    !fenced (met s o) .S 0 && (xVal u l 2 0 + xVal u l 3 1).toNat == 0x3FFF) = true := by
  decide +kernel
theorem witness_places : (let s := base .S
    decide (s.task.split ≠ 8) && decide (s.core.run ≠ .saved) && resident s (0x3FFF / 2 ^ 14) && !resident s (0x1FFFFF / 2 ^ 14) &&
    !bankHeld s 511 && bankHeld { s with pkg := { s.pkg with loft := { s.pkg.loft with held := [511] } } } (0x7FFFFFFFFF / 2 ^ 30) &&
    (({ base .S with core := { (base .S).core with task := { (base .S).task with split := 8 } } } : State).task.split == 8) &&
    decide ((cellGet (0 : BitVec 8) ({ s with pkg := { s.pkg with loft := { s.pkg.loft with owner := [(32767, 0x40)] } } } : State).pkg.loft.owner
      (0x7FFFFFFFFF / 2 ^ 24)).toNat = 0x40)) = true := by decide +kernel
theorem witness_walk : (let s := mapped rwLeaf (base .S)
    tlbFind s 0 0 0x1FFFF == none && ptRoot s 0 0 == 0 && (match walkFrom s 0x1FFFF 0 walkLevels with | .leaf e 3 8 => e == rwLeaf | _ => false) &&
    (memWord s.mem 0).getLsbD 0 && !pteMalformed (memWord s.mem 0) 0 && !(memWord (base .S).mem 0).getLsbD 0 &&
    pteMalformed (memWord (memPutWords [] 0 [3]) 0) 0 && !isYard (leafFrame rwLeaf) && rwLeaf.getLsbD 2 && rwLeaf.extractLsb 13 8 == 0 &&
    (match walkFrom (mapped 0x10003 s) 0x1FFFF 0 walkLevels with | .leaf e _ _ => !e.getLsbD 2 | _ => false) &&
    (match walkFrom (mapped 0x10107 s) 0x1FFFF 0 walkLevels with | .leaf e _ _ => e.getLsbD 2 && e.extractLsb 13 8 != 0 | _ => false)) = true := by decide +kernel
theorem witness_waitm : ([0#64, 1#64].all fun b =>
    let s := withRegs (base .S) 0x3FF8 b
    let i := Instr.waitm k0 1 2 3 0 3 0 0 0
    ready s i && cleanX s i 2 0 && cleanX s i 3 1 && cleanX s i 1 2 && !fenced (met s i) .S 0 &&
    !storeOwed (met s i) 0 0x3FF8 8 && placedAt s i 0 0x3FF8 8 false (fun s1 key => readFails s1 key 8 == none)) = true := by decide +kernel
/-- Fifteen pinned pages of bank 0. -/
def pinnedBank (s : State) : State := s.withTask { s.task with pins := (List.range 7).map (fun n => BitVec.ofNat 7 (16 * n)) }
theorem witness_splitw : ([0#64, 8#64].all fun n =>
    let s := withReg (base .S) 1 n
    let i := Instr.splitw k0 1
    ready s i && cleanX s i 1 0 && splitReady (met s i) && (List.range 16).all (fun b => decide (pinsIn s.task.pins b ≤ pinLimit n.toNat))) = true ∧
    pinLimit 7 < pinsIn (pinnedBank (withReg (base .S) 1 7)).task.pins 0 ∧ ready (pinnedBank (withReg (base .S) 1 7)) (.splitw k0 1) = true ∧
    ready (withReg (base .S) 1 9) (.splitw k0 1) = true := by
  decide +kernel
theorem witness_lines : (let s := withReg (mapped rwLeaf (base .S)) 2 0x1FF80
    [Instr.cflush k0 2, Instr.cinv k0 2, Instr.cwb k0 2].all fun i => ready s i && cleanX s i 2 0 &&
      (match place (met s i) 2 0x1FF80 true with | (_, .key 0x1FF80 _) => true | _ => false)) = true := by decide +kernel
theorem witness_pins : (let s := withReg (base .S) 2 0x7FFF
    let p := s.withTask { s.task with pins := [1] }
    let g := withReg (mapped rwLeaf (base .S)) 2 0x1FFFF
    ready s (.spin k0 0 2) && cleanX s (.spin k0 0 2) 2 0 && decide (pinsIn s.task.pins 1 < pinLimit s.task.split.toNat) && resident s 1 &&
    ready p (.spin k0 0 2) && p.task.pins.contains 1 && ready p (.spun k0 0 2) && ready g (.spun k0 2 2) && ready g (.spin k0 2 2) &&
    cleanX g (.spin k0 2 2) 2 0 && (match place (met g (.spin k0 2 2)) 2 0x1FFFF false with | (_, .key 0x1FFFF _) => true | _ => false) &&
    !g.task.gpins.contains 0x10000 && ready (withReg (base .S) 2 0x200000) (.spin k0 0 2)) = true := by decide +kernel


/-! ## Barrier objects and rings -/

/-- An object or ring of `n` bytes at 0x40 of own scratchpad, x2 its address, x3 an operand, x1 another. -/
def withObject (n v : Nat) (b d : Word64) : State := withReg (withRegs { base .S with mem := memWrite [] (ownKey 0x40) n v } 0x40 b) 1 d

/-- What an instruction on an object asks of the state, its object being placed at 0x40. -/
def objectReady (s : State) (i : Instr) (align : Nat) (w : Bool) : Bool :=
  ready s i && Memory.wf s.mem && cleanX s i 2 0 && (xVal s i 2 0).extractLsb 63 56 == 0 && !fenced (met s i) .S 6 && !fencedPoint (met s i) .S &&
    cleanSrc s i (.reg 3) 1 && cleanX s i 1 2 && ((met s i).seq .S).objErr == none &&
    placedAt s i 0 0x40 align w (fun _ key => !isYard key && !noRoute s key && key == ownKey 0x40)

/-- An open object of the given counts, phase and flags. -/
def openObject (exp pend bytes phase df : Nat) (err wc : Bool) : Nat :=
  exp + pend * 2 ^ 16 + bytes * 2 ^ 32 + phase * 2 ^ 64 + err.toNat * 2 ^ 68 + wc.toNat * 2 ^ 69 + df * 2 ^ 72

/-- A ring of 16 slots of 64 bytes in own scratchpad with its four counts. -/
def ringOf (head tail claimed taken : Nat) : Nat :=
  ({ base := 0x400, ssp := 0, log2n := 4, stride := 64, head := head, tail := tail, claimed := claimed, taken := taken, valid := true
     err := false, rsv := 0 } : Ring).toBits

theorem witness_object_init : ([0xFFFF#64, 0x10001#64, 0#64, 0x20001#64].all fun v => objectReady (withObject 16 0 v 0) (.binit k0 2 (.reg 3)) 16 true) &&
    objectReady (withObject 16 5 0 0) (.binv k0 2) 16 true = true := by decide +kernel
theorem witness_object_open : ([0xFFFFFFFF0001#64, 3#64, 0xFFFFFFFF0003#64, 4#64].all fun v =>
    let s := withObject 16 (openObject 5 4 1 15 1 false false) v 0
    objectReady s (.barv k0 2 (.reg 3)) 16 true && objectReady s (.bard k0 2 (.reg 3)) 16 true) &&
    ([0xFFFFFFFE#64, 0xFFFFFFFF#64].all fun v =>
      objectReady (withObject 16 (openObject 5 4 1 15 1 false false) v 0) (.bexp k0 2 (.reg 3)) 16 true) = true := by decide +kernel
theorem witness_object_is_open : (let o := objectAt (withObject 16 (openObject 5 4 1 15 1 false false) 3 0).mem (ownKey 0x40)
    objExp o ≠ 0 ∧ o.extractLsb 127 88 = 0 ∧ o.extractLsb 71 70 = 0 ∧ (objDef o).toNat ≤ (objPend o).toNat ∧ objWc o = false ∧ objErr o = false ∧
    (objPend o).toNat - (objDef o).toNat = 3 ∧ objBytes o = 1 ∧ objPhase o = 15) := by decide +kernel
theorem witness_object_refuses : ([0, openObject 5 4 1 15 1 false true].all fun o => objectReady (withObject 16 o 1 0) (.barv k0 2 (.reg 3)) 16 true &&
    objectReady (withObject 16 o 1 0) (.bard k0 2 (.reg 3)) 16 true && objectReady (withObject 16 o 1 0) (.bexp k0 2 (.reg 3)) 16 true &&
    (objExp (objectAt (withObject 16 o 1 0).mem (ownKey 0x40)) == 0 || objWc (objectAt (withObject 16 o 1 0).mem (ownKey 0x40)))) = true := by
  decide +kernel
theorem witness_object_waits : ([(0, 1), (openObject 5 4 1 15 1 true false, 1), (openObject 5 4 1 15 1 false false, 15),
      (openObject 5 4 1 15 1 false false, 14)].all fun p =>
    let s := withObject 16 p.1 (BitVec.ofNat 64 p.2) 0
    objectReady s (.bwait k0 1 2 (.reg 3)) 16 false && objectReady s (.btest k0 1 2 (.reg 3)) 16 false) = true := by decide +kernel
/-- The sequencer holds an object error for the object at 0x40. -/
def withObjErr (s : State) : State := s.withSeq .S { s.seq .S with objErr := some (0x40, FaultRec.none) }
theorem witness_object_error : (let s := withObjErr (withObject 16 0 1 0)
    let i := Instr.btest k0 1 2 (.reg 3)
    ready s i && cleanX s i 2 0 && cleanSrc s i (.reg 3) 1 && !fenced (met s i) .S 6 && ((met s i).seq .S).objErr == some (xVal s i 2 0, FaultRec.none)) =
    true := by decide +kernel
theorem witness_ring_init : ([0x40040#64, 0x400040#64, 0x300040#64, 0x40000#64, 0x40001#64].all fun v =>
    objectReady (withObject 64 0 v 0x400) (.rinit k0 1 2 (.reg 3)) 64 true && (withObject 64 0 v 0x400).pkg.heldRings == []) = true := by decide +kernel
theorem witness_ring_claims : ([16#64, 1#64].all fun n => [ringOf 0 0 0 0, ringOf 0xFFFFFFFF 0xFFFFFFFE 13 0xFFFFFFFE].all fun r =>
    let s := withObject 64 r n 0
    [Instr.rclaim k0 1 2 (.reg 3), .rtake k0 1 2 (.reg 3), .rwfill k0 1 2 (.reg 3), .rwfree k0 1 2 (.reg 3)].all fun i => objectReady s i 64 true &&
      !(Ring.ofBits (memRead s.mem (ownKey 0x40) 64)).invalid && !(Ring.ofBits (memRead s.mem (ownKey 0x40) 64)).err &&
      decide (n.toNat ≤ (Ring.ofBits (memRead s.mem (ownKey 0x40) 64)).slots)) = true := by decide +kernel
theorem witness_ring_publishes : ([0xFFFFFFFE#64, 0xFFFFFFFF#64, 0#64, 5#64].all fun c =>
    let s := withObject 64 (ringOf 0xFFFFFFFF 0xFFFFFFFE 3 0xFFFFFFFF) 1 c
    [Instr.rpub k0 1 2 (.reg 3), .rrel k0 1 2 (.reg 3)].all fun i => objectReady s i 64 true && !(Ring.ofBits (memRead s.mem (ownKey 0x40) 64)).invalid) =
    true := by decide +kernel
theorem witness_ring_status : objectReady (withObject 64 (ringOf 3 1 3 2) 1 0) (.rstat k0 1 2) 64 false = true ∧
    (Ring.ofBits (memRead (withObject 64 (ringOf 3 1 3 2) 1 0).mem (ownKey 0x40) 64)).invalid = false := by decide +kernel


/-! ## Streams and copies -/

/-- A descriptor of 4 entries of 256 bytes from 0 of own scratchpad, its cursor at `cur`, wrapping where `wrap`. -/
def streamDesc (wrap cur : Nat) : Nat :=
  wrap * 2 ^ 62 + 256 * 2 ^ 64 + 4 * 2 ^ 224 + 2 ^ 240 + 2 ^ 256 + 2 ^ 272 + 2 ^ 288 + cur * 2 ^ 312

/-- A plane whose stream slot 5 holds a descriptor. -/
def streamPlane (d : Nat) : Plane :=
  { Plane.clear with streams := Plane.clear.streams.set 5 { desc := BitVec.ofNat 512 d, valid := true, pend := 0 } }
/-- Slot 5 of both planes set up with a descriptor. -/
def withStream (s : State) (d : Nat) : State := { s with core := { s.core with planes := RegFile.fill 1 (streamPlane d) } }

theorem witness_sdef : ([streamDesc 0 0, 0].all fun d =>
    let s := withObject 64 d 0 0
    let i := Instr.sdef k0 5 2
    objectReady s i 64 false && (slotOf s 5).pend == 0 && !fenced (met s i) .S 0 &&
    placedAt s i 0 0x40 64 false (fun s1 key => readFails s1 key 64 == none)) && streamValid (streamDesc 0 0) && !streamValid 0 = true := by decide +kernel
theorem witness_stream_fields : ([(3, 0x7FFFFFFF#64), (3, 0xFFFFFFFF80000000#64), (3, 0x80000000#64), (0, 0x100000000000000#64), (14, 3#64), (8, 0#64)].all fun p =>
    let s := withStream (withRegs (base .S) 0 p.2) (streamDesc 1 3)
    let i := Instr.sset k0 5 p.1 (.reg 3)
    ready s i && cleanSrc s i (.reg 3) 0 && (slotOf s 5).valid && (slotOf s 5).pend == 0 && ready s (.sget k0 1 5 p.1) &&
    !(slotOf s 6).valid && ready s (.sset k0 6 p.1 (.reg 3)) && ready s (.sget k0 1 6 p.1) &&
    (p.1 != 8 || (match streamSet (slotOf s 5).desc.toNat 8 0 with | some d => !streamValid d | none => false))) = true := by decide +kernel
theorem witness_stream_cursor : ([(0, 0#64), (0, 1#64), (0, 2#64), (1, 2#64)].all fun p =>
    let s := withStream (withRegs (base .L) 0 p.2) (streamDesc p.1 3)
    let i := Instr.sadv k0 5 (.reg 3)
    ready s i && cleanSrc s i (.reg 3) 0 && (slotOf s 5).valid && (slotOf s 5).pend == 0 && cursorOf (slotOf s 5) == 3 && streamTotal (streamDesc p.1 3) == 4 &&
    ready s (.srst k0 5) && ready s (.spos k0 1 5)) = true := by decide +kernel
theorem witness_stream_moves : ([0#64, 1#64, 4#64].all fun c =>
    let s := withStream (withRegs (base .L) 0 c) (streamDesc 0 0)
    let i := Instr.sldn k0 2 5 (.reg 3)
    let u := withQueue (withStream (withReg (base .S) 1 c) (streamDesc 0 0)) 0
    let o : State := u.withTask { u.task with o := u.task.o.set 3 [onesEntry] }
    ready s i && cleanSrc s i (.reg 3) 0 && streamValid (slotOf s 5).desc.toNat && !fenced (met s i) .L 5 && !streamGated (slotOf s 5).desc.toNat &&
    (match entryPlace (met s i) 0 0 false with | (_, .key _ _) => true | _ => false) &&
    ready s (.sld k0 2 5) && sldnPending (met s (.sld k0 2 5)) 2 == false && decide (0 < qRoom (met s (.sld k0 2 5)) 2) &&
    entryLocked (met s (.sld k0 2 5)) 0 0 == none &&
    ready { o with cur := .W } (.sst k0 5 3) && ready { o with cur := .W } (.sstn k0 1 5 3) &&
    oHead (met { o with cur := .W } (.sst k0 5 3)) 3 == some onesEntry && !unitAhead (met { o with cur := .W } (.sst k0 5 3)) false 3) = true := by
  decide +kernel
/-- The same descriptor gated by keep-mask 1 with its tile index taken from dimension 0. -/
def gatedDesc : Nat := streamDesc 0 0 + (8 + 16) * 2 ^ 304
theorem witness_stream_edges : (let s := withStream (base .L) gatedDesc
    ready s (.sld k0 2 5) && streamValid gatedDesc && streamGated gatedDesc && streamSkips gatedDesc (some 0) 0 && streamTileOver gatedDesc 0 4 == false &&
    streamTileOver (streamDesc 0 511 + 596 * 2 ^ 224) 511 2 && !streamTileOver (streamDesc 0 511 + 596 * 2 ^ 224) 511 1 && streamTotal (streamDesc 0 3) == 4 &&
    !streamWrap (streamDesc 0 3)) = true := by decide +kernel
/-- A descriptor of 128 bytes at 0x80 of own scratchpad, x2 its address, x3 an operand. -/
def withBlock (v : Nat) (b : Word64) : State := withRegs { base .S with mem := memWrite [] (ownKey 0x80) 128 v } 0x80 b

/-- What an instruction on a block at 0x80 asks of the state. -/
def blockReady (s : State) (i : Instr) (w : Bool) (p : State → Nat → Bool) : Bool :=
  ready s i && Memory.wf s.mem && cleanX s i 2 0 && (xVal s i 2 0).extractLsb 63 56 == 0 && !fenced (met s i) .S 6 && !fencedPoint (met s i) .S &&
    !fenced (met s i) .S 0 && !fenced (met s i) .S 1 && !fenced (met s i) .S 2 && !fenced (met s i) .S 4 && placedAt s i 0 0x80 128 w p

/-- A descriptor that moves 256 bytes of own scratchpad from 0; for GATH and SCAT one row of 256 bytes. -/
def copyDesc (indexed : Bool) : Nat := 0x400 + (if indexed then 2 * 2 ^ 200 + 2 ^ 384 else 2 ^ 200) + 256 * 2 ^ 208

theorem witness_copies : (copyForms.all fun r => let d := copyDesc (r.2 == 2 || r.2 == 3)
    blockReady (withBlock d 0) (r.1 k0 2) false fun s1 key => readFails s1 key 128 == none && !copyBad (memRead s1.mem key 128) r.2 &&
      (handleCheck s1 d r.2 false).isNone && (handleCheck s1 d r.2 true).isNone && (match firstPage s1 d r.2 false with | .at _ => true | _ => false) &&
      (match firstPage s1 d r.2 true with | .at _ => true | _ => false)) = true := by decide +kernel
theorem witness_cpyq : (let s := withBlock (copyDesc false) 0
    blockReady s (.cpyq k0 2 3) false fun s1 key => !copyBad (memRead s1.mem key 128) 4 && copyTotal (memRead s1.mem key 128) == 256 &&
      decide (1 ≤ qRoom (met s (.cpyq k0 2 3)) 3) && !sldnPending (met s (.cpyq k0 2 3)) 3) = true := by decide +kernel
theorem witness_copy_bad : (copyForms.all fun r => blockReady (withBlock 0 0) (r.1 k0 2) false fun s1 key =>
    copyBad (memRead s1.mem key 128) r.2 && readFails s1 key 128 == none) = true := by decide +kernel


/-! ## Templates, masks and keep-masks -/

theorem witness_templates : ([0x1700#64, 0x173F#64, 0x1800#64, 0#64, 0x0140#64, 0x1900#64].all fun v =>
    let s := withRegs (base .C) v 1
    let i := Instr.tset k0 2 (.reg 3)
    ready s i && cleanX s i 2 0 && cleanSrc s i (.reg 3) 1 && !coveredHit (met s i).task .C [.tpl (namedSlot v)]) &&
    ([0x1900#64, 0x013F#64, 0x1A00#64, 0#64].all fun v => let s := withReg (base .C) 2 v
      ready s (.tget k0 1 2) && cleanX s (.tget k0 1 2) 2 0 && !coveredHit (met s (.tget k0 1 2)).task .C [.tpl (namedSlot v)]) &&
    ([0#64, 63#64, 64#64].all fun v => let s := withReg (base .C) 2 v
      ready s (.tclr k0 2) && cleanX s (.tclr k0 2) 2 0 && !coveredHit (met s (.tclr k0 2)).task .C [.tpl (namedSlot v)] &&
      cleanX (withQueue s 7) (.tld k0 2 1 7) 2 0 && ready (withQueue s 7) (.tld k0 2 1 7) && !matAhead (met (withQueue s 7) (.tld k0 2 1 7)) 7 &&
      (met (withQueue s 7) (.tld k0 2 1 7)).task.q.get 7 == [onesEntry]) = true := by decide +kernel
/-- The causal term: keys at or before the query. -/
def causal : Word64 := 0x7FFFFFF000000043#64
/-- Mask slot 1 of both planes set up with a program. -/
def withMask (s : State) (p : MaskSlot) : State :=
  { s with core := { s.core with planes := RegFile.fill 1 { Plane.clear with masks := Plane.clear.masks.set 1 p } } }
theorem witness_mkld : ([0#64, 1#64, 17#64].all fun n => [0, causal.toNat].all fun w =>
    let s := withBlock w n
    let i := Instr.mkld k0 1 2 (.reg 3)
    ready s i && cleanX s i 2 0 && cleanSrc s i (.reg 3) 1 && !fenced (met s i) .S 0 &&
    (match readSpan .issue 0 3 (met s i) 0x80 8 with | .ok _ v => v == w | _ => false)) = true ∧
    programFault [causal] = none ∧ programFault [0] = some 0x0B#8 ∧ programFault (List.replicate 5 3 ++ [causal]) = some 0x0C#8 := by decide +kernel
theorem witness_tile_classes : (let m : Summary := { nvalid := 128, r := { p0 := 0, p1 := 127, d0 := 0, d1 := 0 } }
    decide (classTile (some [causal]) [127] m = .full) && decide (classTile (some [causal]) [126] m = .partly) && allowedPair [causal] 127 127 &&
    decide (classTile (some [causal]) [127] { m with r := { m.r with p0 := 128, p1 := 255 } } = .empty)) = true := by decide +kernel
/-- A descriptor of one tile with program slot 1. -/
def mkevDesc : Nat := 2 ^ 128 + 2 ^ 144
theorem witness_mkev : ([mkevDesc, 0].all fun d =>
    let s := { withObject 32 d 0 0 with core := (withMask (withObject 32 d 0 0) [causal]).core, cur := SeqId.L }
    let s : State := withReg s 2 0x40
    let i := Instr.mkev k0 2 2
    ready s i && cleanX s i 2 0 && !fenced (met s i) .L 0 && !fenced (met s i) .L 5 && !fenced (met s i) .L 6 && !fencedPoint (met s i) .L &&
    placedAt s i 0 0x40 32 false (fun s1 key => readFails s1 key 32 == none && memRead s1.mem key 32 == d) && mkevBad d == (d == 0) &&
    (d == 0 || (!coveredHit (met s i).task .L [.mask (mkevSlot d)] && (met s i).readMask (mkevSlot d) 30 == [causal])) &&
    !sldnPending (met s i) 2 && decide (0 < qRoom (met s i) 2)) = true := by decide +kernel
/-- C with its program in slot 1, keep-mask 2 and x3 set. -/
def maskCore (km : BitVec 512) (c : Word64) : State :=
  let s := withReg (withMask (base .C) [causal]) 3 c
  s.withTask { s.task with km := s.task.km.set 2 km }
theorem witness_mkel : ([(1, 0x20000009#64), (0, 0x20000009#64), (0, 0x20000059#64), (1, 0xE0001F08#64)].all fun p =>
    let s := maskCore p.1 p.2
    let i := Instr.mkel k0 1 4 (.reg 3)
    let c := srcVal s i (.reg 3) 0
    ready s i && cleanSrc s i (.reg 3) 0 && c &&& ~~~0xF1FF1F7F#64 == 0 && !coveredHit (met s i).task .C
      [.mask (c.extractLsb 1 0), .km (c.extractLsb 3 2), .v (c.extractLsb 31 28), .v (c.extractLsb 31 28 + 1), .km (c.extractLsb 6 5)] &&
    s.task.vPoison == [] && ((met s i).readMask (c.extractLsb 1 0) 31 == []) == (p.2 == 0xE0001F08)) = true := by decide +kernel
theorem witness_km_operations : ([511#64, 512#64].all fun v => let s := maskCore 5 v
      ready s (.mkct k0 1 1 2 (.reg 3)) && cleanSrc s (.mkct k0 1 1 2 (.reg 3)) (.reg 3) 0) &&
    ([0x20#64, 0x21#64, 0x1FF01FF0002#64, 0x1FF0003#64, 0x20000000004#64].all fun c => let s := maskCore 5 c
      ready s (.kmop k0 1 2 (.reg 3)) && cleanSrc s (.kmop k0 1 2 (.reg 3)) (.reg 3) 0 && c &&& ~~~(kmopBits (c.extractLsb 2 0).toNat) == 0 &&
      !coveredHit (met s (.kmop k0 1 2 (.reg 3))).task .C [.km (c.extractLsb 5 4)]) = true := by decide +kernel
theorem witness_km_queues : (let s := withQueue (base .C) 7
    ready s (.kmioIn k0 3 1 1 7) && !matAhead (met s (.kmioIn k0 3 1 1 7)) 7 && (met s (.kmioIn k0 3 1 1 7)).task.q.get 7 == [onesEntry] &&
    ready s (.kmioOut k0 2 1) && decide ((s.task.o.get 2).length < 16)) = true := by decide +kernel
theorem witness_thr : ([0x3F80000000000000#64, 0xBF80000000000000#64, 0x20000000001#64, 0x0000000000000001#64, 0x7FC0000000000002#64].all fun c =>
    let s := maskCore 7 c
    let i := Instr.thr k0 1 2 (.reg 3)
    ready s i && cleanSrc s i (.reg 3) 0 && c.extractLsb 1 0 != 3#2 && c.extractLsb 31 4 == 0) = true ∧
    ([0x3#64, 0x13#64, 0x10#64].all fun c => let s := maskCore 7 c
      ready s (.thr k0 1 2 (.reg 3)) && cleanSrc s (.thr k0 1 2 (.reg 3)) (.reg 3) 0 && (c.extractLsb 1 0 == 3#2 || c.extractLsb 31 4 != 0)) = true ∧
    (selected 1 1 [(0, ofF32 0), (1, ofF32 0x3F800000)]) = some [1] ∧ selected 1 0 [(0, ofF32 0)] = none := by decide +kernel
theorem witness_counters : ([0#64, 31#64].all fun v => let s := withBlock 0 v
      blockReady s (.acct k0 2 (.reg 3)) true fun _ key => !isYard key && !noRoute s key && cleanSrc s (.acct k0 2 (.reg 3)) (.reg 3) 1 && (s.seq .S).writeErr.isEmpty) &&
    ([0xFFFF#64, 0x10000#64].all fun v => let s := withBlock 0 v
      ready s (.acctz k0 (.reg 3)) && cleanSrc s (.acctz k0 (.reg 3)) (.reg 3) 0) = true := by decide +kernel
/-- A descriptor of one page and one row of 64 elements. -/
def attDesc : Nat := 2 ^ 192 + 2 ^ 208
/-- Entry 0 of the request table of S in a state. -/
def withReq (s : State) (r : Req) : State := s.withSeq .S { s.seq .S with reqs := (s.seq .S).reqs.set 0 r }
theorem witness_attention : ([attDesc, 0].all fun d => let s := withReq (withBlock d 0) { Req.idle with state := .busy }
      let i := Instr.attq k0 1 2
      blockReady s i false fun s1 key => readFails s1 key 128 == none && attBad (memRead s1.mem key 128) == (d == 0) &&
        (((met s i).seq .S).reqs.get 1).state == .idle && decide (((met s i).seq .S).e.length < 32)) &&
    ([Req.idle, { Req.idle with state := .completed }, { Req.idle with state := .busy }, { Req.idle with state := .failed, delivered := true },
      { Req.idle with state := .failed, record := some FaultRec.none }].all fun r => let s := withReq (base .S) r
      ready s (.attw k0 1 2) && cleanX s (.attw k0 1 2) 2 0 && ((met s (.attw k0 1 2)).seq .S).reqs.get 0 == r) = true := by decide +kernel


/-! ## Vector kinds -/

/-- A record of a vector kind from v2 (and the two further codes) to v1 under mask m1: kind, types, the codes, MODULUS, K and SCALE. -/
def vecTpl (kind d s1 s2 s3 src2 src3 modulus k scale : Nat) : Template :=
  { kind := BitVec.ofNat 8 kind, dtype := BitVec.ofNat 4 d, stype1 := BitVec.ofNat 4 s1, stype2 := BitVec.ofNat 4 s2, stype3 := BitVec.ofNat 4 s3
    dst := 1, src1 := 2, src2 := BitVec.ofNat 8 src2, src3 := BitVec.ofNat 8 src3, lmsel := 9, rnd := 0, sat := 0, k := BitVec.ofNat 16 k
    stampmode := 0, stampreg := 0, peer := 0, accmode := 0, scale := BitVec.ofNat 4 scale, rsv94 := 0, base := 0, strides := 0
    modulus := BitVec.ofNat 64 modulus, mcgroup := 0, kmsel := 0, latclass := 0, rsv240 := 0 }

/-- C with an even mask in m1. -/
def vecCore : State := (base .C).withTask { (base .C).task with m := (base .C).task.m.set 1 0x5555555555555555#64 }

/-- What a vector kind asks of the state: it is ready, its record legal, its queues filled and the lanes it reads free of poison. -/
def vecOk (i : Instr) (k : TplIssue) (codes : List (BitVec 8)) (legal : Bool) (lanes : List (BitVec 64)) : Bool :=
  readyOn vecCore .C i && legal && (queueLacking (reached vecCore .C i) codes).isNone &&
    lanes.zipIdx.all (fun p => (sourcePoison (reached vecCore .C i) codes p.2 p.1).isNone) && !isO k.tpl.dst

/-- The same for a row. -/
def rowOk (r : VecRow) (t : Template) : Bool :=
  let k : TplIssue := { patch := 0xC0000000#32, lits := [], tpl := t }
  let codes := [t.src1, t.src2, t.src3].take r.sources
  vecOk (r.kind k) k codes (r.legal t) (r.lanes (vecInOf vecCore (r.kind k) k codes r.draws))

/-- A record of each row of `vecArith`. -/
def arithTpls : List Template :=
  [ vecTpl 0 2 2 0 0 255 255 0 0 0,
    vecTpl 1 2 2 2 0 3 255 0 0 0,
    vecTpl 2 2 2 2 0 3 255 0 0 0,
    vecTpl 3 2 2 2 0 3 255 0 0 0,
    vecTpl 4 8 8 8 8 3 4 0 0 0,
    vecTpl 5 8 8 8 8 3 4 0 0 0,
    vecTpl 6 8 8 8 8 3 4 0 0 0,
    vecTpl 7 2 2 2 0 3 255 0 0 0,
    vecTpl 8 2 2 2 0 3 255 0 0 0,
    vecTpl 45 2 2 2 2 3 4 0 0 0,
    vecTpl 9 2 2 0 0 255 255 0 0 0,
    vecTpl 10 2 2 0 0 255 255 0 0 0 ]
/-- A record of each row of `vecMoves`. -/
def moveTpls : List Template :=
  [ vecTpl 12 2 2 2 0 3 65 0 0 0,
    vecTpl 13 2 2 2 0 3 255 0 0 0,
    vecTpl 14 2 2 2 0 3 255 0 0 0,
    vecTpl 15 2 2 2 0 3 255 0 0 0,
    vecTpl 16 2 2 0 0 255 255 0 0 0,
    vecTpl 17 2 2 2 0 3 255 0 0 0,
    vecTpl 18 2 2 2 0 3 255 0 0 0,
    vecTpl 19 2 2 2 0 3 255 0 0 0,
    vecTpl 31 2 2 0 0 3 255 0 0 0,
    vecTpl 32 2 2 0 0 3 255 0 0 0,
    vecTpl 33 2 2 0 0 255 255 0 0 0,
    vecTpl 34 2 2 0 0 255 255 0 0 0,
    vecTpl 35 2 2 0 0 255 255 0 0 0 ]
/-- A record of each row of `vecModular`. -/
def modularTpls : List Template :=
  [ vecTpl 39 15 15 15 0 3 255 65537 0 0,
    vecTpl 40 15 15 15 0 3 255 65537 0 0,
    vecTpl 41 15 15 15 0 3 255 65537 0 0,
    vecTpl 44 15 7 0 0 255 255 65537 0 0,
    vecTpl 42 15 15 15 0 3 255 65537 0 0,
    vecTpl 43 15 15 15 0 3 255 65537 0 0 ]
/-- A record of each row of `vecFunctions`. -/
def functionTpls : List Template :=
  [ vecTpl 20 0 8 0 0 255 255 0 0 0,
    vecTpl 22 8 11 0 0 255 255 0 64 1,
    vecTpl 23 8 8 0 0 255 255 0 0 0,
    vecTpl 24 8 8 0 0 255 255 0 0 0,
    vecTpl 25 8 8 0 0 255 255 0 0 0,
    vecTpl 26 8 8 0 0 255 255 0 0 0,
    vecTpl 27 8 8 0 0 255 255 0 0 0,
    vecTpl 28 8 8 6 8 3 4 0 0 0,
    vecTpl 37 8 8 8 0 3 255 0 0 0,
    vecTpl 38 8 8 8 8 3 4 0 0 0,
    vecTpl 48 2 0 0 2 3 4 0 0 0,
    vecTpl 30 2 2 0 0 255 255 0 0 0 ]

theorem witness_vec_arith : (List.zipWith rowOk vecArith arithTpls).all id = true ∧ arithTpls.length = vecArith.length := by decide +kernel
theorem witness_vec_moves : (List.zipWith rowOk vecMoves moveTpls).all id = true ∧ moveTpls.length = vecMoves.length := by decide +kernel
theorem witness_vec_modular : (List.zipWith rowOk vecModular modularTpls).all id = true ∧ modularTpls.length = vecModular.length := by decide +kernel
theorem witness_vec_functions : (List.zipWith rowOk vecFunctions functionTpls).all id = true ∧ functionTpls.length = vecFunctions.length := by decide +kernel

/-- A term of a record. -/
def tplOf (t : Template) : TplIssue := { patch := 0xC0000000#32, lits := [], tpl := t }
theorem witness_vec_whole : (let red := tplOf (vecTpl 29 2 2 0 0 255 255 0 0 0)
    let qnt := tplOf (vecTpl 21 11 8 0 0 255 255 0 0 1)
    let pack := tplOf { vecTpl 46 0 0 0 0 3 255 0 32 0 with lmsel := 0 }
    let unpk := tplOf { vecTpl 47 0 0 0 0 255 255 0 1024 0 with lmsel := 0 }
    vecOk (.vred red) red [2] (vredLegal red.tpl) (quantLanes (vecInOf vecCore (.vred red) red [2] true)) &&
    vecOk (.vqnt qnt) qnt [2] (vqntLegal qnt.tpl) (quantLanes (vecInOf vecCore (.vqnt qnt) qnt [2] true)) &&
    vecOk (.vpack pack) pack [2, 3] (vpackLegal pack.tpl) (packLanes (vecInOf vecCore (.vpack pack) pack [2, 3] false)) &&
    vecOk (.vunpk unpk) unpk [2] (vunpkLegal unpk.tpl) (packLanes (vecInOf vecCore (.vunpk unpk) unpk [2] false))) = true := by decide +kernel
theorem witness_vec_masks : ([1#8, 0x42#8].all fun d =>
    let cmp := tplOf { vecTpl 11 2 2 2 0 3 255 0 0 2 with dst := d }
    vecOk (.vcmp cmp) cmp [2, 3] (vcmpLegal cmp.tpl) (sameLanes (vecInOf vecCore (.vcmp cmp) cmp [2, 3] false))) &&
    ([(0x42#8, 0x40#8, 0x41#8), (0x4B#8, 0x48#8, 0x49#8)].all fun c =>
      let log := tplOf { vecTpl 36 0 0 0 0 255 255 0 0 0 with dst := c.1, src1 := c.2.1, src2 := c.2.2, lmsel := 0 }
      readyOn vecCore .C (.vmlog log) && vmlogLegal log.tpl) = true := by decide +kernel


/-! ## Templates issued by patch words, and the matrix engine -/

/-- C with template 5 holding a record. -/
def withTpl (s : State) (t : Template) : State :=
  { s with core := { s.core with planes := RegFile.fill 1 { Plane.clear with tpl := Plane.clear.tpl.set 5 t.toBits } } }

theorem witness_patch : ([(vecTpl 1 2 2 2 0 3 255 0 0 0, 6#6, 7#16, []), (vecTpl 1 2 2 2 0 0x3A 255 0 0 0, 62#6, 13#16, [5#32, 6#32]),
      (vecTpl 0x31 2 2 2 0 3 255 0 0 0, 0#6, 0#16, []), (vecTpl 1 2 2 2 0 0x3B 0x3B 0 0 0, 62#6, 13#16, [5#32, 6#32])].all fun p =>
    let s := withTpl (base .C) p.1
    let mk := Instr.patchWord 5 0 p.2.1 p.2.2.1 p.2.2.2
    s.task.hold.isNone && canIssue s .C && !boundMissed s .C && (heldFault s .C (fun _ => false)).isNone && mk.wellFormed &&
      !coveredHit (s.withSeq .C (armIf (s.seq .C))).task .C [.tpl 5]) = true := by decide +kernel
/-- A record of an engine operation to acc0: kind, types, codes, K and SCALE. -/
def matTpl (kind d s1 s2 s3 src1 src2 src3 k scale modulus : Nat) : Template :=
  { vecTpl kind d s1 s2 s3 src2 src3 modulus k scale with dst := 0x34, src1 := BitVec.ofNat 8 src1, lmsel := 0 }
/-- A record of each row of `matRows`. -/
def matTpls : List Template :=
  [ matTpl 0x80 2 0 0 0 0x20 0x21 255 32 0 0, matTpl 0x81 8 11 11 0 0x20 0x21 255 32 1 0, matTpl 0x82 2 14 14 0 0x20 0x21 255 64 0 0,
    matTpl 0x83 15 15 15 0 0x20 0x21 255 32 0 0x10001, matTpl 0x84 8 0 0 0 255 255 255 0 0 0, matTpl 0x87 2 2 2 0 0x35 0x36 255 0 0 0,
    matTpl 0x88 6 6 0 0 0x35 255 255 0 0 0, { matTpl 0x85 2 2 0 0 0x34 0x22 255 7 0 0 with dst := 0x4C }, matTpl 0x86 2 2 0 0 2 255 255 7 0 0,
    { matTpl 0xC0 8 8 13 7 0x20 0x21 0x22 64 1 0 with dst := 0xFF, base := 0x114 } ]
/-- C with its mask program and a free engine. -/
def matCore : State := withMask (base .C) [causal]
theorem witness_mat_legal : (List.zipWith (fun (r : MatRow) t => readyOn matCore .C (r.1 (tplOf t)) && r.2.1 t && t.stampmode == 0 && !hasKm t)
    matRows matTpls).all id = true ∧ matTpls.length = matRows.length := by decide +kernel
theorem witness_mat_free : (matTpls.all fun t => let m := reached matCore .C (.mma (tplOf t))
    (operandFault m t).isNone && !hasRemote t && decide (m.task.mats.length < 16) && decide (bandEntries t.dtype ≤ qRoom m 2) &&
      !sldnPending m 2 && m.task.vPoison == [] && m.readMask 1 14 == [causal]) = true := by decide +kernel
theorem witness_mat_gated : (let t := { matTpl 0x80 2 0 0 0 0x20 0x21 255 32 0 0 with kmsel := 8#4, strides := 511 }
    readyOn matCore .C (.mma (tplOf t)) && mmaLegal t && hasKm t && !kmBit (reached matCore .C (.mma (tplOf t))) t) = true := by decide +kernel
theorem witness_stamped : ([0#64, 1#64].all fun e => ([0, 1, 2, 3].all fun n =>
    let r : MatRow := matRows.getD n (Instr.mma, mmaLegal, accumFree)
    let t := { matTpls.getD n (vecTpl 0 0 0 0 0 0 0 0 0 0) with stampmode := 1, stampreg := 2 }
    let s := withReg matCore 2 e
    let m := reached s .C (r.1 (tplOf t))
    readyOn s .C (r.1 (tplOf t)) && r.2.1 t && s.task.hold.isNone && (m.readX .C 2 13).2.isNone && (m.readX .C 2 13).1 == e && s.pkg.time == 0 &&
      (operandFault m t).isNone && !stampReady m t)) = true := by decide +kernel
theorem witness_scores : ([(0x01#8, 0xFF#8, 8#4, 0#4), (0x32#8, 0xFF#8, 8#4, 0#4), (0xFF#8, 0x02#8, 0#4, 8#4), (0xFF#8, 0x2F#8, 0#4, 8#4)].all fun p =>
    let t := { vecTpl 0xC1 0 0 0 0 255 255 0 7 0 with dst := p.1, src1 := p.2.1, dtype := p.2.2.1, stype1 := p.2.2.2 }
    let s := withQueue vecCore 7
    let m := reached s .C (.mscr (tplOf t))
    readyOn s .C (.mscr (tplOf t)) && mscrLegal t && decide (0 < oRoom m 2) && (queueLacking m [t.src1]).isNone &&
      (sourcePoison m [t.src1] 0 (laneMaskOf m t)).isNone) = true := by decide +kernel
/-- An operation in the engine. -/
def matOf (t : Template) : MatCmd := { newMat matCore .C (.mma (tplOf t)) (tplOf t) with regs := List.replicate 8 (BitVec.allOnes 2048) }
/-- C with an operation's results in flight. -/
def withResults (s : State) (m : MatCmd) : State :=
  s.withSeq .C { s.seq .C with pend := [{ due := 5, writes := [], push := none, covered := false, op := some m.id }] }
/-- The engine with one operation, its queues 0 and 1 holding what a group takes. -/
def withEngine (t : Template) : State :=
  matCore.withTask { matCore.task with
    mats := [matOf t]
    q := (matCore.task.q.set 0 (List.replicate 64 onesEntry)).set 1 (List.replicate 64 onesEntry) }
theorem witness_mat_groups : ([matTpl 0x80 2 0 0 0 0x20 0x21 255 64 0 0, matTpl 0x80 8 11 12 0 0x20 0x21 255 32 0 0, matTpl 0x83 15 15 15 0 0x20 0x21 255 32 0 3].all fun t =>
    let s := withEngine t
    let g := gatherGroup s (matOf t)
    s.task.mats == [matOf t] && decide (t.kind.toNat < 0x84) && !(matOf t).stopped && (match g.2.2 with | .ready => true | _ => false) &&
      g.1.task.mats == s.task.mats && g.2.1.issue == tplOf t && g.2.1.id == (matOf t).id && g.2.1.done == 0) = true := by decide +kernel
theorem witness_mat_moves : ([4, 5, 6].all fun n => let t := matTpls.getD n (vecTpl 0 0 0 0 0 0 0 0 0 0)
    (withEngine t).task.mats == [matOf t] && !(matOf t).stopped && [0x84#8, 0x87#8, 0x88#8].contains t.kind) = true ∧
    ((withEngine (matTpl 0x87 8 8 8 0 0x35 0x36 255 0 0 0)).task.mats = [matOf (matTpl 0x87 8 8 8 0 0x35 0x36 255 0 0 0)]) ∧ maddaLegal (matTpl 0x87 8 8 8 0 0x35 0x36 255 0 0 0) = true ∧
    (matTpl 0x86 6 6 0 0 2 255 255 7 0 0).kind = 0x86 ∧ isPop (matTpl 0x86 6 6 0 0 2 255 255 7 0 0).src1 = false ∧
    (withEngine (matTpl 0x86 6 6 0 0 2 255 255 7 0 0)).core.run = .running := by decide +kernel
theorem witness_bands : ([(2, 2, 1, 255), (6, 6, 0x32, 255), (13, 8, 0x4C, 0x22)].all fun p =>
    let t := { matTpl 0x85 p.1 p.2.1 0 0 0x34 p.2.2.2 255 7 0 0 with dst := BitVec.ofNat 8 p.2.2.1 }
    let c := matOf t
    let s := withResults (withEngine t) c
    s.task.mats == [c] && s.core.run == .running && !c.stopped && t.kind == 0x85 && mstLegal t && (s.seq .C).pend.all (fun p => p.op == some c.id)) = true := by
  decide +kernel
/-- The last group of a SCOUT at the head of the engine. -/
def scoutOf (acc : BitVec 2) : MatCmd :=
  let t := { matTpls.getD 9 (vecTpl 0 0 0 0 0 0 0 0 0 0) with accmode := acc }
  { matOf t with
    done := 1
    tag := [onesEntry.data]
    regs := List.replicate 2 0
    buf1 := List.replicate (need1 t) 0
    buf2 := List.replicate (need2 t) 0 }
theorem witness_scout : ([0#2, 1#2].all fun acc =>
    let c := scoutOf acc
    let t := c.issue.tpl
    let s := withResults ((withEngine t).withTask { (withEngine t).task with mats := [c] }) c
    let g := gatherGroup s c
    s.core.run == .running && !c.stopped && t.kind == 0xC0 && scoutLegal t && g.2.2 == .ready && g.1.task.mats == s.task.mats && g.2.1.issue == c.issue &&
      g.2.1.id == c.id && g.2.1.done + 1 == groupsOf t && g.2.1.buf1.length == groupsOf t * need1 t && g.2.1.buf2.length == groupsOf t * need2 t &&
      g.2.1.tag.length == 1 && g.2.1.regs.length == 2 && (g.1.seq .C).pend.all (fun p => p.op == some c.id)) = true := by decide +kernel


/-! ## Retirement, dispatch, planes and pre-emption -/

/-- S with one result in flight, due in the first cycle. -/
def withPending (w : Write) : State := (base .S).withSeq .S { (base .S).seq .S with
  pend := [{ due := 0, writes := [w], push := none, covered := false, op := none }] }
theorem witness_retire : ([Write.x 0 1 none, .x 15 1 none, .flag 7 1, .bt 3 4, .v 2 (BitVec.allOnes 2048) 5, .fflags 0x40, .acct 9 1, .acc 3 1].all fun w =>
    let s := withPending w
    s.seq .S |>.pend.all (fun p => p.writes == [w] && p.push.isNone && p.op.isNone && decide (p.due ≤ s.core.cycle))) = true ∧
    ((base .S).seq .S).pend = [] := by decide +kernel
/-- A record: sequencers S and L present with entry words 4 and 8, image at VA 0x10000, the words that `f` changes. -/
def recordWith (f : RegFile 6 Word64 → RegFile 6 Word64) : RegFile 6 Word64 :=
  f ((((RegFile.fill 6 0).set 0 3#64).set 2 0x10000#64).set 8 0x80004#64)
/-- A launch of world 0 that this record gives, one task of one group. -/
def launch0 (r : RegFile 6 Word64) : Launch where
  lid := 1
  queueDie := 0
  queue := 0
  packet := RegFile.fill 4 0
  record := r
  state := .running
  since := 0
  groups := [{ num := 0, state := .running, since := 0, aging := 0, quantumOver := false, drained := 0, tp := 0, yieldTo := false, short := false }]
  fresh := 1
  freshAging := 0
  tasksDone := 0
  total := 1
  groupSize := 1
  code := none
  cause := 0
  userCode := 0
  succRef := false
  restarted := false
  cache := []
/-- The identity of its task. -/
def ident0 : TaskId := { TaskId.clear with lid := 1 }
/-- The core with this task staged, its image readable at VA 0x10000. -/
def stagedTask (ready : Bool) (world : BitVec 6) : State :=
  let s := { mapped 0x1000B#64 (base .S) with cur := SeqId.S }
  { s with
    core := { Core.reset with run := .staging, next := some { ident0 with world := world }, ready := ready, loading := !ready }
    pkg := { s.pkg with launches := [launch0 (recordWith id)] } }
theorem witness_dispatch : (stagedTask true 0).core.next = some ident0 ∧ launchOf (stagedTask true 0) 1 = some (launch0 (recordWith id)) ∧
    (stagedTask true 0).core.ready = true ∧ groupReady (stagedTask true 0) 1 0 = true ∧ (stagedTask false 0).core.loading = true ∧
    (planeOf (stagedTask false 0) 0 0 (recordWith id)).isSome = true ∧ (stagedTask true 1).core.lastWorld ≠ 1 ∧ worldOwed (stagedTask true 1) = false := by decide +kernel
/-- The running task with every sequencer set so. -/
def allSeqsAs (s : State) (a : SeqState) : State := s.withTask { s.task with seqs := RegFile.fill 2 a }
/-- A write that has been lost on path 0. -/
def lostStore : LostWrite := { path := 0, oclass := 0, slot := none, record := FaultRec.none }
/-- A task of the launch at its drain point: every sequencer has exited, S with a successor tag. -/
def drainState (tag : Word64) (err : Option LostWrite) : State :=
  let s := allSeqsAs (base .S) { runSeq with exited := true, succTag := tag, writeErr := err.toList }
  { s.withTask { s.task with ident := { ident0 with succRec := 0x200, succTag := 5 } } with
    core := { (s.withTask { s.task with ident := { ident0 with succRec := 0x200, succTag := 5 } }).core with ready := true, staged := some (recordWith id) }
    pkg := { s.pkg with launches := [launch0 (recordWith id)] } }
theorem witness_flip : (let s := allSeqsAs (base .S) { runSeq with swapWait := true }
    let t : State := { s with core := { s.core with ready := true } }
    t.core.run == .running && t.core.ready && (t.seq .S).present && [SeqId.S, .L, .C, .W].all (fun q => (t.seq q).swapWait) && enginesEmpty t &&
      t.task.q == RegFile.fill 3 [] && t.task.o == RegFile.fill 2 []) = true := by decide +kernel
theorem witness_drain : (atDrain (drainState 5 none) && (drainRecords (drainState 5 none).task).isEmpty && successorNamed (drainState 5 none) &&
    recSplit (recordWith id) == (drainState 5 none).task.split && (drainState 5 none).core.ready && (drainState 5 none).core.staged.isSome && atDrain (drainState 0 none) && (exitTag (drainState 0 none) == 0) &&
    (drainRecords (drainState 0 none).task).isEmpty && (launchOf (drainState 0 none) (drainState 0 none).task.ident.lid).isSome &&
    atDrain (drainState 0 (some lostStore)) && !(drainRecords (drainState 0 (some lostStore)).task).isEmpty) = true := by decide +kernel
theorem witness_deadlock : (deadlocked (allSeqsAs (base .S) { runSeq with exited := true })).isNone = true ∧
    (let s := allSeqsAs (base .S) { runSeq with stall := some (.token 0) }
     (deadlocked s).isSome = true ∧ stallStands s .S = some true) ∧
    (let s := allSeqsAs (base .S) { runSeq with stall := some (.queueEmpty 2 2) }
     (deadlocked s).isSome = true ∧ stallStands s .S = some false) := by decide +kernel
/-- The task on its way to a halt at time 0, L halted or not. -/
def haltingTask (others : Bool) : State :=
  let s := allSeqsAs (base .S) { runSeq with halted := others }
  let t := s.withSeq .S runSeq
  { t with core := { t.core with run := .halting 0 } }
theorem witness_halt : ([true, false].all fun h => (haltingTask h).core.run == .halting 0 && !((haltingTask h).seq .S).halted &&
    ((haltingTask h).seq .L).halted == h && !((haltingTask h).task.mats.take 1).any MatCmd.midGroup) = true := by decide +kernel
/-- S waits for page 3, whose backing is mapped. -/
def refillTask : State :=
  let s := (mapped rwLeaf (base .S)).withSeq .S { runSeq with stall := some (.page 3) }
  s.withTask { s.task with ident := { s.task.ident with scrBase := 0x10000 } }
theorem witness_refill : (Memory.wf refillTask.mem && refillTask.core.run == .running && (refillTask.seq .S).stall == some (.page 3) &&
    !resident refillTask 3 && (freeWay ((bankMates refillTask 3).map Resident.way) 0 6).isSome && ownBacking refillTask 3 == some 0x1C000) = true := by
  decide +kernel


/-! ## Groups, yards and launches -/

/-- A state with its package changed. -/
def withP (s : State) (f : Package → Package) : State := { s with pkg := f s.pkg }
/-- The task of `launch0` runs; memory as `m`. -/
def running0 (m : List Host.Cell) : State :=
  let s := (base .S).withTask { (base .S).task with ident := ident0 }
  withP { s with mem := m } (fun p => { p with launches := [launch0 (recordWith id)] })
/-- Five save frames of world 0 on die 0. -/
def saveMem : List Host.Cell := memPutWords [] (frameEntry 0 0x4000) [0x30000000300, 0x30000000300, 0x300]
theorem witness_preempt : ([saveMem, []].all fun m => let s := running0 m
    (launchOf s 1).isSome && ((launch0 (recordWith id)).group 0).isSome && ownInGroup s 1 0 && s.core.run == .running &&
    saveRoom s ((launch0 (recordWith id)).world s) 1 0 == !m.isEmpty) = true := by decide +kernel
/-- A task of group 0 of launch 1 on a core of another die. -/
def farPeer : Peer :=
  { core := 5, lid := 1, group := 0, task := 1, world := 0, slot := 0, split := 2, scrBase := 0, die := 0, queue := 0, placed := true,
    resident := true, pins := [], area := none }
theorem witness_dies : (let s := running0 []
      (diesOf s 1 0).eraseDups.length == 1 && (diesOf (withP s (fun p => { p with peers := [{ farPeer with core := 1024 }] })) 1 0).eraseDups.length == 2) =
    true := by decide +kernel
theorem witness_save : (let s := running0 saveMem
    let t : State := { s with core := { s.core with run := .stopped } }
    t.core.haltCause.isNone && !enginesMove t && (launchOf t t.task.ident.lid).isSome && (launch0 (recordWith id)).code.isNone) = true := by
  decide +kernel
theorem witness_quantum : (let s := withP (running0 []) (fun p => { p with time := 2500000 })
    decide ((s.pkg.yards.get 0).quantum.toNat ≤ (s.pkg.time - 0).toNat) && (launchOf s 1).isSome) = true := by decide +kernel
/-- An image of the task of `launch0`, held so. -/
def image0 (h : Hold) : Image where
  task := { (running0 []).task with faults := { FaultRec.none with addr := 0x10000 } }
  plane := Plane.clear
  core := 0
  tp := 0
  valid := true
  enc := true
  hold := h
  area := none
/-- The core idle, with images and a launch. -/
def idle0 (ims : List Image) (l : Launch) : State :=
  withP { mapped rwLeaf (base .S) with core := Core.reset } (fun p => { p with
    images := ims, launches := [l], yards := p.yards.set 0 { Yard.reset with state := 1 }, power := { p.power with state := .active } })
theorem witness_rewalk : (let s := idle0 [image0 .demand] (launch0 (recordWith id))
    s.pkg.images == [image0 .demand] && (image0 .demand).hold == .demand && pagePresent s (image0 .demand) && !demandWaits s (image0 .demand)) = true := by decide +kernel
/-- `launch0` before its first dispatch: one task, one level of one core. -/
def readyLaunch : Launch := { launch0 (recordWith (fun r => r.set 32 1)) with state := .ready, groups := [], fresh := 0 }
theorem witness_placement : (match nextServed (idle0 [] readyLaunch) with
    | some (l, x) => x.state == .waiting && (launchOf (idle0 [] readyLaunch) l.lid == some l) &&
      coresFor (idle0 [] readyLaunch) l x [] == some [0] && l.lid == 1
    | none => false) = true := by decide +kernel
/-- `launch0` with its group pre-empted. -/
def preemptedLaunch : Launch :=
  { launch0 (recordWith (fun r => r.set 32 1)) with
    groups := [{ num := 0, state := .preempted, since := 0, aging := 0, quantumOver := false, drained := 0, tp := 0, yieldTo := false, short := false }] }
theorem witness_resume : (let s := idle0 [image0 .preempted] preemptedLaunch
    match nextServed s with
    | some (l, x) => x.state == .preempted && coresFor s l x [] == some [0] && canResume s l x.num && imagesIn s l.lid x.num == [image0 .preempted] &&
      !imageLost s (image0 .preempted)
    | none => false) = true := by decide +kernel
/-- An image whose S stands in an instruction. -/
def waitingImage (h : Hold) (i : Instr) : Image :=
  { image0 h with task := { (image0 h).task with seqs := (image0 h).task.seqs.set 0 { runSeq with wait := some { kind := .service, instr := i, push := none } } } }
theorem witness_trap_service : ([0#8, 1#8, 8#8].all fun c => let im := waitingImage (.trap c) (.trap k0 c)
    let a := im.task.seqs.get (seqOf (recSeq im.task.faults)).num
    im.hold == .trap c && a.wait.isSome && (a.wait.all fun w => w.instr == .trap k0 c && w.push.isNone) && a.pend.isEmpty && a.delay.owed == 0 &&
      (endingLoops a a.pc.toNat (a.pc.toNat + 4)).isEmpty) = true := by decide +kernel
theorem witness_emulated : (let im := image0 .emulate
    let a := im.task.seqs.get (seqOf (recSeq im.task.faults)).num
    im.hold == .emulate && ((im.plane.word (seqOf (recSeq im.task.faults)) a.pc.toNat).extractLsb 25 24).toNat == 0 && a.asyncErr.isNone && a.delay.owed == 0 &&
      (endingLoops a a.pc.toNat (a.pc.toNat + 4)).isEmpty &&
      (let b : SeqState := { a with delay := { a.delay with owed := 1, taken := true, next := 0x100 } }
       b.delay.owed == 1 && b.delay.taken && b.asyncErr.isNone)) = true := by decide +kernel
/-- The image of a task whose S stands at the stub of function 0. -/
def stubImage : Image :=
  let im := waitingImage (.trap 8) (.trap k0 8)
  { im with task := { im.task with seqs := im.task.seqs.set 0 { im.task.seqs.get 0 with pc := 0x7FF8 } } }
/-- A function of `n` words in a plane of 4094 functions, four words of which are heap. -/
def stubService (n : Nat) : Service := { xs := [], nfunc := 4094, code := List.replicate n 0 }
theorem witness_translator : (let im := stubImage
    let a := im.task.seqs.get (seqOf (recSeq im.task.faults)).num
    let ws := fun n => translated (launch0 (recordWith id)) .S 0 (stubService n)
    im.hold == .trap 8 && seqOf (recSeq im.task.faults) == .S && stubFn a.pc.toNat 4094 == some 0 && decide ((ws 2).length ≤ heapWords 4094) &&
      freeRanges im.plane .S 4094 (ws 2).length == [0, 1, 2] && im.plane.heap.get SeqId.S.num == [] && freeRanges im.plane .S 4094 (ws 5).length == [] &&
      (a.wait.all fun w => w.instr == .trap k0 8 && w.push.isNone) && a.wait.isSome && a.pend.isEmpty && a.delay.owed == 0 &&
      (endingLoops a a.pc.toNat (a.pc.toNat + 4)).isEmpty && (launch0 (recordWith id)).code.isNone && (launch0 (recordWith id)).state != .finished && (stubService 2).src.isNone &&
      (let s := idle0 [im] (launch0 (recordWith id))
       (launchOf s 1).isSome && im.task.ident.lid == 1 && (launch0 (recordWith id)).cache.isEmpty && (imageWord (viewOf s im) 0 0 0x20000).isNone)) = true := by
  decide +kernel
/-- Tables at 2^30 in a page-table frame of world 0, mapping VA 0x10000 to PA 0x10000; the bytes `f` of a packet ring there. -/
def ringMem (f : List Host.Cell → List Host.Cell) : List Host.Cell :=
  memPutWords (memPutWords (f []) (frameEntry 0 0x4000) [0x200]) (2 ^ 30) [0x40000001, rwLeaf]
/-- A queue-table entry: ring at VA 0x10000 of four slots, the tables above, world 0. -/
def entry0 : Nat := 0x10000 + 2 * 2 ^ 56 + 2 ^ 30 * 2 ^ 64
/-- Yard 0 in state `y`, its queue table at 0x20000. -/
def yardState (y : BitVec 2) (qs : List Queue) (m : List Host.Cell) : State :=
  withP { base .S with mem := m, core := Core.reset } (fun p => { p with
    yards := p.yards.set 0 { Yard.reset with state := y, qtBase := 0x20000, queues := qs, jSize := 0x100000 } })
/-- Queue 0 enabled. -/
def queue0 : Queue := { num := 0, entry := BitVec.ofNat 512 entry0, enabled := true, accIdx := 0, polled := 0 }
theorem witness_yard_registers : ([0#2, 1#2].all fun y => let s := yardState y [] []
    !(yardOf s 0).failed && (yardOf s 0).state == y) = true := by decide +kernel
theorem witness_qenable : ([([], entry0), ([queue0], entry0), ([], 1)].all fun p =>
    let s := yardState 1 p.1 (ringMem (fun m => memWrite m 0x20000 64 p.2))
    let e := memRead s.mem ((yardOf s 0).qtBase.toNat + 64 * (cmdQueue 1).toNat) 64
    let x : Queue := { num := cmdQueue 1, entry := BitVec.ofNat 512 e, enabled := true, accIdx := 0, polled := s.pkg.time }
    cmdOp 1 == 1 && !cmdNext 1 && entryOk s e == (p.2 == entry0) && (p.2 != entry0 ||
      (yardRead (updYard s 0 (fun y => { y with queues := y.queues.filter (fun z => z.num != cmdQueue 1) ++ [x] })) 0 0 (x.ring + 0x40) 8).isSome)) =
    true := by decide +kernel
theorem witness_qenable_no_log : (let s := yardState 0 [] []
    (yardOf s 0).state == 0 && cmdOp 1 == 1 && !cmdNext 1 && (logSetUp s (yardOf s 0)).isNone) = true := by decide +kernel
theorem witness_yard_commands : cmdOp 2 = 2 ∧ cmdOp 3 = 3 ∧ cmdOp 4 = 4 ∧ cmdNext 3 = false ∧ queueOf (yardState 1 [queue0] []) 0 (cmdQueue 2) = some queue0 ∧
    launchOf (yardState 1 [] []) (cmdLid 0 4) = none ∧ launchOf (running0 []) (cmdLid 0 0x100000004) = some (launch0 (recordWith id)) ∧
    cmdOp 0x100000004 = 4 ∧ (waitingImage .breakpoint (.brk k0)).task.ident.lid = cmdLid 0 0x100000003 ∧ cmdOp 0x100000003 = 3 := by decide +kernel
/-- Where the tables of `dispatchMem` map a data page, and two pages on one of code. -/
def vaBase : Nat := 0x80040200000
/-- A launch record: two sequencers, the image in the code page, one level of one core. -/
def goodRecord : RegFile 6 Word64 :=
  recordWith (fun r => (((r.set 1 (BitVec.ofNat 64 vaBase)).set 2 (BitVec.ofNat 64 (vaBase + 0x20000))).set 3 (BitVec.ofNat 64 vaBase)).set 32 1)
/-- Tables at 0 for `vaBase`, the record at 0x200 of the data page. -/
def dispatchMem : List Host.Cell := memPutWords (memPutWords [] 0 [rwLeaf, 1, 0x2000B]) 0x10200 goodRecord.toList
/-- A launch with a packet of type `ty` in a state. -/
def packetLaunch (st : LaunchState) (ty : Nat) (code : Option (BitVec 8)) : Launch :=
  { readyLaunch with
    state := st, code := code
    packet := ((RegFile.fill 4 0).set 0 (BitVec.ofNat 64 (2 * ty))).set 1 (if ty = 1 then 0 else BitVec.ofNat 64 (vaBase + 0x200)) }
/-- That launch at its yard. -/
def launchState (l : Launch) : State := withP (yardState 1 [] dispatchMem) (fun p => { p with launches := [l] })
theorem witness_accept : (let s := yardState 1 [queue0] (ringMem (fun m => memPutWords m 0x10080 [1]))
    queueOf s 0 0 == some queue0 && yardServes s 0 && decide (inflight s 0 < 4095) && !journalFull (yardOf s 0) &&
      yardRead s 0 0 (slotVa queue0) 8 == some 1 && (yardRead s 0 0 (slotVa queue0) 128).isSome && freeLid s 0 == some 0) = true := by decide +kernel
theorem witness_poll : (let s := withP (yardState 1 [queue0] (ringMem (fun m => memPutWords m 0x10000 [1]))) (fun p => { p with time := 25000 })
    queueOf s 0 0 == some queue0 && pollDue s 0 queue0) = true := by decide +kernel
theorem witness_waits_turn : ([0, 2].all fun ty => let s := launchState (packetLaunch .accepted ty none)
    launchOf s 1 == some (packetLaunch .accepted ty none) && mayWait s (packetLaunch .accepted ty none) &&
      packetBad (packetLaunch .accepted ty none) == (ty == 2) && (packetLaunch .accepted ty none).groups.isEmpty) = true := by decide +kernel
theorem witness_dependencies : (depsOf (packetLaunch .waiting 1 none)).isEmpty = true ∧ packetType (packetLaunch .waiting 1 none) = 1 ∧
    (let l := packetLaunch .waiting 0 none
     let s := launchState l
     (launchOf s 1 == some l && packetType l != 1 && (l.packet.get 1).toNat % 512 == 0 &&
       (match yardXlate s 0 0 (l.packet.get 1).toNat false with | .ok _ _ => true | _ => false) &&
       recordAt s 0 0 (l.packet.get 1).toNat == some goodRecord && recordOk s 0 0 goodRecord && (planeOf s 0 0 goodRecord).isSome) = true) := by
  decide +kernel
theorem witness_staged : (let l := packetLaunch .staging 0 none
    let s := withP (launchState l) (fun p => { p with time := 2500000 })
    launchOf s 1 == some l && readyInOrder s l && decide ((yardOf s l.queueDie).stageMax.toNat ≤ (s.pkg.time - l.since).toNat)) = true := by decide +kernel
/-- A launch bound to the package, restartable or not. -/
def packageLaunch (restart : Bool) : Launch :=
  { packetLaunch .staging 0 none with
    record := recordWith (fun r => r.set 32 0x4000001)
    packet := (RegFile.fill 4 0).set 0 (if restart then 0x20 else 0) }
theorem witness_staged_aborts : ([true, false].all fun r => let l := packageLaunch r
    let s := withP (launchState l) (fun p => { p with yards := p.yards.set 3 { Yard.reset with failed := true } })
    launchOf s 1 == some l && readyInOrder s l && l.groups.isEmpty && (needsPackage l && s.pkg.yards.toList.any Yard.failed && !restartable l) == !r) = true := by
  decide +kernel
theorem witness_complete : ([0#64, BitVec.ofNat 64 (vaBase + 8)].all fun c =>
    let l := { packetLaunch .running 0 (some 7) with packet := (RegFile.fill 4 0).set 2 c }
    let s := launchState l
    launchOf s 1 == some l && completeReady s l && l.packet.get 3 == 0 && Memory.wf s.mem && s.core.resident.isEmpty &&
      decide ((yardOf { s with pkg := { s.pkg with yards := s.pkg.yards.set 0 { yardOf s 0 with jSize := 0xFF } } } 0).jSize.toNat < journalBytes) && c.toNat % 8 == 0 && (c == 0 ||
      ((yardRead s 0 0 c.toNat 8).isSome && (match yardXlate s 0 0 c.toNat true with | .ok pa _ => !isYard (keyOf s pa) && !noRoute s (keyOf s pa) | _ => false)))) =
    true := by decide +kernel
/-- A record of the yard log that waits. -/
def logRec0 : LogRec := { kind := 2, ident := 5, task := 6, record := FaultRec.none, tail := [] }
theorem witness_yard_log : (let s := withP (base .S) (fun p => { p with
      yards := p.yards.set 0 { Yard.reset with state := 1, logAddr := 0x10000, logN := 16, logWait := [logRec0] } })
    Memory.wf s.mem && (yardOf s 0).logWait == [logRec0] && logRec0.kind != 4 && (yardOf s 0).logN != 0 &&
      decide ((memRead s.mem 0x10000 8 + 2 ^ 64 - memRead s.mem 0x10008 8) % 2 ^ 64 < 16) && !(yardOf s 0).failed) = true ∧
    (yardOf (withP (base .S) (fun p => { p with yards := p.yards.set 2 { Yard.reset with failed := true } })) 2).failed = true := by decide +kernel


/-! ## Sleeping instructions and engines -/

/-- S sleeps in a NOP's place on what `k` says, with an object of `n` bytes at 0x40 of own scratchpad. -/
def asleepIn (k : WaitKind) (n v : Nat) (time : Word64) : State :=
  let s := withObject n v 0 0
  withP (s.withSeq .S { s.seq .S with wait := some { kind := k, instr := .nop k0, push := none } }) (fun p => { p with time := time })
theorem witness_sleeps : ([(.waitm 1 0 0x40 3 1 7 5 0, 7, 4), (.waitm 1 0 0x40 3 1 7 5 0, 8, 5), (.waitt 1 4, 0, 3), (.waitt 1 4, 0, 4),
      (.twait 4 1 0 5 0, 0, 4), (.twait 4 1 1 5 0, 0, 5)].all fun (p : WaitKind × Nat × Word64) => let s := asleepIn p.1 64 p.2.1 p.2.2
    (sleeping s .S).isSome && ((s.seq .S).wait.all fun w => w.kind == p.1) && ((s.seq .S).wait.all fun w => (checkLater s w.home 0 0x40 8 false).2 matches .key _ _) &&
      (readFails s (ownKey 0x40) 8).isNone && memRead s.mem (ownKey 0x40) 8 == p.2.1) = true := by decide +kernel
theorem witness_sleeps_on_objects : ([0, openObject 5 4 1 15 1 true false, openObject 5 4 1 15 1 false false, openObject 5 4 1 14 1 false false].all fun o =>
    let s := asleepIn (.bwait 1 0x40 15 5 0) 16 o 5
    (sleeping s .S).isSome && (s.seq .S).objErr.isNone && ((s.seq .S).wait.all fun w => (checkLater s w.home 0 0x40 16 false).2 matches .key _ _)) &&
    ([ringOf 0 0 0 0, ringOf 4 0 16 0].all fun r => let s := asleepIn (.ring 1 0x40 4 true 5 0) 64 r 4
      (sleeping s .S).isSome && ((s.seq .S).wait.all fun w => (checkLater s w.home 0 0x40 64 true).2 matches .key _ _) && Memory.wf s.mem && s.pkg.heldRings.isEmpty && !noRoute s (ownKey 0x40) &&
      !(Ring.ofBits (memRead s.mem (ownKey 0x40) 64)).invalid) = true := by decide +kernel
/-- An operation held at the ring at 0x40, with identity 3. -/
def heldRing0 : HeldRing := { id := 3, home := (ownKey 0x40, 0), k := 0, n := 1, rel := false, lid := 0, task := 0, q := .S }
theorem witness_held_ring : ([[], [heldRing0]].all fun l => let s := withP (asleepIn (.held 0x40 3) 64 0 0) (fun p => { p with heldRings := l })
    (sleeping s .S).isSome && (s.pkg.heldRings.any fun h => h.id == 3) == !l.isEmpty) = true := by decide +kernel
/-- A deferred arrival of count 1 at the object at 0x40. -/
def deferred0 : Deferred :=
  { id := 0, origin := (base .S).origin .S (.bard k0 2 (.reg 3)), obj := 0x40, c := 1, waits := [3], record := FaultRec.none }
theorem witness_deferred : (let o := withObject 16 (openObject 5 1 0 15 1 false false) 0 0
    let s := o.withTask { o.task with deferred := [deferred0] }
    s.task.deferred == [deferred0] && engineLive s && Memory.wf s.mem && !((outstanding s .S).any fun x => deferred0.waits.contains x.1) &&
      ((checkLater s deferred0.home 0 0x40 16 true).2 matches .key _ _) && decide (deferred0.c.toNat ≤ (objDef (objectAt s.mem (ownKey 0x40))).toNat) &&
      objPend (objectAt s.mem (ownKey 0x40)) == 1) = true := by decide +kernel
/-- A copy command of function `fn` with a descriptor. -/
def copy0 (fn : BitVec 3) (desc moved : Nat) (accepted : Bool) : CopyCmd where
  id := 0
  origin := (base .S).origin .S (.cpy k0 2)
  world := 0
  desc := BitVec.ofNat 1024 desc
  obj := 0x80
  fn := fn
  qn := 0
  places := []
  eff := 0
  stamped := false
  eslot := 9
  accepted := accepted
  moved := moved
  part := 0
  stop := none
  parked := false
  srcRegion := (0, 0)
  dstRegion := (0, 0)
/-- The engine with that command, its E slot reserved. -/
def copying (c : CopyCmd) : State :=
  let s := (withObject 16 (openObject 5 5 256 0 0 false false) 0 0).withTask { (withObject 16 (openObject 5 5 256 0 0 false false) 0 0).task with copies := [c] }
  s.withSeq .S { s.seq .S with e := [{ id := 9, filled := false, val := false, record := none }] }
theorem witness_copy_leaves : (let c := copy0 0 (copyDesc false) 0 false
    let s := copying c
    s.task.copies == [c] && taskLive s && !c.accepted && decide (c.eff.toNat ≤ s.pkg.time.toNat) && !c.stamped && s.pkg.images.isEmpty &&
      decide (s.core.stampFrom.toNat ≤ s.pkg.time.toNat) && s.core.run == .running) = true := by decide +kernel
/-- What the movement of a command's next bytes asks, from own scratchpad. -/
def copyReady (c : CopyCmd) : Bool :=
  let s := copying c
  s.task.copies.find? (fun x => x.id == c.id) == some c && engineLive s && c.accepted && decide (c.moved < copyTotal c.desc.toNat) && Memory.wf s.mem
theorem witness_copy_moves : (let c := copy0 0 (copyDesc false + 0x100 * 2 ^ 64) 3 true
    copyReady c && (match sideAt (copying c) c false c.moved, sideAt (copying c) c true c.moved with
      | .key a ks l1, .key b kd l2 => let m := copyChunk c (.key a ks l1) (.key b kd l2)
        cleanBytes (copying c) ks m (m + 1) == m && decide (0 < m) && !isYard ks && !isYard kd && (granuleStart (copying c) c (c.moved + m)).isNone && !c.parked
      | _, _ => false)) = true ∧
    (let c := copy0 5 (2 ^ 200 + 16 * 2 ^ 208) 0 true
     (copyReady c && (match sideAt (copying c) c true c.moved with
      | .key b kd l2 => decide (0 < copyChunk c .none (.key b kd l2)) && !isYard kd &&
        (granuleStart (copying c) c (c.moved + copyChunk c .none (.key b kd l2))).isNone
      | _ => false)) = true) ∧
    (let c := copy0 0 (copyDesc false + 2 * 2 ^ 192) 0 true
     (copyReady c && (match sideAt (copying c) c false c.moved with | .fault w _ => w == 0x05 | _ => false)) = true) ∧
    (let c := copy0 0 (copyDesc false + 2 ^ 55) 0 true
     (copyReady c && (match sideAt (copying c) c false c.moved with | .fault w _ => w == 0x18 | _ => false)) = true) := by decide +kernel
theorem witness_late : (let o : OldBytes := { num := 1, by_ := none, time := 0, key := 0x400, size := 8, cells := [] }
    covers o 0x407 ∧ ¬ covers o 0x408 ∧ lateFor (copying (copy0 0 (copyDesc false) 3 true)) (copy0 0 (copyDesc false) 3 true) (ownKey 0x400) 253 = []) :=
  ⟨⟨by decide, by decide⟩, fun h => absurd h.2 (by decide), by decide +kernel⟩
theorem witness_copy_elements : (let n := 2 * 2 ^ 200 + 8 * 2 ^ 208 + 3 * 2 ^ 384 + 0x40 * 2 ^ 400
    copyNdim n = 2 ∧ copyExt0 n = 8 ∧ copyExt n 1 = 3 ∧ copyShe n = false ∧ copyDhe n = false ∧ copyStride n 1 false = 0x40) := by decide +kernel
theorem witness_copy_completes : ([copyDesc false, copyDesc false + 2 ^ 198 + 0x40 * 2 ^ 320].all fun d => let c := copy0 0 d 256 true
    let s := copying c
    s.task.copies.find? (fun x => x.id == c.id) == some c && engineLive s && decide (copyTotal c.desc.toNat ≤ c.moved) && copyBare c.desc.toNat == (d != copyDesc false) && !fencedBefore s c.origin.q c.id && !noRoute s (ownKey 0x40) &&
      ((checkAccess s 0 0x40 16 true).2 matches .key _ _) && decide (c.moved ≤ (objBytes (objectAt s.mem (ownKey 0x40))).toNat)) = true ∧
    (let c := { copy0 0 (copyDesc false) 3 true with stop := some (0x05, FaultRec.none) }
     ((copying c).task.copies.find? (fun x => x.id == c.id) == some c && c.places.isEmpty) = true) := by decide +kernel
/-- A job of the stream unit on slot 5. -/
def job0 (load : Bool) (mask : Option (BitVec 512)) : StreamJob where
  id := 0
  origin := (base .L).origin .L (.sld k0 2 5)
  plane := 0
  slot := 5
  load := load
  first := 0
  count := 1
  done := 0
  qn := 2
  places := [9]
  toReserve := 0
  mask := mask
  stopped := false
  held := false
/-- The unit with that job, its place reserved and an entry of ones in o2. -/
def streaming (j : StreamJob) : State :=
  let s := withStream (base .L) (streamDesc 0 0)
  s.withTask { s.task with
    jobs := [j]
    q := s.task.q.set 2 [{ onesEntry with id := 9, filled := false }]
    o := s.task.o.set 2 [onesEntry] }
theorem witness_held_job : (let s := streaming { job0 false none with held := true }
    let n := (s.plane.streams.get 5).desc.toNat
    storeOwed s (streamSp n) (streamAddr n 0 + 255) 1 && !storeOwed s (streamSp n) (streamAddr n 0 + 256) 8 &&
    !storeOwed (streaming (job0 false none)) (streamSp n) (streamAddr n 0) 8) = true := by decide +kernel
theorem witness_entries_move : ([job0 true none, job0 false none, job0 true (some 0)].all fun j => let s := streaming j
    let n := ((s.core.planes.get j.plane).streams.get j.slot).desc.toNat
    s.task.jobs == [j] && taskLive s && !j.stopped && streamSp n == 0 && ((entryPlace s 0 (streamAddr n 0) (!j.load)).2 matches .key _ _) &&
      Memory.wf s.mem && s.task.o.get 2 == [onesEntry] && (j.mask.all fun m => !m.getLsbD (streamTile n 0))) = true := by decide +kernel


/-! ## Held operations, classification, slice attention, tiers -/

/-- The engine free, its queues filled, operation `n` of `matRows` held with stamp `e`. -/
def heldState (n : Nat) (e : Word64) : TplIssue × State :=
  let t := { matTpls.getD n (vecTpl 0 0 0 0 0 0 0 0 0 0) with stampmode := 1, stampreg := 2 }
  let s := withEngine t
  (tplOf t, s.withTask { s.task with mats := [], hold := some (tplOf t, e) })
theorem witness_held : ([0, 1, 2, 3].all fun n => [0#64, 1#64].all fun e =>
    let (k, s) := heldState n e
    let i := (matRows.getD n (Instr.mma, mmaLegal, accumFree)).1 k
    let m := reached s .C i
    s.task.hold == some (k, e) && canIssue s .C && readyOn s .C i && (matRows.getD n (Instr.mma, mmaLegal, accumFree)).2.1 k.tpl &&
      k.tpl.stampmode == 1 && !hasKm k.tpl && !hasRemote k.tpl && (operandFault m k.tpl).isNone && stampReady m k.tpl) = true := by decide +kernel
/-- A classification by `causal` at its last tile: query tags at own 0x1000, the list at own 0x400. -/
def mkevJob (n : Nat) (live part : BitVec 512) : MkevJob where
  id := 3
  origin := (base .S).origin .S (.mkev k0 2 5)
  qn := 2
  place := 9
  desc := BitVec.ofNat 256 (0x1000 + 0x400 * 2 ^ 64 + n * 2 ^ 128 + 2 ^ 144)
  obj := 0
  prog := [causal]
  tiles := n - 1
  live := live
  part := part
  counts := (0, 0, 0)
  stopped := false
/-- The mask unit with that job, its last reference `ref`; VA 0x10000 holds a block whose summary says positions `p0` to `p1`, `nv` valid; the
queries stand at position 0. -/
def classing (j : MkevJob) (ref p0 p1 nv : Nat) : State :=
  let m := memWrite (memPutWords [] 0 [1, rwLeaf]) 0x19400 64 (p0 + p1 * 2 ^ 32 + nv * 2 ^ 128)
  { (base .S).withTask { (base .S).task with mkevs := [j] } with mem := memWrite m (ownKey (0x400 + 16 * j.tiles)) 16 ref }
/-- What the list's last reference and its summary come to: none for one that is refused, the class of its tile else. -/
def classFound (j : MkevJob) (s : State) : Option (Option TileClass) :=
  let d := j.desc.toNat
  match readSpan .engine (mkevTags d).1 2 s (mkevTags d).2 512 with
  | .ok s1 v =>
    match readSpan .engine (mkevList d).1 2 s1 ((mkevList d).2 + 16 * j.tiles) 16 with
    | .ok s2 ref =>
      if bitsOf ref 0 40 = 0 ∨ bitsOf ref 64 40 = 0 then some none else
        match readSpan .engine 2 2 s2 (ref / 2 ^ 64 * 2 ^ 16 + 0x9400) 64 with
        | .ok _ w => some ((summaryOf w).map (classTile (some j.prog) (wordsOf v 64)))
        | _ => none
    | _ => none
  | _ => none
theorem witness_classification : ([(1, 0, 0, 0, 128, none), (512, 2 ^ 64, 0, 0, 128, none), (1, 1, 0, 0, 128, none), (1, 1 + 2 ^ 64, 0, 0, 129, none),
      (512, 1 + 2 ^ 64, 1, 1, 128, some TileClass.empty), (1, 1 + 2 ^ 64, 0, 1, 128, some .partly), (512, 1 + 2 ^ 64, 0, 0, 128, some .full)].all fun x =>
    let p := x.2
    let j := mkevJob x.1 0 0
    let s := classing j p.1 p.2.1 p.2.2.1 p.2.2.2.1
    taskLive s && !j.stopped && j.tiles + 1 == mkevTiles j.desc.toNat && [SeqId.S, .L, .C, .W].all (fun q => (s.seq q).pend.isEmpty) &&
      classFound j s == some p.2.2.2.2) = true ∧ bitsOf (2 ^ 40) 40 24 ≠ 0 ∧ bitsOf (2 ^ 104) 104 24 ≠ 0 := by decide +kernel
/-- A request of one page and one row of 64 FP8 elements: query, tags, list, keep-mask and output in own scratchpad. -/
def attReq (fb : Nat) : AttReq where
  id := 4
  origin := (base .S).origin .S (.attq k0 1 2)
  idx := 1
  desc := BitVec.ofNat 1024 (0x400 + 0x800 * 2 ^ 64 + 0x200 * 2 ^ 128 + attDesc + fb * 2 ^ 224 + 0xC00 * 2 ^ 384 + 5 * 2 ^ 320)
  obj := 0x40
  eslot := 9
  deadline := 5
  prog := none
  leaves := []
  consumed := []
  shadowed := []
  dropped := []
  skipped := []
  asked := []
  stop := none
/-- The slice unit with that request, the reference of its page `ref`, the shadow's summary of `nv` slots and the key page both at VA 0x10000. -/
def attending (a : AttReq) (ref nv : Nat) (time : Word64) : State :=
  let m := memWrite (memPutWords [] 0 [1, rwLeaf ||| 0x40]) 0x19400 64 (nv * 2 ^ 128)
  let s := (base .S).withSeq .S { (base .S).seq .S with e := [{ id := 9, filled := false, val := false, record := none }] }
  withP { s.withTask { s.task with atts := [a] } with mem := memWrite m (ownKey 0x200) 16 ref } (fun p => { p with time := time })
theorem witness_pages : ([(0, 0, 0), (1 + 2 ^ 64, 0, 0), (1 + 2 ^ 64, 1, 1), (2 + 2 ^ 64, 1, 2), (1 + 2 ^ 65, 1, 3)].all fun p => [0, 1, 2].all fun fb =>
    let a := attReq fb
    let s := attending a p.1 p.2.1 5
    s.task.atts == [a] && engineLive s && s.core.tlb.isEmpty && pageOpen a 0 && attPages a.desc.toNat == 1 && attFb a.desc.toNat == fb &&
      attDeadline a.desc.toNat != 0 && decide (a.deadline.toNat ≤ s.pkg.time.toNat) && a.stop.isNone &&
      (match pageFate (.request .S) s a 0 with
        | .skip _ => p.2.2 == 0
        | .leaf _ _ => p.2.2 == 1
        | .absent none k .firmware _ => p.2.2 == 3 && !a.asked.contains k
        | .absent (some (sk, leaf, cls)) k .firmware x => p.2.2 == 2 && !a.asked.contains k &&
          (match shadowFate (.request .S) s a sk leaf cls x with | .leaf _ _ => true | _ => false)
        | _ => false)) = true := by decide +kernel
theorem witness_requests : (let a := { attReq 0 with skipped := [0] }
    let s := attending a 0 0 5
    let r : Reach := .request .S
    let open_ := fun (u : State) => match reachPlace r u 0 0x78 true with
      | (w, .key k _) => Memory.wf w.mem && !isYard k && !noRoute w k && (w.lateOn .S 4 k 8).isEmpty
      | _ => false
    engineLive s && s.task.atts == [a] && (s.seq .S).wait.isNone && !pageOpen a 0 && attPages a.desc.toNat == 1 && a.obj == 0x40 &&
      (match writeAll r a (attSp a.desc.toNat 6) (attAddr a.desc.toNat 6) s (resultWrites a) with
        | .ok u _ => (match writeSpan r a 0 1 u 0x78 8 (1 + 2 ^ 46) with | .ok _ _ => true | _ => false) && open_ u
        | _ => false) &&
      (match writeSpan r a 0 1 s 0x78 8 (3 + 2 ^ 46) with | .ok _ _ => true | _ => false) && open_ s && decide (8 ≤ chunkTo 0 0x78) && pageOpen (attReq 0) 0) =
    true := by decide +kernel
/-- A leaf triple of 64 elements. -/
def leafTriple (m : Nat) : List Nat := m :: 0x3F800000 :: List.replicate 64 0x40000000
theorem witness_results : ([([], 1), ([(0, [leafTriple 5])], 1), ([(0, [leafTriple 5])], 2), ([(0, [leafTriple 5]), (1, [leafTriple 6])], 2)].all fun p =>
    let a : AttReq := { attReq 0 with desc := (attReq 0).desc + BitVec.ofNat 1024 ((p.2 - 1) * 2 ^ 192), leaves := p.1 }
    attRows a.desc.toNat == 1 && attPages a.desc.toNat == p.2 && attDim a.desc.toNat == 64 &&
      (match rootOf a 0 with | _ :: _ :: w => w.length == 64 && w.all (fun x => decide (x < 2 ^ 32)) | _ => false)) = true := by decide +kernel
theorem witness_walks : ([(0x10000#56, true), (0x20000#56, false)].all fun p => let s := mapped rwLeaf (base .S)
    let i := s.task.ident
    s.core.run != .idle && (tlbFind s i.world (spaceOf i.die i.queue) p.1.toNat).isNone &&
      (match walkFrom s p.1.toNat (ptRoot s i.die i.queue) walkLevels with
        | .leaf e l _ => p.2 && l == 3 && (leafCheck e (levelLog l) i.world false).isNone
        | .fail _ => !p.2)) = true := by decide +kernel
/-- Die 0's tier engine at a time, with one page of world 1. -/
def tierState (p : TierPage) (time : Word64) : State :=
  withP { base .S with core := Core.reset } (fun k => { k with
    time := time
    security := { k.security with worlds := k.security.worlds.set 1 { (k.security.worlds.get 1) with state := .live } }
    tiers := k.tiers.set 0 { (k.tiers.get 0) with ctl := 0x000061A800401101, thr := 0x0000000000200010, pages := [p] } })
/-- A page of frame 0x4000. -/
def tierPage (st tgt : TierState) (heat : BitVec 16) (to_ : Nat) (ab : Bool) : TierPage where
  frame := 0x4000
  pte := 0x8
  tier := 1
  state := st
  heat := heat
  world := 1
  promoted := 0
  source := .warm
  target := tgt
  toFrame := to_
  aborted := ab
  wanted := false
theorem witness_pages_moving : ([(TierState.cold, true), (TierState.moving, false)].all fun x => let a := attReq 0
    let s := withP (attending a (1 + 2 ^ 64) 1 0) (fun k => { k with
      tiers := k.tiers.set 0 { (k.tiers.get 0) with pages := [{ tierPage x.1 .warm 0 1 false with frame := 1 }] } })
    match pageFate (.request .S) s a 0 with
    | .absent _ k (.tier f) _ => x.2 && f == 1 && !a.asked.contains (4096 + k)
    | .absent _ _ .nobody _ => !x.2
    | _ => false) = true := by decide +kernel
theorem witness_migration_fails : (let s := { tierState (tierPage .moving .hot 0 0x4000 false) 0 with bad := [(0x40000010, 0x10)] }
    (readFails s (keyOf s (0x4000 * 2 ^ 16)) (2 ^ 16)).isSome && (readFails { s with bad := [] } (keyOf s (0x4000 * 2 ^ 16)) (2 ^ 16)).isNone) = true := by
  decide +kernel
theorem witness_tiers : ([(TierState.warm, 0x41#16), (TierState.hot, 0x1E#16)].all fun x => let p := tierPage x.1 .hot x.2 0x4000 false
    let s := tierState p 25000
    let e := tierOf s 0
    e.pages == [p] && e.ctl.getLsbD 0 && decide ((e.ctl.extractLsb 63 32).toNat ≤ (s.pkg.time - e.evaluated).toNat) && e.ctl.extractLsb 23 16 != 0 &&
      e.ctl.extractLsb 15 12 != 0 && !(pinnedFrames s).contains (keyOf s (p.frame * 2 ^ 16)) && (s.pkg.security.worlds.get p.world).state == .live &&
      (if x.1 = .warm then decide ((e.thr.extractLsb 31 16).toNat ≤ (decayed s 0 p).toNat) else
        p.tier != 2 && decide ((decayed s 0 p).toNat < (e.thr.extractLsb 15 0).toNat))) = true ∧
    ([(0x4000, true), (0x4000, false), (0x4001, false)].all fun x => let p := tierPage .moving .hot 0 x.1 x.2
      let s := tierState p 0
      (tierOf s 0).pages == [p] && p.state == .moving && p.aborted == x.2 && Memory.wf s.mem &&
        (List.range 8).all (fun u => (p.pte + u) / 2 ^ 16 != p.toFrame) &&
        [p.frame, p.toFrame].all (fun f => (List.range 4).all fun u =>
          (frameEntry (f * 2 ^ 16 / 2 ^ 40) (f * 2 ^ 16 % 2 ^ 40 / 2 ^ 16) + u) / 2 ^ 16 != p.toFrame || p.toFrame == p.frame)) = true ∧
    (let p := tierPage .hot .hot 0x1E 0x4000 false
     let x := { tierPage .warm .hot 0x1B 0x4001 false with frame := 0x4001 }
     let s := tierState p 25000
     let s := withP s (fun k => { k with tiers := k.tiers.set 0 { (k.tiers.get 0) with pages := [x, p] } })
     let e := tierOf s 0
     e.pages == [x, p] && (e.pages.map TierPage.frame).Nodup && decide (migrating e < (e.ctl.extractLsb 23 16).toNat) &&
       decide ((decayed s 0 x).toNat < (decayed s 0 p).toNat) && decide ((decayed s 0 p).toNat < (e.thr.extractLsb 15 0).toNat) &&
       (hotIn e 0).length ≤ 2 * (e.ctl.extractLsb 15 12).toNat && s.pkg.l2.isEmpty &&
       (let u := withP s (fun k => { k with l2 := [{ line := 5, slice := 0, set := 0, way := 1, phase := 0, order := 0, world := 0, dirty := false, hot := true }] })
        u.pkg.l2.any (fun l => l.hot && l.line / 2 ^ 33 == 0 && decide ((e.ctl.extractLsb 15 12).toNat ≤ l.way)))) = true ∧
    (withP (base .S) (fun p => { p with shootdowns := [{ world := 1, space := none, lo := 0, hi := 1 }] })).pkg.shootdowns =
      [{ world := 1, space := none, lo := 0, hi := 1 }] := by decide +kernel


/-! ## The security core -/

/-- A command of slot `k` with operand words. -/
def cmdOf (k : Nat) (ws : List (BitVec 4 × Nat)) : SecCmd :=
  { k := k, csig := 0, w := ws.foldl (fun r p => r.set p.1 (BitVec.ofNat 64 p.2)) (RegFile.fill 4 0) }
/-- What `laneFree` asks. -/
def laneOpen (s : State) (op : BitVec 8) (c : SecCmd) : Bool :=
  secUp s && (laneHead s (cmdLane op c)).isNone && !badCmd op c && c.csig == 0 && Memory.wf s.mem
theorem laneFree_of {s : State} {op : BitVec 8} {c : SecCmd} (h : laneOpen s op c = true) : laneFree s op c := by
  simp only [laneOpen, Bool.and_eq_true, Bool.not_eq_true', Option.isNone_iff_eq_none, beq_iff_eq] at h
  exact ⟨h.1.1.1.1, h.1.1.1.2, h.1.1.2, h.1.2, h.2⟩
/-- The security core with memory and a state of world 1. -/
def secState (m : List Host.Cell) (w : WorldState) : State :=
  withP { base .S with mem := m, core := Core.reset } (fun p => { p with
    security := { p.security with worlds := p.security.worlds.set 1 { (p.security.worlds.get 1) with state := w, n := 2, policy := 7, key := some 9 } } })
theorem witness_commands : ([(0, 0x101, true), (255, 0xFF00000B01, true), (256, 0x10000001401, true), (0, 0xD01, true), (0, 0x100, false), (1, 0x101, false)].all fun p =>
    let m := memWrite (memWrite [] 0x40 8 p.1) (0x1000 + 0x100 * (p.1 % 256)) 8 p.2.1
    let s := secState m .live
    secUp s && Memory.wf s.mem && memRead m 0x40 8 == p.1 && memRead m (0x1000 + 0x100 * (p.1 % 256)) 8 == p.2.1 &&
      memRead m (0x1000 + 0x100 * (p.1 % 256) + 8) 8 == 0 && (p.2.1 % 2 == 1 && p.2.1 / 2 ^ 32 == p.1 % 2 ^ 32) == p.2.2 &&
      opKnown (BitVec.ofNat 8 (p.2.1 / 2 ^ 8)) == (p.2.1 != 0xD01)) = true := by decide +kernel
/-- The last frame of the last die. -/
def topFrame : Nat := 3 * 2 ^ 40 + 6291455 * 2 ^ 16
theorem witness_frames : ([(2 ^ 30, 2), (topFrame, 1)].all fun p => [(WorldState.live, 1), (.live, 3), (.free, 1), (.free, 2)].all fun x =>
      let c := cmdOf 0 [(2, 1 + x.2 * 2 ^ 8), (3, p.1), (4, p.2)]
      let s := secState [] x.1
      laneOpen s 0x01 c && (List.range (operand c 4)).all (fun n => let pa := operand c 3 + n * 2 ^ 16
        isLpddr pa && decide (2 ^ 30 ≤ pa) && (frameKind s pa).1 == 0) && ((s.pkg.security.worlds.get (worldArg c)).state == .live) == (x.1 == .live) &&
        operand c 2 / 2 ^ 8 % 8 == x.2) = true ∧
    ([(0x101, 0), (0x301, 0), (0x10101, 1)].all fun e => let pa := topFrame
      let c := cmdOf 255 [(2, 1), (3, pa), (4, 1)]
      let s := secState (memWrite [] (frameEntry 3 6291455) 4 e.1) .live
      laneOpen s 0x02 c && isLpddr pa && (frameKind s pa).2 == 1 && [1, 2, 3].contains (frameKind s pa).1 && frameMaps s pa == e.2 && s.pkg.images.isEmpty &&
        s.pkg.security.queue.isEmpty) = true := by decide +kernel
/-- Queue 0 of die 0 with its entry for world 0, tables at 2^30. -/
def mapState : State :=
  withP { base .S with mem := ringMem (fun m => memWrite m 0x20000 64 entry0), core := Core.reset } (fun p => { p with
    yards := p.yards.set 0 { Yard.reset with state := 1, qtBase := 0x20000 } })
theorem witness_mapset : ([(3, 0x20000, 0, 2 ^ 30 + 16), (3, 0x10000, 0, 2 ^ 30 + 8), (0, 2 ^ 43, 0, 2 ^ 30 + 8), (3, 0x1F0000, 0x10000000000005, 2 ^ 30 + 0xF8),
      (3, 0x0, 0x10000000000001, 2 ^ 30)].all fun p => let c := cmdOf 0 [(2, p.1 * 2 ^ 32), (3, p.2.1), (4, p.2.2.1)]
      let s := mapState
      laneOpen s 0x03 c && s.pkg.images.isEmpty && mapRoot s c == (0, 2 ^ 30) && frameKind s (2 ^ 30) == (2, 0) &&
        tableAt s 0 p.2.1 p.1 walkLevels (2 ^ 30) == some (2 ^ 30) && ((c.w.get 4).getLsbD 0 == pteMalformed (c.w.get 4) p.1 || p.2.2.1 == 0)) = true ∧
    memWord mapState.mem (2 ^ 30 + 16) = 0 ∧ (memWord mapState.mem (2 ^ 30 + 8)).getLsbD 0 = true ∧
    laneOpen mapState 0x03 (cmdOf 0 [(2, 1)]) = true ∧ (mapRoot mapState (cmdOf 0 [(2, 1)])).1 ≠ 1 := by decide +kernel
theorem leafHas_page (e : Word64) (pa : Nat) :
    leafHas e 16 pa ↔ e.getLsbD 0 = true ∧ e.getLsbD 1 = true ∧ pa = (e.extractLsb 51 14).toNat * 2 ^ 14 := by simp [leafHas]
/-- The same with the frame after the tables owned as `hi` says. -/
def mapState2 (hi : Nat) : State :=
  { mapState with mem := memPutWords mapState.mem (frameEntry 0 0x4000) [BitVec.ofNat 64 (0x200 + hi * 2 ^ 32)] }
/-- A MAPSET of world 0. -/
def mapCmd (level va e : Nat) : SecCmd := cmdOf 0 [(2, level * 2 ^ 32), (3, va), (4, e)]
theorem witness_mapset_valid : ([(3, 0x20000, 0x40010003, 0x100), (3, 0x10000, 0x40010003, 0x100), (3, 0x20000, 0x40010043, 0x100), (3, 0x20000, 0x40010003, 0xFFFF0100),
      (3, 0x20000, 0x40010003, 0x101), (2, 0x400000, 0x40000001, 0x100), (2, 0x400000, 0x40010001, 0x100), (2, 0x200000, 0x40000001, 0x100)].all fun p =>
    let c := mapCmd p.1 p.2.1 p.2.2.1
    let s := mapState2 p.2.2.2
    let frame := ((c.w.get 4).extractLsb 51 14).toNat * 2 ^ 14
    laneOpen s 0x03 c && s.pkg.images.isEmpty && mapRoot s c == (0, 2 ^ 30) && tableAt s 0 p.2.1 p.1 walkLevels (2 ^ 30) == some (2 ^ 30) &&
      !pteMalformed (c.w.get 4) p.1 && (c.w.get 4).getLsbD 0 && (c.w.get 4).extractLsb 13 8 == 0 && (notifyOf frame).isNone && isLpddr frame &&
      frameKind s frame == (if frame = 2 ^ 30 then (2, 0) else (1, p.2.2.2 % 2 ^ 8)) && frameMaps s (2 ^ 30 + 2 ^ 16) == p.2.2.2 / 2 ^ 16) = true ∧
    (memWord (mapState2 0x100).mem (2 ^ 30 + 8)).getLsbD 1 = true ∧ ¬ leafHas 0 16 (2 ^ 30 + 2 ^ 16) := by
  refine ⟨by decide +kernel, by decide +kernel, fun h => ?_⟩
  exact absurd h.1 (by decide)
theorem witness_mapset_done : ([(0#64, 0x100), (0x40010003#64, 0x10100)].all fun p => let c := mapCmd 3 0x10000 0x40010003
    let x : LaneCmd := { op := 0x03, lane := 0, cmd := c, phase := 1, saved := p.1 }
    let s := withP (mapState2 p.2) (fun k => { k with security := { k.security with queue := [x] } })
    secUp s && Memory.wf s.mem && c.csig == 0 && s.pkg.security.queue == [x] && s.pkg.shootdowns.isEmpty && s.pkg.images.isEmpty &&
      frameMaps s (2 ^ 30 + 2 ^ 16) == p.2 / 2 ^ 16) = true ∧ leafHas 0x40010003 16 (2 ^ 30 + 2 ^ 16) := by
  refine ⟨by decide +kernel, (leafHas_page _ _).2 ⟨by decide, by decide, by decide⟩⟩
/-- Memory whose table of world 0's handles has its first `n` slots taken, each with generation 1 and a length. -/
def fullTable (n : Nat) : List Host.Cell :=
  wordCells 0x1000000 ((List.range 131072).map (fun j => if j % 2 = 1 ∧ j / 2 < n then 0x1000000010000#64 else 0#64))
theorem fullTable_entry (n i : Nat) (hi : i < 65536) : memRead (fullTable n) (0x1000000 + 16 * i) 16 = if i < n then 0x1000000010000 * 2 ^ 64 else 0 := by
  have hw := memWords_wordCells 0x1000000 ((List.range 131072).map (fun j => if j % 2 = 1 ∧ j / 2 < n then 0x1000000010000#64 else 0#64))
  have hat : ∀ j, j < 131072 → memRead (fullTable n) (0x1000000 + 8 * j) 8 = if j % 2 = 1 ∧ j / 2 < n then 0x1000000010000 else 0 := by
    intro j hj
    have h1 := memWords_getElem? (fullTable n) 0x1000000 131072 j hj
    have hl : ((List.range 131072).map (fun j => if j % 2 = 1 ∧ j / 2 < n then 0x1000000010000#64 else 0#64)).length = 131072 := by simp
    rw [hl] at hw
    rw [fullTable, hw, List.getElem?_map, List.getElem?_range hj, Option.map_some, Option.some.injEq, ← fullTable] at h1
    have h2 := congrArg BitVec.toNat h1
    rw [memWord, BitVec.toNat_ofNat, Nat.mod_eq_of_lt (Nat.lt_of_lt_of_eq (memRead_lt _ _ 8) (by decide))] at h2
    rw [← h2]
    split <;> rfl
  rw [memRead_add _ _ 8 8]
  have h0 := hat (2 * i) (by omega)
  have h1 := hat (2 * i + 1) (by omega)
  rw [show 0x1000000 + 8 * (2 * i) = 0x1000000 + 16 * i by omega] at h0
  rw [show 0x1000000 + 8 * (2 * i + 1) = 0x1000000 + 16 * i + 8 by omega] at h1
  rw [h0, h1, if_neg (by omega), show (2 * i + 1) / 2 = i by omega]
  simp only [Nat.mul_add_mod_self_left, true_and, Nat.zero_add]
  split <;> simp [*]
theorem secState_mem (m : List Host.Cell) (w : WorldState) : (secState m w).mem = m := rfl
theorem wordCells_wf (k : Nat) (ws : List Word64) : Memory.wf (wordCells k ws) = true :=
  cellsWf_iff.2 (cellsAbove_mono (Nat.zero_le k) (wordCells_above k ws).1)
theorem secState_lane {m m' : List Host.Cell} {w : WorldState} {op : BitVec 8} {c : SecCmd} (h : laneFree (secState m w) op c) (hm : Memory.wf m' = true) :
    laneFree (secState m' w) op c := ⟨h.1, h.2.1, h.2.2.1, h.2.2.2.1, hm⟩
theorem fullTable_free (n i : Nat) (hi : i < 65536) : slotFree (secState (fullTable n) .live) 0 i = decide (n ≤ i) := by
  have h := fullTable_entry n i hi
  have hp : handlePa 0 i = 0x1000000 + 16 * i := by unfold handlePa; rw [show (0 : BitVec 6).toNat = 0 from rfl]; omega
  unfold slotFree State.load
  rw [hp, secState_mem, h]
  by_cases hn : i < n
  · rw [if_pos hn]; simp [bitsOf, Nat.not_le.2 hn]
  · rw [if_neg hn]; simp [bitsOf, Nat.not_lt.1 hn]
/-- HCREATE of world 0. -/
def makeHandle : SecCmd := cmdOf 0 [(2, 0), (3, 0x10000), (4, 0x10000), (5, 3)]
theorem witness_hcreate : (∀ n ∈ [0, 65535], laneFree (secState (fullTable n) .live) 0x04 makeHandle ∧ slotFree (secState (fullTable n) .live) 0 n = true ∧
      ∀ m < n, slotFree (secState (fullTable n) .live) 0 m = false) ∧
    operand makeHandle 3 = 0x10000 ∧ operand makeHandle 4 = 0x10000 ∧ worldArg makeHandle = 0 ∧
    laneFree (secState (fullTable 65536) .live) 0x04 makeHandle ∧ ∀ m < 65536, slotFree (secState (fullTable 65536) .live) 0 m = false := by
  have hl : ∀ n, laneFree (secState (fullTable n) .live) 0x04 makeHandle := fun n =>
    secState_lane (m := []) (laneFree_of (by decide +kernel)) (wordCells_wf _ _)
  refine ⟨fun n hn => ⟨hl n, ?_, fun m hm => ?_⟩, by decide, by decide, by decide, hl _, fun m hm => ?_⟩
  · rcases List.mem_cons.1 hn with rfl | hn
    · rw [fullTable_free _ _ (by decide)]; rfl
    · rw [List.mem_singleton.1 hn, fullTable_free _ _ (by decide)]; rfl
  · have : n ≤ 65535 := by rcases List.mem_cons.1 hn with rfl | hn <;> simp_all
    rw [fullTable_free _ _ (by omega)]; simp [hm]
  · rw [fullTable_free _ _ hm]; simp [hm]
theorem witness_hretire : ([1, 0xFFFF].all fun g => [0, 65535].all fun n =>
    let s := secState (memWrite [] (0x1100000 + 16 * n) 16 (0x10000 * 2 ^ 64 + g * 2 ^ 112)) .live
    let c := cmdOf 0 [(2, 1), (3, g * 2 ^ 16 + n)]
    let d := cmdOf 0 [(2, 1), (3, (g - 1) * 2 ^ 16 + n)]
    laneOpen s 0x05 c && (handleLive s.mem 1 (g * 2 ^ 16 + n)).isSome && !handleHeld s 1 (g * 2 ^ 16 + n) &&
      laneOpen s 0x05 d && (handleLive s.mem 1 ((g - 1) * 2 ^ 16 + n)).isNone) = true := by decide +kernel
theorem witness_worlds : ([WorldState.free, .live, .keyless].all fun st => let s := secState [] st
      laneOpen s 0x0B (cmdOf 0 [(2, 1)]) && laneOpen s 0x06 (cmdOf 0 [(2, 1 + 16 * 2 ^ 8)]) && laneOpen s 0x06 (cmdOf 0 [(2, 2 ^ 8)]) &&
        (recordOf s 1).state == st && laneOpen s 0x07 (cmdOf 0 [(2, 1)]) && !launchOpen s 1 && decide (s.core.lastWorld ≠ 1)) = true ∧
    (let s := withP (secState [] .live) (fun p => { p with
       launches := [readyLaunch], yards := p.yards.set 0 { Yard.reset with queues := [{ queue0 with entry := 2 ^ 128 }] } })
     laneOpen s 0x07 (cmdOf 0 [(2, 1)]) && launchOpen s 1) = true := by decide +kernel
theorem witness_krevoke : ([WorldState.live, .keyless].all fun st => [0, 2 ^ 8].all fun f => let s := secState [] st
    laneOpen s 0x08 (cmdOf 0 [(2, 1 + f)]) && !launchOpen s 1 && s.pkg.images.isEmpty && s.pkg.security.queue.isEmpty && !migrationOpen s 1 &&
      (recordOf s 1).state == st && decide (s.core.lastWorld ≠ 1)) = true := by decide +kernel
theorem wordsOf_length (v n : Nat) : (wordsOf v n).length = n := by
  have h : ∀ (n v : Nat), (pieces 64 v n).length = n := fun n => by
    induction n with
    | zero => intro v; rfl
    | succ n ih => intro v; simp [pieces, ih]
  simp [wordsOf, h]
theorem checkpoint_small {k : Checkpoint} (h : k.frames = []) (hc : k.custodians = []) (hm : k.maps = []) (hs : k.spaces = []) : headerFrames k = 1 ∧ checkpointFrames k = 17 := by
  have hh : headerFrames k = 1 := by simp [headerFrames, headerPlain, wordsOf_length, h, hc, hm, hs]
  exact ⟨hh, by simp [checkpointFrames, hh, h]⟩
/-- Seventeen frames of world 0 from 2^31 on, listed at 0x20000. -/
def homeMem : List Host.Cell :=
  memPutWords (memPutWords [] (frameEntry 0 0x8000) (List.replicate 8 0x10000000100)) 0x20000 ((List.range 18).map (fun i => BitVec.ofNat 64 (2 ^ 31 + i * 2 ^ 16)))
/-- EXPORT of world 1 into the frames of the list at 0x20000. -/
def exportCmd (n : Nat) : SecCmd := cmdOf 0 [(2, 1), (3, 0x20000), (4, n)]
theorem witness_export : (let c := exportCmd 17
      let s := secState (memPutWords homeMem (frameEntry 0 0x8010) [0x100]) .live
      laneFree s 0x09 c ∧ worldArg c = 1 ∧ (recordOf s 1).state = .live ∧ launchOpen s 1 = false ∧ s.core.lastWorld ≠ 1 ∧
        ∀ k : Checkpoint, k.custodians = (recordOf s 1).custodians → k.maps = worldMaps s 1 → k.spaces = boundSpaces s 1 → k.frames = (framesByVa s 1).map (fun pa => (pa, memRead s.mem (entryOf pa) 4, memWords s.mem pa 8192)) →
          checkpointFrames k ≤ (((frameList s (operand c 3) (operand c 4)).filter
            (fun pa => pa % frameBytes == 0 && isLpddr pa && frameKind s pa == (1, 0))).eraseDups).length) ∧
    laneOpen (secState [] .keying) 0x09 (exportCmd 17) = true := by
  refine ⟨⟨laneFree_of (by decide +kernel), by decide, by decide, by decide, by decide, fun k hc hm hs hk => ?_⟩, by decide +kernel⟩
  have hw : framesByVa (secState (memPutWords homeMem (frameEntry 0 0x8010) [0x100]) .live) 1 = [] := by decide +kernel
  rw [hw] at hk
  have hm' : worldMaps (secState (memPutWords homeMem (frameEntry 0 0x8010) [0x100]) .live) 1 = [] := by decide +kernel
  rw [hm'] at hm
  have hs' : boundSpaces (secState (memPutWords homeMem (frameEntry 0 0x8010) [0x100]) .live) 1 = [] := by decide +kernel
  rw [hs'] at hs
  rw [(checkpoint_small hk hc hm hs).2]
  have : 17 ≤ (((frameList (secState (memPutWords homeMem (frameEntry 0 0x8010) [0x100]) .live) (operand (exportCmd 17) 3) (operand (exportCmd 17) 4)).filter
      (fun pa => pa % frameBytes == 0 && isLpddr pa && frameKind (secState (memPutWords homeMem (frameEntry 0 0x8010) [0x100]) .live) pa == (1, 0))).eraseDups).length := by
    decide +kernel
  exact this

/-! ## A checkpoint in memory -/

/-- World 1 exported: its checkpoint holds no frame and an empty handle table. -/
def checkpoint0 : Checkpoint where
  world := 1
  expCnt := 4
  n := 2
  check := none
  custodians := []
  frames := []
  maps := []
  handles := List.replicate 131072 0
  quarantined := []
  loftDigest := 0
  policy := 7
  sealKey := sealKey 9 1 4
  calmed := false
  spaces := []
/-- The policy that fits the device, as `policyMet` measures it. -/
def fitPolicy : BitVec 384 :=
  Config.sha384 144 ((firmwareDigest (base .S)).toNat + (configDigest (base .S)).toNat * 2 ^ 384 + (loftDigest (base .S) 1).toNat * 2 ^ 768)
/-- The list of the checkpoint's frames, at 0x20000. -/
def listMem : List Host.Cell := memPutWords [] 0x20000 ((List.range 17).map (fun i => BitVec.ofNat 64 (2 ^ 31 + i * 2 ^ 16)))
/-- What the checkpoint's frames hold: sixteen chunks and the header. -/
def sealedParts : List (List Word64) :=
  ((chunksOf checkpoint0).zipIdx).map (fun p => sealChunk checkpoint0 p.2 p.1) ++ [headerWords (base .S) checkpoint0]
/-- World 1 in a state, with the words of the checkpoint in the frames listed at 0x20000, and a lane's commands. -/
def importState (st : WorldState) (q : List LaneCmd) : State :=
  withP { base .S with mem := listMem ++ wordCells (2 ^ 31) sealedParts.flatten, core := Core.reset } (fun p => { p with
    security := { p.security with
      queue := q, checkpoints := [checkpoint0]
      worlds := p.security.worlds.set 1 { World.free with state := st, n := 2, policy := fitPolicy, expCnt := 5, key := some 9 } } })
theorem flatten_part {α : Type} (n : Nat) (l : List (List α)) (h : ∀ x ∈ l, x.length = n) (i : Nat) (x : List α) (hx : l[i]? = some x) :
    (l.flatten.drop (n * i)).take n = x := by
  induction l generalizing i with
  | nil => simp at hx
  | cons y t ih =>
    have hy : y.length = n := h y (List.mem_cons_self ..)
    cases i with
    | zero =>
      simp only [List.getElem?_cons_zero, Option.some.injEq] at hx
      subst hx
      rw [List.flatten_cons, Nat.mul_zero, List.drop_zero, List.take_append_of_le_length (by omega), ← hy, List.take_length]
    | succ i =>
      rw [List.flatten_cons, Nat.mul_succ, Nat.add_comm, ← List.drop_drop, List.drop_append_of_le_length (by omega), ← hy, List.drop_length, List.nil_append, hy]
      exact ih (fun z hz => h z (List.mem_cons_of_mem _ hz)) i (by simpa using hx)
theorem flatten_len {α : Type} (n : Nat) (l : List (List α)) (h : ∀ x ∈ l, x.length = n) : l.flatten.length = n * l.length := by
  induction l with
  | nil => rfl
  | cons y t ih => rw [List.flatten_cons, List.length_append, ih (fun z hz => h z (List.mem_cons_of_mem _ hz)), h y (List.mem_cons_self ..), List.length_cons, Nat.mul_succ, Nat.add_comm]
/-- What low memory followed by parts of 8192 words reads as: part `i` in frame `i`, and below them low memory. -/
theorem parts_read {low : List Host.Cell} {ps : List (List Word64)} (hw : Memory.wf low = true) (hl : ∀ c ∈ low, c.1 < 2 ^ 31)
    (hp : ∀ x ∈ ps, x.length = 8192) :
    Memory.wf (low ++ wordCells (2 ^ 31) ps.flatten) = true ∧
    (∀ i x, ps[i]? = some x → memWords (low ++ wordCells (2 ^ 31) ps.flatten) (2 ^ 31 + 2 ^ 16 * i) 8192 = x) ∧
    (∀ a n, a + 8 * n ≤ 2 ^ 31 → memWords (low ++ wordCells (2 ^ 31) ps.flatten) a n = memWords low a n) := by
  have ha := cellsWf_iff.1 hw
  have hc := wordCells_above (2 ^ 31) ps.flatten
  have hg : ∀ k, memGet (low ++ wordCells (2 ^ 31) ps.flatten) k = if k < 2 ^ 31 then memGet low k else memGet (wordCells (2 ^ 31) ps.flatten) k :=
    fun k => cellGet_append_low ha hl hc.1
  refine ⟨cellsWf_iff.2 (cellsAbove_append ha hl (Nat.zero_le _) hc.1), fun i x hx => ?_, fun a n h => ?_⟩
  · have hn : i < ps.length := (List.getElem?_eq_some_iff.1 hx).1
    have hlen := flatten_len 8192 ps hp
    have h1 := memWords_drop_take (wordCells (2 ^ 31) ps.flatten) (2 ^ 31) (8192 * i) 8192 (8192 * (ps.length - i - 1))
    rw [show 8192 * i + 8192 + 8192 * (ps.length - i - 1) = ps.flatten.length by rw [hlen]; omega, memWords_wordCells, flatten_part 8192 ps hp i x hx] at h1
    rw [memWords_congr (m' := wordCells (2 ^ 31) ps.flatten) (k' := 2 ^ 31 + 2 ^ 16 * i) (fun u _ => by rw [hg, if_neg (by omega)]), h1]
    congr 1; omega
  · exact memWords_congr (fun u hu => by rw [hg, if_pos (by omega)])
theorem section64_length (n : Nat) (l : List Word64) : (section64 n l).length = n := by simp [section64]
theorem chunks_sized {k : Checkpoint} (h : k.frames = []) (hk : k.handles.length = 131072) :
    (chunksOf k).length = 16 ∧ ∀ x ∈ chunksOf k, x.length = 8192 := by
  rw [chunksOf, h, List.map_nil, List.nil_append]
  refine ⟨by simp [upTo], fun x hx => ?_⟩
  obtain ⟨i, hi, rfl⟩ := List.mem_map.1 hx
  have : i < 16 := by simpa [upTo] using hi
  rw [List.length_take, List.length_drop, hk]
  omega
theorem checkpoint0_sized : (chunksOf checkpoint0).length = 16 ∧ ∀ x ∈ chunksOf checkpoint0, x.length = 8192 :=
  chunks_sized rfl List.length_replicate
theorem parts_sized : ∀ x ∈ sealedParts, x.length = 8192 := by
  intro x hx
  rcases List.mem_append.1 hx with hx | hx
  · obtain ⟨p, hp, rfl⟩ := List.mem_map.1 hx
    rw [sealChunk, List.length_map, List.length_zipIdx, checkpoint0_sized.2 _ (List.fst_mem_of_mem_zipIdx hp)]
  · rw [List.mem_singleton.1 hx, headerWords, (checkpoint_small (k := checkpoint0) rfl rfl rfl rfl).1, section64_length]
/-- IMPORT of the checkpoint listed at 0x20000, no target frame given. -/
def importCmd : SecCmd := cmdOf 0 [(2, 1), (3, 0x20000), (4, 17)]
theorem import_mem (st : WorldState) (q : List LaneCmd) : (importState st q).mem = listMem ++ wordCells (2 ^ 31) sealedParts.flatten := rfl
theorem import_reads (st : WorldState) (q : List LaneCmd) : Memory.wf (importState st q).mem = true ∧
    frameList (importState st q) 0x20000 17 = (List.range 17).map (fun i => 2 ^ 31 + 2 ^ 16 * i) ∧
    ∀ i x, sealedParts[i]? = some x → memWords (importState st q).mem (2 ^ 31 + 2 ^ 16 * i) 8192 = x := by
  have h := parts_read (low := listMem) (by decide +kernel) (by decide +kernel) parts_sized
  rw [← import_mem st q] at h
  refine ⟨h.1, ?_, h.2.1⟩
  rw [frameList, h.2.2 0x20000 17 (by decide)]
  decide +kernel
theorem import_header (st : WorldState) (q : List LaneCmd) :
    headerFound (importState st q) (frameList (importState st q) 0x20000 17) = some checkpoint0 := by
  obtain ⟨_, h2, h3⟩ := import_reads st q
  have hs := checkpoint_small (k := checkpoint0) rfl rfl rfl rfl
  have h16 := h3 16 (headerWords (base .S) checkpoint0) (by
    rw [sealedParts, List.getElem?_append_right (by rw [List.length_map, List.length_zipIdx, checkpoint0_sized.1]; first | done | exact Nat.le_refl _), List.length_map,
      List.length_zipIdx, checkpoint0_sized.1]; first | done | rfl)
  have hd : (((List.range 17).map (fun i => 2 ^ 31 + 2 ^ 16 * i)).drop (checkpoint0.frames.length + 16)).take 1 = [2 ^ 31 + 2 ^ 16 * 16] := by decide
  have hh : headerWords (importState st q) checkpoint0 = headerWords (base .S) checkpoint0 := rfl
  have hst : headerStands (importState st q) ((List.range 17).map (fun i => 2 ^ 31 + 2 ^ 16 * i)) checkpoint0 = true := by
    rw [headerStands, hs.1, hs.2, hd, List.flatMap_singleton, h16, hh, decide_eq_true rfl, List.length_map, List.length_range]
    rfl
  rw [h2, headerFound, show (importState st q).pkg.security.checkpoints = [checkpoint0] from rfl, List.filter_cons_of_pos hst, List.filter_nil]
  simp only [List.find?_cons, List.find?_nil, List.head?_cons]
  cases chunksPass (importState st q) checkpoint0 ((List.range 17).map (fun i => 2 ^ 31 + 2 ^ 16 * i)) <;> rfl
theorem import_chunks (st : WorldState) (q : List LaneCmd) :
    chunksPass (importState st q) checkpoint0 (frameList (importState st q) 0x20000 17) = true := by
  obtain ⟨_, h2, h3⟩ := import_reads st q
  rw [chunksPass, h2, List.all_eq_true]
  rintro ⟨c, i⟩ hp
  obtain ⟨_, hi, hc⟩ := List.mem_zipIdx hp
  rw [Nat.zero_add, checkpoint0_sized.1] at hi
  have hp' : (chunksOf checkpoint0).zipIdx[i]? = some (c, i) := by
    rw [List.getElem?_zipIdx, hc]
    simp only [Nat.sub_zero, Nat.zero_add, List.getElem?_eq_getElem (show i < (chunksOf checkpoint0).length by rw [checkpoint0_sized.1]; exact hi), Option.map_some]
  have h := h3 i (sealChunk checkpoint0 i c) (by
    rw [sealedParts, List.getElem?_append_left (by rw [List.length_map, List.length_zipIdx, checkpoint0_sized.1]; exact hi), List.getElem?_map, hp']; rfl)
  dsimp only
  rw [List.getElem?_map, List.getElem?_range (by omega)]
  exact decide_eq_true h
theorem import_policy (st : WorldState) (q : List LaneCmd) : policyMet (importState st q) 1 = true := by
  have h1 : firmwareDigest (importState st q) = firmwareDigest (base .S) := rfl
  have h2 : configDigest (importState st q) = configDigest (base .S) := rfl
  have h3 : loftDigest (importState st q) 1 = loftDigest (base .S) 1 := rfl
  have h4 : (worldOf (importState st q) 1).policy = fitPolicy := rfl
  unfold policyMet
  rw [h1, h2, show BitVec.toNat (1 : BitVec 6) = 1 from rfl, h3, h4]
  unfold fitPolicy
  exact decide_eq_true rfl
theorem import_world (st : WorldState) (q : List LaneCmd) : (recordOf (importState st q) 1).state = st ∧ (recordOf (importState st q) 1).expCnt = 5 ∧
    (recordOf (importState st q) 1).key = some 9 := ⟨rfl, rfl, rfl⟩
theorem import_free (st : WorldState) : laneFree (importState st []) 0x0A importCmd :=
  ⟨rfl, rfl, by decide +kernel, rfl, (import_reads _ _).1⟩
theorem checkpoint0_placed (l : List Nat) : (placeFrames checkpoint0 l).isSome = true := by
  unfold placeFrames
  rw [show checkpoint0.maps = [] from rfl, show checkpoint0.frames = [] from rfl]
  rfl
theorem witness_import : (let s := importState .exported []
      laneFree s 0x0A importCmd ∧ (worldArg importCmd, operand importCmd 3, operand importCmd 4) = (1, 0x20000, 17) ∧ headerFound s (frameList s 0x20000 17) = some checkpoint0 ∧
        checkpoint0.world = 1 ∧ checkpoint0.calmed = false ∧ checkpoint0.expCnt = (recordOf s 1).expCnt - 1 ∧ (recordOf s 1).state = .exported ∧
        policyMet s 1 = true) ∧
    (let x : LaneCmd := { op := 0x0A, lane := 0, cmd := importCmd, phase := 1, saved := 0 }
     let s := importState .keying [x]
     secUp s = true ∧ Safety.memOk s ∧ importCmd.csig = 0 ∧ s.pkg.security.queue = [x] ∧ (recordOf s 1).key = some 9 ∧
       headerFound s (frameList s 0x20000 17) = some checkpoint0 ∧
       chunksPass s checkpoint0 (frameList s 0x20000 17) = true ∧
       sealKey 9 1 checkpoint0.expCnt = checkpoint0.sealKey ∧ ∀ l, (placeFrames checkpoint0 l).isSome = true) :=
  ⟨⟨import_free _, by decide, import_header _ _, rfl, rfl, by rw [(import_world _ _).2.1]; decide, (import_world _ _).1, import_policy _ _⟩,
    ⟨rfl, (import_reads _ _).1, rfl, rfl, (import_world _ _).2.2, import_header _ _, import_chunks _ _, rfl, checkpoint0_placed⟩⟩
theorem witness_power : ([0, 1, 2, 3].all fun p => [WorldState.free, .erased, .live].all fun st => let s := secState [] st
      laneOpen s 0x0C (cmdOf 0 [(2, p)]) && s.pkg.launches.isEmpty && (recordOf s 1).state == st &&
        (List.range 62).all (fun w => (recordOf s (BitVec.ofNat 6 (w + 2))).state == .free)) = true ∧
    (let x : LaneCmd := { op := 0x0C, lane := 0, cmd := cmdOf 0 [(2, 2)], phase := 1, saved := 0 }
     let s := withP (secState [] .live) (fun p => { p with
       power := { p.power with toLull := true }, security := { p.security with queue := [x] } })
     secUp s && Memory.wf s.mem && s.pkg.security.queue == [x] && s.pkg.power.toLull && s.core.run == .idle && s.core.resident.isEmpty &&
       s.pkg.peers.all (fun q => !q.placed) && s.pkg.launches.isEmpty && s.pkg.loft.held.isEmpty) = true := by decide +kernel


/-! ## The loft's engines, boot, attestation -/

/-- The security core with world 1 LIVE and segments of the loft. -/
def loftState (owner : List (Nat × BitVec 8)) (w : WorldState) : State :=
  withP (secState [] w) (fun p => { p with loft := { p.loft with owner := owner } })
theorem witness_loft : ([0, 32767].all fun g =>
    let a := cmdOf 0 [(2, 1), (3, g * 2 ^ 24)]
    let b := cmdOf 0 [(2, 0x101), (3, g * 2 ^ 24)]
    let s := loftState [] .live
    let o := loftState [(g, 0x41)] .live
    laneOpen s 0x10 a && laneOpen s 0x10 b && laneOpen o 0x13 a && (recordOf s 1).state == .live && segState s g == 0 && segState o g == 1 && segOwner o g == 1 &&
      segState s 63 == 2 && segState (loftState [(g, 0xC1)] .live) g == 3 && laneOpen s 0x14 (cmdOf 0 [(2, 1), (3, g / 64 * 2 ^ 30)])) = true ∧
    ([2 ^ 13, 2 ^ 24].all fun n => let c := cmdOf 0 [(2, 1), (3, 32767 * 2 ^ 24), (5, n)]
      let d := cmdOf 0 [(2, 1), (3, 32767 * 2 ^ 24), (4, 2 ^ 30), (5, 2 ^ 13)]
      let s := withP { loftState [(32767, 0x41)] .live with mem := memWrite [] (frameEntry 0 0x4000) 4 0x101 } id
      laneOpen s 0x12 c && laneOpen s 0x11 d && segState s 32767 == 1 && segOwner s 32767 == 1 &&
        decide (operand c 3 / 2 ^ 30 = (operand c 3 + operand c 5 - 1) / 2 ^ 30) && operand c 5 == n && frameKind s (2 ^ 30) == (1, 1) &&
        laneOpen (loftState [(32767, 0x41)] .keying) 0x12 c) = true := by decide +kernel
/-- A programming command under way on die 1: rows done, rows to do, cells. -/
def rowCmd (op : BitVec 8) (n : Nat) : LaneCmd :=
  { op := op, lane := 2, phase := 1, saved := 0, cmd := cmdOf 0 [(2, 1), (3, 128 * 2 ^ 30), (4, 2 ^ 30), (5, n * 2 ^ 13)] }
def rowState (x : LaneCmd) (rows : Nat) (held : List Nat) : State :=
  withP (secState (memWrite [] (2 ^ 30) 1 5) .live) (fun p => { p with
    security := { p.security with queue := [x] }
    loft := { p.loft with held := held, lanes := p.loft.lanes.set 1 { (p.loft.lanes.get 1) with rows := rows } } })
theorem witness_rows : ([0x11#8, 0x12#8].all fun op => [(2, 0), (2, 1)].all fun p => [[], [128]].all fun h => let x := rowCmd op p.1
    let s := rowState x p.2 h
    let l := s.pkg.loft
    let r := nextRow s 1 x
    s.pkg.security.queue == [x] && x.lane == 2 && Memory.wf s.mem && secUp s && !s.pkg.power.toLull && r / 2 ^ 17 == 128 && l.held == h &&
      !s.pkg.farrier.claimed.contains 128 && (l.lanes.get 1).rest == 0 && (l.refresh.get 1).isNone && decide (wearOf l (physRow l r) < 100000) &&
      (readFails s (operand x.cmd 4 + p.2 * 2 ^ 13) (2 ^ 13)).isNone && operand x.cmd 5 / 2 ^ 13 == 2 && (l.lanes.get 1).rows == p.2 &&
      decide ((assoc l.spares 128).getD 0 < 2048)) = true := by decide +kernel
/-- An image signed by the root key itself. -/
def rootImage (root : BitVec 384) (sig : BitVec 768) : BootImage :=
  { arrived := true, version := Config.minVersion, size := 1, body := 3, signature := sig, chain := [(root, 0)] }
/-- The root and what verifies under it are free values (log 10 and 16): under the values of any part that can boot an image is bootable. -/
theorem witness_images (root : BitVec 384) (sig : BitVec 768) (hr : Config.sha384 48 root.toNat = Config.rootDigest)
    (hs : Config.ecdsaVerify root (imageDigest (rootImage root sig)) sig = true) : bootable (rootImage root sig) :=
  ⟨rfl, Nat.le_refl _, root, 0, [], root, rfl, hr, rfl, hs⟩
theorem witness_no_image : (∀ root sig, ¬ bootable { rootImage root sig with arrived := false }) ∧ Memory.wf (base .S).mem = true :=
  ⟨fun _ _ h => Bool.noConfusion h.1, rfl⟩
theorem witness_boot : (let s0 := withP (base .S) (fun p => { p with time := 149999999999, bootTimer := 0, power := { p.power with boot := .cold } })
    let f : BootImage := rootImage 1 2
    let s1 := withP s0 (fun p => { p with loft := { p.loft with firmware := some f } })
    decide ((s0.pkg.time - s0.pkg.bootTimer).toNat < 150000000000) && s1.pkg.loft.firmware.isSome) = true ∧ (let s := withP (base .S) (fun p => { p with time := 150000000000, bootTimer := 0, power := { p.power with boot := .cold } })
    let z := withP s (fun p => { p with power := { p.power with boot := .failed } })
    z.pkg.power.supply && z.pkg.power.boot == .failed && !portUp z && s.pkg.power.boot == .cold && s.pkg.power.supply && s.pkg.power.state != .calm && decide (150000000000 ≤ (s.pkg.time - s.pkg.bootTimer).toNat)) = true := by
  decide +kernel
/-- Sessions at a time. -/
def sessionState (l : List Session) (time : Word64) : State :=
  withP (secState [] .keying) (fun p => { p with
    time := time
    security := { p.security with
      sessions := l
      worlds := p.security.worlds.set 1 { World.free with state := .keying, n := 2, custodians := [5, 6] } } })
def session0 (i : Nat) (secured : Bool) : Session := { id := i, requester := 6, secured := secured, beat := 0, keyGen := 0, wakeSeen := 0 }
theorem witness_sessions : ([1, 63, 64].all fun n => [74999999999#64, 75000000000#64].all fun u =>
    let s := sessionState ((List.range n).map (fun i => session0 i true)) u
    portUp s && s.pkg.power.state == .active && s.pkg.security.sessions.length == n && (s.pkg.security.sessions.map Session.id).tail == (List.range n).tail) = true ∧
    portUp (withP (base .S) (fun p => { p with power := { p.power with supply := false } })) = false ∧
    measureBlock (base .S) 3 = none ∧ (0x05#8 ≠ 0x10#8) ∧ (measureBlock (base .S) 0x7F).isSome = true := by decide +kernel
theorem witness_shares : ([0#16, 1#16].all fun a => [true, false].all fun z => let s0 := sessionState [session0 7 z] 0
    let s := withP s0 (fun p => { p with
      security := { p.security with worlds := p.security.worlds.set 1 { (p.security.worlds.get 1) with arrived := a, shares := if a = 1 then [(0, 9)] else [] } } })
    let r := recordOf s 1
    portUp s && s.pkg.security.sessions.find? (fun y => y.id == 7) == some (session0 7 z) && r.state == .keying && r.key.isNone && r.n == 2 && r.check.isNone &&
      r.custodians[1]? == some (session0 7 z).requester && !r.shares.any (fun p => p.1 == 1) && s.pkg.security.queue.isEmpty &&
      (((r.arrived ||| BitVec.ofNat 16 (2 ^ 1)).toNat == 3) == (a == 1)) && r.custodians[0]? != some (session0 7 z).requester) = true := by decide +kernel
theorem witness_share_check (k : BitVec 512) : ∃ r : World, r.check = some (checkValue k + 1) ∧ checkValue k + 1 ≠ checkValue k ∧ r.state = .keying :=
  ⟨{ World.free with state := .keying, check := some (checkValue k + 1) }, rfl, (fun h => by bv_omega), rfl⟩


/-! ## Power, links, errors, repair, management -/

theorem witness_power_events : ([249999#64, 250000#64].all fun u => let s := withP (secState [] .live) (fun p => { p with time := u })
      s.pkg.power.state == .active && !s.pkg.power.toLull && packageIdle s && s.pkg.power.idleSince == 0) = true ∧
    ([PowerState.breeze, .lull].all fun w => (withP (base .S) (fun p => { p with power := { p.power with state := w } })).pkg.power.state == w) = true := by
  decide +kernel
/-- The package 10 ms over its cap, a group of one core running. -/
def overCap (n : Nat) : State :=
  let s := running0 saveMem
  withP s (fun p => { p with power := { p.power with overMs := n, pkgw := 4201 } })
theorem witness_cap : ([9, 10].all fun n => let s := overCap n
      islandToFree s == some 0 && (match groupsOn s 0 with | [(l, x)] => saveRoom s (l.world s) l.lid x.num && launchOf s l.lid == some l && l.group x.num == some x | _ => false)) = true ∧
    mayLower (base .S) 0 = false ∧ mayLower (base .S) 1 = true ∧ mayLower (base .S) 21 = false ∧ mayLower (base .S) 23 = true := by decide +kernel
theorem witness_pcap : (let s := withP (secState [] .live) (fun p => { p with config := { p.config with operators := [4] }, power := { p.power with lowering := [1, 2], capw := 1000 } })
    portUp s && s.pkg.power.state == .active && s.pkg.config.operators.contains 4 && !s.pkg.config.operators.contains 5 &&
      [999#64, 1000#64, 4200#64, 4201#64].all (fun n => ((n <<< 16).extractLsb 28 16).toNat == n.toNat) && s.pkg.power.lowering.contains 1 && mayLower s 1 &&
      (let h := withP s (fun p => { p with power := { p.power with islands := p.power.islands.set 0 { now := 8, set := 27, thermal := true } } })
       h.pkg.power.islands[0].thermal)) = true := by decide +kernel
theorem witness_hub : ([(0x1FFF8#52, 0#2), (0x20000#52, 3#2), (0x3FFFFFF8#52, 3#2), (0x40000000#52, 3#2), (0x35FFFFFFFF8#52, 3#2)].all fun p =>
      [0x100, 0x101].all fun e => let pa := p.1.toNat
      let s := secState (memWrite [] (frameEntry 0 0x4000) 4 e) .live
      s.pkg.power.state == .active && isLpddr pa && !isYard pa && pa % 2 ^ p.2.toNat == 0 && Memory.wf s.mem && (readFails s pa (2 ^ p.2.toNat)).isNone &&
        (((decide (0x20000 ≤ pa) && decide (pa < 2 ^ 30)) || (decide (2 ^ 30 ≤ pa) && (frameKind s pa).2 != 0 && (frameKind s pa).1 != 0)) ==
          ([0x20000#52, 0x3FFFFFF8#52].contains p.1 || (p.1 == 0x40000000#52 && e == 0x101)))) = true := by decide +kernel
/-- Port `n` of a package. -/
def portState (n : Fin 18) (p : Port) : State := withP (base .S) (fun k => { k with ports := k.ports.set n.val p n.isLt })
theorem witness_ports : ([0#2, 1#2, 2#2].all fun w => [0, 17].all fun (n : Fin 18) => let p : Port := { portOf (base .S) n with up := w != 0, width := w }
    portOf (portState n p) n == p && p.en && (p.up == (w != 0)) && !p.replaying && decide (p.failures < 16) &&
      [{ p with replaying := true, failures := 15 }, { p with retraining := true, failures := 16 }, { p with sent := [(0, { target := 5, num := 0, key := 2 ^ 80, size := 128, write := true })] },
        { p with en := false }].all (fun x => portOf (portState n x) n == x)) = true ∧
    (let s := portState 17 { portOf (base .S) 17 with up := true, width := 2 }
     [0, 1].all (fun (n : Fin 18) => !(portOf s n).up)) = true := by decide +kernel
theorem witness_flits : (let s := portState 3 { portOf (base .S) 3 with up := true, width := 2 }
    (portOf s 3).up ∧ ([0, 1, 2].all fun (m : Fin 18) => !(portOf s m).up) = true) ∧ (Config.scaleOut 5 = false ∨ Config.scaleOut 5 = true) :=
  ⟨by decide +kernel, by cases Config.scaleOut 5 <;> simp⟩
/-- A write of 8 bytes that another device asks for. -/
def linkReq0 (num : Nat) : LinkReq := { source := 9, num := num, pa := 0x40000008, logSize := 3, val := 7 }
theorem witness_requests_over_links : ([[], [(9#22, 4)]].all fun seen => let s := withP (portState 0 { portOf (base .S) 0 with up := true, width := 2 }) (fun p => { p with linkSeen := seen })
    let f : Flit := { good := true, num := 0, replayFrom := none, request := some (linkReq0 4) }
    f.num == (portOf s 0).nextRx && (portOf s 0).up && !(portOf s 0).retraining && s.pkg.linkSeen.contains (9, 4) == !seen.isEmpty && isLpddr 0x40000008 &&
      (frameKind s 0x40000008).2 == 0 && Memory.wf s.mem) = true := by decide +kernel
theorem witness_errors : ([(0, ErrStruct.lpddr), (2 ^ 60, .sram), (2 ^ 61, .loft)].all fun (p : Nat × ErrStruct) => ((keyHome (base .S) p.1).map Prod.fst) == some p.2) = true ∧
    ((keyHome (withP (base .S) (fun p => { p with l2 := [{ line := 5, slice := 0, set := 0, way := 0, phase := 0, order := 0, world := 0, dirty := false, hot := false }] })) 0x280).map Prod.fst) = some .cache ∧ (keyHome (base .S) (0xF000000000)).isNone = true ∧
    (hitHome (base .S) (.mem (0xF000000000))).isNone = true ∧
    (hitHome (secState (memWrite [] (frameEntry 0 0x4000) 4 0x101) .live) (.lineTag (2 ^ 30 / 128))).isSome = true ∧
    (let s := withP (base .S) (fun p => { p with latent := [0], scrubPos := 0 })
     s.pkg.latent.contains s.pkg.scrubPos && !(base .S).pkg.latent.contains (base .S).pkg.scrubPos && !(yardOf s 0).failed && !(yardOf s 3).failed) = true := by
  decide +kernel
theorem witness_cache_tags : ([true, false].all fun d =>
    let x : L2Line := { line := 5, slice := 0, set := 0, way := 0, phase := 0, order := 0, world := 0, dirty := d, hot := false }
    (withP (base .S) (fun p => { p with l2 := [x] })).pkg.l2.find? (fun y => y.line == 5) == some x) = true ∧
    (let s := base .S
     ({ s with core := { s.core with l1 := [{ line := 5, way := 0, order := 0, locks := 0 }] } } : State).core.l1.any (fun x => x.line == 5)) = true ∧
    (let t := stateAfter (execSoftError { place := .l2Tag 5, correctable := true } (withP (base .S) (fun p => { p with l2 :=
      [{ line := 5, slice := 0, set := 0, way := 0, phase := 0, order := 0, world := 0, dirty := true, hot := false }] }))) (base .S)
     t.bad.length = 16 ∧ (t.pkg.errors.get (errIndex .cache 0)).ue = 1) := by decide +kernel
theorem witness_columns : mayClaim (secState [] .live) 511 = true ∧ mayClaim (base .S) 0 = false ∧
    (let s := withP (base .S) (fun p => { p with farrier := { p.farrier with weak := [(1, 128 * 2 ^ 17 + 5)] } })
     (s.pkg.farrier.weak.contains (1, 128 * 2 ^ 17 + 5) && !s.pkg.loft.held.contains 128 && !s.pkg.farrier.claimed.contains 128 && Memory.wf s.mem &&
       decide (wearOf s.pkg.loft (physRow s.pkg.loft (128 * 2 ^ 17 + 5)) < 100000) && (s.pkg.loft.refresh.get 1).isNone && !lpeHolds s 1 &&
       (s.pkg.loft.lanes.get 1).rest == 0 && !s.pkg.power.toLull && secUp s &&
       (let h := withP s (fun p => { p with loft := { p.loft with held := [128], refresh := p.loft.refresh.set 1 (some (128 * 2 ^ 17 + 5)) } })
        h.pkg.loft.refresh.get 1 == some (128 * 2 ^ 17 + 5))) = true) ∧
    (let r : LaneRepair := { column := 511, lane := 3, spare := 0, inUse := false }
     let s := withP (secState [] .live) (fun p => { p with farrier := { p.farrier with repairs := [r], failedLanes := [(511, 1)] } })
     (mayClaim s 511 && s.pkg.farrier.repairs.contains r && s.pkg.farrier.stuck.isEmpty) = true) := by decide +kernel
theorem witness_management : (let s := withP (secState [] .live) (fun p => { p with config := { p.config with operators := [4] } })
    portUp s && s.pkg.power.state == .active && s.pkg.config.operators.contains 4 && !s.pkg.config.operators.contains 5 &&
      ([0x03E80000#64, 0x10680000#64].all fun v => decide (1000 ≤ (v.extractLsb 28 16).toNat ∧ (v.extractLsb 28 16).toNat ≤ 4200)) &&
      ([0x03E70000#64, 0x10690000#64].all fun v => !decide (1000 ≤ (v.extractLsb 28 16).toNat ∧ (v.extractLsb 28 16).toNat ≤ 4200))) = true := by decide +kernel


/-! ## Words, the step, reads -/

theorem witness_encode : ([Instr.nop k0, .add k0 4 4 (.lit32 7), .thr k0 2 0 (.lit64 7), .patchWord 0 2 62 0xB [1, 2]].all fun i =>
    i.wellFormed && (instrTemplate i).isNone && !(encode i).isEmpty) = true := by decide +kernel
theorem witness_decode : decodeWord 0xC08A000B#32 [] = some (.patchWord 0 2 10 0xB [], 1) ∧
    decodeWord 0x04110100#32 [0x12345678#32, 1#32] = some (.add k0 4 4 (.lit32 0x12345678#32), 2) := by decide
/-- L's turn at a PC, where its instruction memory holds `w` at every word but word 2, which holds ones. -/
def turnAt (w : Word32) (pc : BitVec 16) (run : RunState) : State :=
  let s := (base .L).withSeq .L { (base .L).seq .L with pc := pc }
  { s with
    turn := .seq .L
    core := { s.core with run := run, planes := RegFile.fill 1 { Plane.clear with fill := w, im := RegFile.fill 2 [(2, 0xFFFFFFFF)] } } }
theorem witness_step : ([(0x04110100#32, 4#16), (0x01C00000#32, 4#16), (0x01C00000#32, 0x7FFC#16), (0x01C00000#32, 0x8000#16), (0xC08A000B#32, 4#16), (0x7C000000#32, 4#16),
      (0x74048003#32, 4#16), (0x04110200#32, 0x7FF8#16)].all fun p => let s := turnAt p.1 p.2 .running
    s.inputs.isEmpty && !off s && s.pkg.power.boot != .failed && s.turn == .seq .L && canIssue s .L && (heldFault s .L (fun _ => false)).isNone &&
      !canIssue (turnAt p.1 p.2 .idle) .L) = true ∧
    (let t := turnAt 0x04110100#32 4 .running
     let s := t.withSeq .L { t.seq .L with asyncErr := some FaultRec.none }
     (s.inputs.isEmpty && !off s && s.turn == .seq .L && canIssue s .L && (heldFault s .L (fun _ => false)).isSome) = true) ∧
    off (withP (base .S) (fun p => { p with power := { p.power with supply := false } })) = true ∧
    off (withP (base .S) (fun p => { p with power := { p.power with boot := .failed } })) = false ∧ isEvent .supplyLoss = true ∧
    ((turnAt 0 0 .running).plane.word .L 8, (turnAt 0x04110100#32 0 .running).plane.word .L 4) = (0xFFFFFFFF, 0x04110100) := by decide +kernel
/-- S with an x register's write in flight, due in cycle 5. -/
def inFlight : Pending := { due := 5, writes := [.x 3 7 none], push := none, covered := false, op := none }
theorem witness_reads : noWriteX (base .S |>.seq .S).pend 3 ∧
    (let s := (base .S).withSeq .S { (base .S).seq .S with pend := [inFlight] }
     (s.seq .S).pend = [] ++ inFlight :: [] ∧ s.core.cycle < inFlight.due ∧ noWriteX [] 3 ∧ inFlight.writes = [.x 3 7 none]) :=
  ⟨(fun p hp => nomatch hp), rfl, by decide, (fun p hp => nomatch hp), rfl⟩
theorem witness_late_read : inFlight.due ≤ ({ (base .S).core with cycle := 5 } : Core).cycle := by decide
theorem witness_memory_kept : Safety.memOk State.reset ∧ ∃ t, step State.reset = .next t := ⟨rfl, _, rfl⟩

end Sys2Proof.Tests
end

/-! # A misaligned access faults and touches nothing (R48)

First what taking a precise fault leaves behind, said once for every instruction whose effect is a fault (R222, R227); then that an
access that is not aligned to its size has that effect before its place is looked at. -/

namespace Sys2Proof.Proofs

open Sys2Proof Machine Laws

/-! ## Changes of a task that leave every sequencer at its PC -/

/-- No sequencer has moved from one task to the other. -/
def pcsKept (t u : Task) : Prop := ∀ p : SeqId, (u.seqs.get p.num).pc = (t.seqs.get p.num).pc

theorem pcsKept.refl (t : Task) : pcsKept t t := fun _ => rfl

theorem pcsKept.trans {t u v : Task} (h : pcsKept t u) (k : pcsKept u v) : pcsKept t v := fun p => (k p).trans (h p)

theorem pcsKept_foldl {α : Type} {f : Task → α → Task} (h : ∀ t a, pcsKept t (f t a)) (l : List α) (t : Task) :
    pcsKept t (l.foldl f t) := by
  induction l generalizing t with
  | nil => exact pcsKept.refl t
  | cons a l ih => exact (h t a).trans (ih (f t a))

theorem pcsKept_withSeq {t : Task} {q : SeqId} {x : SeqState} (h : x.pc = (t.seqs.get q.num).pc) : pcsKept t (t.withSeq q x) := by
  intro p
  rw [Task.withSeq_get]
  split
  · next e => rw [h, e]
  · rfl

theorem pcsKept_apply (t : Task) (q : SeqId) (w : Write) : pcsKept t (t.apply q w) := by
  cases w with
  | x r v p =>
    unfold Task.apply
    dsimp only
    split
    · exact pcsKept.refl t
    · exact pcsKept_withSeq rfl
  | flag | bt | lc => exact pcsKept_withSeq rfl
  | v | t | o | q | fill | m | km | acc | fflags | scout | mask | tpl | acct => exact pcsKept.refl t

theorem pcsKept_mend (t : Task) (q : SeqId) (ws : List Write) : pcsKept t (t.mend q ws) := by
  unfold Task.mend
  split <;> exact pcsKept.refl t

theorem pcsKept_fillPush (t : Task) (push : Option (BitVec 4 × Nat)) : pcsKept t (t.fillPush push) := by
  cases push <;> exact pcsKept.refl t

theorem pcsKept_dropPush (t : Task) (push : Option (BitVec 4 × Nat)) : pcsKept t (t.dropPush push) := by
  cases push <;> exact pcsKept.refl t

theorem pcsKept_retire (t : Task) (q : SeqId) (p : Pending) : pcsKept t (t.retire q p) :=
  ((pcsKept_foldl (fun t w => pcsKept_apply t q w) p.writes t).trans (pcsKept_mend _ q p.writes)).trans (pcsKept_fillPush _ p.push)

theorem pcsKept_retireWhere (t : Task) (q : SeqId) (accept : Pending → Bool) : pcsKept t (t.retireWhere q accept) := by
  have hw : pcsKept t (t.withSeq q { t.seqs.get q.num with pend := (t.seqs.get q.num).pend.filter (fun p => !accept p) }) :=
    pcsKept_withSeq rfl
  exact hw.trans (pcsKept_foldl (fun t p => pcsKept_retire t q p) _ _)

theorem pcsKept_retireAll (t : Task) : pcsKept t t.retireAll := by
  unfold Task.retireAll
  refine pcsKept_foldl (fun t q => ?_) allSeqs t
  dsimp only
  exact (pcsKept_retireWhere t q _).trans (pcsKept_withSeq rfl)

theorem pcsKept_dropWaitPush (t : Task) (q : SeqId) : pcsKept t (t.dropWaitPush q) := by
  unfold Task.dropWaitPush
  split
  · split
    · exact pcsKept.refl t
    · exact pcsKept_dropPush t _
  · exact pcsKept.refl t

/-- A halt leaves every sequencer at its instruction boundary (R222). -/
theorem pcsKept_halted (t : Task) : pcsKept t t.halted := by
  have h : pcsKept t (allSeqs.foldl Task.dropWaitPush t.retireAll) :=
    (pcsKept_retireAll t).trans (pcsKept_foldl pcsKept_dropWaitPush allSeqs _)
  intro p
  rw [← h p]
  simp only [Task.halted, RegFile.get_map, haltSeq]

/-! ## Taking a fault -/

@[simp] theorem settlePlane_mem (s : State) (q : SeqId) (accept : Pending → Bool) : (s.settlePlane q accept).mem = s.mem := by
  unfold State.settlePlane
  dsimp only
  split <;> rfl

@[simp] theorem settlePlane_task (s : State) (q : SeqId) (accept : Pending → Bool) : (s.settlePlane q accept).task = s.task := by
  unfold State.settlePlane
  dsimp only
  split <;> rfl

@[simp] theorem settleAll_mem (s : State) : s.settleAll.mem = s.mem := by
  simp only [State.settleAll, allSeqs, List.foldl_cons, List.foldl_nil, settlePlane_mem]

@[simp] theorem settleAll_task (s : State) : s.settleAll.task = s.task := by
  simp only [State.settleAll, allSeqs, List.foldl_cons, List.foldl_nil, settlePlane_task]

@[simp] theorem takeFault_mem (s : State) (r : FaultRec) : (takeFault s r).mem = s.mem := by
  simp only [takeFault, settleAll_mem]

theorem takeFault_seq (s : State) (r : FaultRec) (q : SeqId) : (takeFault s r).seq q = s.task.halted.seqs.get q.num := by
  simp only [takeFault, State.seq, settleAll_task]

/-- Taking a fault leaves every sequencer where it stands (R222). -/
theorem takeFault_pc (s : State) (r : FaultRec) (q : SeqId) : ((takeFault s r).seq q).pc = (s.seq q).pc := by
  rw [takeFault_seq]
  exact pcsKept_halted s.task q

/-- FCAUSE holds the cause in its low byte (R227). -/
theorem fcauseOf_cause (cause : BitVec 8) (q : SeqId) (async popped : Bool) (code : BitVec 8) :
    (fcauseOf cause q async popped code).extractLsb 7 0 = cause := by
  apply BitVec.eq_of_toNat_eq
  have hc := cause.isLt
  rw [BitVec.extractLsb_toNat, fcauseOf, BitVec.toNat_ofNat, Nat.shiftRight_zero, Nat.mod_mod_of_dvd _ (by decide)]
  omega

/-- An instruction that nothing holds back and whose effect is a fault stops the task with that fault, and memory and its PC are as they
were (R222). -/
theorem faults_of_fail {s : State} {i : Instr} {eff : State → SeqId → Effect} {cause : BitVec 8} {addr : Word64}
    (hx : exec i s = issue i eff s) (hr : ready s i = true) (he : eff (met s i) s.cur = .fail cause addr) : faults s i cause addr := by
  refine ⟨_, hx.trans (issue_effect hr he (fun _ => nofun)), rfl, rfl, fcauseOf_cause cause s.cur false _ 0, rfl, ?_, ?_⟩
  · exact (takeFault_mem _ _).trans (reached_mem s s.cur i)
  · obtain ⟨hpc, -⟩ := reached_stand s s.cur i
    refine (takeFault_pc _ _ s.cur).trans ?_
    rw [State.withSeq_same]
    exact hpc

/-! ## The address in FADDR -/

/-- FADDR holds the low 56 bits of the address, with the space above them (R229). -/
theorem faddr_eq_faultAddr (sp : BitVec 2) (a : Word64) : faddr sp a = faultAddr sp a := by
  apply BitVec.eq_of_toNat_eq
  have hs : sp.toNat <<< 56 % 2 ^ 64 = sp.toNat <<< 56 := by
    have := sp.isLt
    rw [Nat.shiftLeft_eq]
    omega
  have hm : a.toNat &&& 0x00FFFFFFFFFFFFFF = a.toNat % 2 ^ 56 := Nat.and_two_pow_sub_one_eq_mod a.toNat 56
  have hl : (faddr sp a).toNat = sp.toNat <<< 56 ||| a.toNat % 2 ^ 56 := by
    refine (BitVec.toNat_append (0#6 ++ sp) (a.truncate 56)).trans ?_
    rw [BitVec.toNat_append, BitVec.truncate_eq_setWidth, BitVec.toNat_setWidth, BitVec.toNat_zero, Nat.zero_shiftLeft, Nat.zero_or]
  have hz : (sp.zeroExtend 64).toNat = sp.toNat := BitVec.toNat_setWidth_of_le (by decide)
  rw [hl, faultAddr, BitVec.toNat_or, BitVec.toNat_shiftLeft, hz, hs, BitVec.toNat_and]
  exact congrArg _ hm.symm

/-! ## An access that is not aligned to its size -/

section
variable {s : State} {q : SeqId} {i : Instr} {sp : BitVec 2} {addr size : Nat}

/-- A write that may pass the fences before it: none holds path 0, and a release finds none open (R74, R81). -/
theorem not_held_at_fences {rel : Prop} (hf : fenced s q 0 = false) (hp : rel → fencedPoint s q = false) :
    ¬ (fenced s q 0 = true ∨ rel ∧ fencedPoint s q = true) := by
  rintro (hc | ⟨hr, hc⟩)
  · exact Bool.false_ne_true (hf.symm.trans hc)
  · exact Bool.false_ne_true ((hp hr).symm.trans hc)

theorem checkAccess_misaligned (h : addr % size ≠ 0) (w : Bool) : checkAccess s sp addr size w = (s, .fault causeMisaligned) := if_pos h

theorem withRead_misaligned (h : addr % size ≠ 0) (w : Bool) (k : State → Nat → Word64 → Nat → Option (BitVec 8) → Effect) :
    withRead s sp addr size w k = .fail causeMisaligned (faddr sp (BitVec.ofNat 64 addr)) := by
  unfold withRead
  rw [checkAccess_misaligned h]

theorem withRead_word_misaligned {a : Word64} (h : a.toNat % size ≠ 0) (w : Bool)
    (k : State → Nat → Word64 → Nat → Option (BitVec 8) → Effect) :
    withRead s sp a.toNat size w k = .fail causeMisaligned (faddr sp a) := by
  rw [withRead_misaligned h, BitVec.ofNat_toNat, BitVec.setWidth_eq]

theorem loadEffect_misaligned (hf : fenced s q 0 = false) (h : addr % size ≠ 0) (d oc : BitVec 4) (inv sgn : BitVec 1) :
    loadEffect s q i d oc inv sp addr size sgn = .fail causeMisaligned (faddr sp (BitVec.ofNat 64 addr)) := by
  unfold loadEffect
  rw [hf, if_neg Bool.false_ne_true, withRead_misaligned h]

theorem storeEffect_misaligned {ord : BitVec 1} (hf : fenced s q 0 = false) (hp : ord = 1 → fencedPoint s q = false)
    (h : addr % size ≠ 0) (v : Word64) (oc : BitVec 4) :
    storeEffect s q i v oc sp addr size ord = .fail causeMisaligned (faddr sp (BitVec.ofNat 64 addr)) := by
  unfold storeEffect
  rw [if_neg (not_held_at_fences hf hp), checkAccess_misaligned h]

theorem amoEffect_misaligned {ord : BitVec 2} {a : Word64} (hf : fenced s q 0 = false)
    (hp : ord.getLsbD 1 = true → fencedPoint s q = false) (h : a.toNat % size ≠ 0) (d op oc : BitVec 4) (bv cv : Word64) :
    amoEffect s q i d op oc size sp ord a bv cv = .fail causeMisaligned (faddr sp a) := by
  unfold amoEffect
  rw [if_neg (not_held_at_fences hf hp), withRead_word_misaligned h]

end

/-! ## An aligned access lies within one page -/

/-- Bytes from a multiple of `size`, fewer than `size` on, lie in the page of the first where `size` divides the page. -/
theorem add_div_of_aligned {size page a n : Nat} (hd : size ∣ page) (ha : a % size = 0) (hn : n < size) : (a + n) / page = a / page := by
  obtain ⟨m, rfl⟩ := hd
  obtain ⟨c, rfl⟩ := Nat.dvd_of_mod_eq_zero ha
  rw [← Nat.div_div_eq_div_mul, ← Nat.div_div_eq_div_mul, Nat.mul_add_div (by omega), Nat.div_eq_of_lt hn, Nat.add_zero,
    Nat.mul_div_cancel_left c (by omega)]

theorem bytesOf_dvd_two_pow (z : BitVec 2) {e : Nat} (he : 3 ≤ e) : bytesOf z ∣ 2 ^ e :=
  Nat.pow_dvd_pow 2 (by have := z.isLt; omega)

/-- Settles O20: no check of an access comes before that of its alignment, so where nothing else holds the instruction back its effect is
that fault; and the bytes of an access divide both page sizes. -/
theorem misalignedFaults : Obligations.MisalignedFaults := by
  refine ⟨?ld, ?st, ?amo, ?ldx, ?stx, ?waitm, ?page⟩
  case ld =>
    intro s k d a o sp z g v r f i addr hr ha hf hm
    refine faults_of_fail rfl hr ?_
    rw [withX_clean ha, ← faddr_eq_faultAddr]
    exact loadEffect_misaligned hf hm d o v g
  case st =>
    intro s k d a o sp z g r f i addr hr ha hd ⟨hf, hp⟩ hm
    refine faults_of_fail rfl hr ?_
    rw [withX_clean ha, withX_clean hd, ← faddr_eq_faultAddr]
    exact storeEffect_misaligned hf hp hm _ o
  case amo =>
    intro s k d a b op sz oc scope ord c sp i hr ha hb hc hf hp hm
    refine faults_of_fail rfl hr ?_
    rw [withX_clean ha, withX_clean hb, withX_clean hc, ← faddr_eq_faultAddr]
    exact amoEffect_misaligned hf hp hm d op oc _ _
  case ldx =>
    intro s k d a b o z sp g r i addr hr ha hb hf hm
    refine faults_of_fail rfl hr ?_
    rw [withX_clean ha, withX_clean hb, ← faddr_eq_faultAddr]
    exact loadEffect_misaligned hf hm d o 0 g
  case stx =>
    intro s k d a b o z sp g r i addr hr ha hb hd ⟨hf, hp⟩ hm
    refine faults_of_fail rfl hr ?_
    rw [withX_clean ha, withX_clean hb, withX_clean hd, ← faddr_eq_faultAddr]
    exact storeEffect_misaligned hf hp hm _ o
  case waitm =>
    intro s k d a b o z sp g r i hr ha hb hd hf hm
    refine faults_of_fail rfl hr ?_
    rw [withX_clean ha, withX_clean hb, withX_clean hd, hf, if_neg Bool.false_ne_true, ← faddr_eq_faultAddr]
    exact withRead_word_misaligned hm false _
  case page =>
    intro z a n ha hn
    exact ⟨add_div_of_aligned (bytesOf_dvd_two_pow z (by decide)) ha hn, add_div_of_aligned (bytesOf_dvd_two_pow z (by decide)) ha hn⟩

end Sys2Proof.Proofs

/-! # The vector kinds issue with the elements of their rule (R108, R259, R261)

Said once for every kind that works element by element; then the modular kinds (R129 to R131, R278, R279), whose one fact is that
`invR q` undoes the factor 2^64 of the Montgomery convention for an odd modulus. -/

namespace Sys2Proof.Proofs

open Sys2Proof Machine Laws

/-! ## The issue of a vector kind -/

section
variable {s : State} {i : Instr} {k : TplIssue} {codes : List (BitVec 8)} {draws : Bool} {lanes : VecIn → List (BitVec 64)}

/-- Where nothing holds it back, the effect of a vector kind is its result on the sources that it meets (R259). -/
theorem vecEffect_of_free (f : VecIn → VecOut) (h : vecFree s i k codes (lanes (vecInOf s i k codes draws))) :
    let m := reached s .C i
    let x := vecInOf s i k codes draws
    let s1 := popSources (m.withTask { m.task with seed := x.seed }) codes
    let p := if isO k.tpl.dst then reserveO s1 (k.tpl.dst.truncate 2) else (s1, 0)
    vecEffect k codes draws lanes f m .C = .done p.1 (classBound k.tpl) (vecWrite k.tpl p.2 (f x)) .next := by
  obtain ⟨hq, hp, ho⟩ := h
  have hclean : ((lanes (vecInOf s i k codes draws)).zipIdx.filterMap
      (fun p => sourcePoison (reached s .C i) codes p.2 p.1)).head? = none := by
    rw [List.filterMap_eq_nil_iff.mpr hp]; rfl
  have hroom : ¬ (isO k.tpl.dst && oRoom (reached s .C i) (k.tpl.dst.truncate 2) == 0) = true := by
    rw [Bool.and_eq_true, beq_iff_eq]
    rintro ⟨hd, h0⟩
    exact Nat.ne_of_gt (ho hd) h0
  unfold vecInOf at hclean
  unfold vecEffect
  dsimp only at hclean ⊢
  rw [hq]
  dsimp only
  rw [hclean]
  dsimp only
  rw [if_neg hroom]
  rfl

/-- A vector kind with a legal record that nothing holds back issues with its result. -/
theorem exec_vec_of_free {legal : Bool} {f : VecIn → VecOut} (hx : exec i s = issueTpl i legal (vecEffect k codes draws lanes f) s)
    (hr : readyOn s .C i = true) (hl : legal = true) (h : vecFree s i k codes (lanes (vecInOf s i k codes draws))) :
    exec i s = .next (vecDone s i k codes (vecInOf s i k codes draws) (f (vecInOf s i k codes draws))) := by
  rw [hx, issueTpl, hl, issueOn_ready hr (vecEffect_of_free f h), vecDone]
  split <;> rfl

end

/-! ## Elements of an entry -/

@[simp] theorem elemAt_packBits (w : Nat) (l : List Nat) (i : Nat) : elemAt w (packBits w l) i = l.getD i 0 % 2 ^ w := by
  induction l generalizing i with
  | nil => simp [packBits, elemAt]
  | cons a l ih =>
    have hw : 0 < 2 ^ w := Nat.two_pow_pos w
    cases i with
    | zero => simp [packBits, elemAt]
    | succ i =>
      rw [List.getD_cons_succ, ← ih, packBits, elemAt, elemAt, Nat.mul_succ, Nat.pow_add', ← Nat.div_div_eq_div_mul,
        Nat.add_mul_div_left _ _ hw, Nat.div_eq_of_lt (Nat.mod_lt a hw), Nat.zero_add]

/-- An entry holds every element that lies within its 2048 bits. -/
theorem elemAt_mod_entry {w i : Nat} (hi : i < 2048 / w) (v : Nat) : elemAt w (v % 2 ^ 2048) i = elemAt w v i := by
  have hle : w * i + w ≤ 2048 := calc
    w * i + w = w * (i + 1) := rfl
    _ ≤ w * (2048 / w) := Nat.mul_le_mul_left w hi
    _ ≤ 2048 := Nat.mul_div_le 2048 w
  have hs : 2 ^ 2048 = 2 ^ (w * i) * 2 ^ (2048 - w * i) := by rw [← Nat.pow_add]; congr 1; omega
  rw [elemAt, hs, Nat.mod_mul_right_div_self, Nat.mod_mod_of_dvd _ (Nat.pow_dvd_pow 2 (by omega)), elemAt]

/-- Flags gathered one after another are set where some one of them is (R133). -/
theorem getLsbD_foldl_or {α : Type} {n : Nat} (f : α → BitVec n) (l : List α) (b : Nat) :
    (l.foldl (fun a r => a ||| f r) 0).getLsbD b = l.any (fun r => (f r).getLsbD b) := by
  have h : ∀ z, (l.foldl (fun a r => a ||| f r) z).getLsbD b = (z.getLsbD b || l.any (fun r => (f r).getLsbD b)) := by
    induction l with
    | nil => simp
    | cons r l ih => intro z; rw [List.foldl_cons, ih, BitVec.getLsbD_or, List.any_cons, Bool.or_assoc]
  simp [h]

/-- Elements computed one by one where active hold their rule (R108, R261). -/
theorem elementsHold_eachElem {x : VecIn} {mask : BitVec 64} {rule : Nat → Res → Prop} {f : Nat → Res} (h : ∀ i, rule i (f i)) :
    elementsHold x mask rule (eachElem { x with mask := mask } (typeWidth x.t.dtype) f) := by
  refine ⟨rfl, f, fun i hi => ?_, fun b _ => ?_⟩
  · have he : elemAt (typeWidth x.t.dtype) (eachElem { x with mask := mask } (typeWidth x.t.dtype) f).d.toNat i =
        (if activeElem mask (typeWidth x.t.dtype) i then f i else (0, 0)).1 % 2 ^ typeWidth x.t.dtype := by
      simp only [eachElem, BitVec.toNat_ofNat, elemAt_mod_entry hi, elemAt_packBits, upTo, List.map_map]
      rw [List.getD_eq_getElem?_getD, List.getElem?_map, List.getElem?_range hi]
      rfl
    rw [he]
    split
    · exact ⟨h i, rfl⟩
    · exact Nat.zero_mod _
  · simp only [eachElem, getLsbD_foldl_or, upTo, List.any_map]
    congr 1
    funext i
    rw [Function.comp_apply]
    cases activeElem mask (typeWidth x.t.dtype) i <;> simp

/-! ## Residues and the two conventions of their product (R129, R130) -/

theorem powMod_mod (a q n : Nat) : powMod a q n % q = a ^ n % q := by
  induction n with
  | zero => exact Nat.mod_mod 1 q
  | succ n ih => rw [powMod, Nat.mod_mod, Nat.mul_mod, ih, ← Nat.mul_mod, Nat.pow_succ]

/-- `invR q` is the inverse of 2^64 modulo an odd `q`: it is the power of (q + 1) / 2, the inverse of 2. -/
theorem invR_mul_two_pow {q : Nat} (hq : q % 2 = 1) : invR q * 2 ^ 64 % q = 1 % q := by
  have h2 : (q + 1) / 2 * 2 = q + 1 := Nat.div_mul_cancel (by omega)
  calc invR q * 2 ^ 64 % q = invR q % q * 2 ^ 64 % q := (Nat.mod_mul_mod _ _ _).symm
    _ = ((q + 1) / 2) ^ 64 * 2 ^ 64 % q := by rw [invR, powMod_mod, Nat.mod_mul_mod]
    _ = (q + 1) ^ 64 % q := by rw [← Nat.mul_pow, h2]
    _ = 1 % q := by rw [Nat.pow_mod, Nat.add_mod_left, ← Nat.pow_mod, Nat.one_pow]

theorem mulMod_lt {q : Nat} (hq : 0 < q) (mont : Bool) (a b : Nat) : mulMod mont q a b < q := by
  cases mont <;> exact Nat.mod_lt _ hq

/-- The product under MONT, multiplied by 2^64, is the plain product (R130). -/
theorem mulMod_mont_mul_two_pow {q : Nat} (hq : q % 2 = 1) (a b : Nat) : mulMod true q a b * 2 ^ 64 % q = a * b % q :=
  calc mulMod true q a b * 2 ^ 64 % q = a * b % q * invR q * 2 ^ 64 % q := Nat.mod_mul_mod _ _ _
    _ = a * b * (invR q * 2 ^ 64) % q := by rw [Nat.mul_assoc, Nat.mod_mul_mod]
    _ = a * b * 1 % q := by rw [Nat.mul_mod, invR_mul_two_pow hq, ← Nat.mul_mod]
    _ = a * b % q := by rw [Nat.mul_one]

section
variable {x : VecIn} {a b u v : Nat}

theorem res_mod (x : VecIn) (a : Nat) : x.res a % x.q = a % x.q := Nat.mod_mod a x.q

/-- A sum of residues is that of the values they stand for. -/
theorem add_residue_eq (hu : u % x.q = a % x.q) (hv : v % x.q = b % x.q) : (u + v) % x.q = (a + b) % x.q := by
  rw [Nat.add_mod, hu, hv, ← Nat.add_mod]

/-- A product of residues is that of the values they stand for, in the convention of RND (R130). -/
theorem modProduct_mulq (hq : x.q % 2 = 1) (hu : u % x.q = a % x.q) (hv : v % x.q = b % x.q) : modProduct x a b (x.mulq u v) := by
  have huv : u * v % x.q = a * b % x.q := by rw [Nat.mul_mod, hu, hv, ← Nat.mul_mod]
  refine ⟨mulMod_lt (by omega) _ u v, ?_⟩
  unfold VecIn.mulq
  split
  · next h => rw [h]; exact (mulMod_mont_mul_two_pow hq u v).trans huv
  · next h => rw [beq_false_of_ne h]; exact huv

/-- A difference of residues, kept from going below zero by `q`, is that of the values they stand for. -/
theorem sub_residue_eq (hu : u % x.q = a % x.q) (hv : v % x.q = b % x.q) (hle : v ≤ x.q) :
    (((u + x.q - v) % x.q : Nat) : Int) = ((a : Int) - b) % x.q := by
  have hu' : (u : Int) % x.q = a % x.q := congrArg Nat.cast hu
  have hv' : (v : Int) % x.q = b % x.q := congrArg Nat.cast hv
  have hshift : ((u + x.q - v : Nat) : Int) = (u : Int) - v + x.q := by omega
  rw [Int.natCast_emod, hshift, Int.add_emod_right, Int.sub_emod, hu', hv', ← Int.sub_emod]

theorem res_le (hq : x.q % 2 = 1) (a : Nat) : x.res a ≤ x.q := Nat.le_of_lt (Nat.mod_lt a (by omega))

end

theorem residue_flag_getLsbD (q v b : Nat) : (residue q v).2.getLsbD b = (decide (q ≤ v) && flagMR.getLsbD b) := by
  by_cases h : q ≤ v <;> simp [residue, h]

/-- MR is raised where some input is q or more (R129). -/
theorem mr_eq_modInputs (x : VecIn) (l : List Nat) : x.mr l = modInputs x l := by
  apply BitVec.eq_of_getLsbD_eq
  intro b _
  rw [VecIn.mr, getLsbD_foldl_or, modInputs]
  simp only [residue_flag_getLsbD, ← List.and_any_distrib_right]
  cases l.any (fun v => decide (x.q ≤ v)) <;> simp [flagMR]

/-! ## The modular kinds (R278, R279) -/

/-- A legal record of a modular kind has elements of 64 bits and an odd modulus (R129). -/
theorem modularOk_facts {x : VecIn} (h : modularOk x.t = true) : typeWidth x.t.dtype = 64 ∧ x.q % 2 = 1 := by
  simp only [modularOk, modulusOk, Bool.and_eq_true, beq_iff_eq] at h
  obtain ⟨⟨⟨⟨-, hd⟩, ⟨hq, -⟩, -⟩, -⟩, -⟩ := h
  exact ⟨by rw [hd]; rfl, hq⟩

/-- VMADD, VMSUB, VMMUL, VNTT and VINTT ask the same of their record (R278). -/
theorem two_source_facts {x : VecIn} (h : (modularOk x.t && same2 x.t && noSrc3 x.t) = true) :
    typeWidth x.t.dtype = 64 ∧ x.q % 2 = 1 := by
  simp only [Bool.and_eq_true] at h
  obtain ⟨⟨hm, -⟩, -⟩ := h
  exact modularOk_facts hm

theorem vmred_odd {x : VecIn} (h : vmredLegal x.t = true) : x.q % 2 = 1 := by
  simp only [vmredLegal, Bool.and_eq_true] at h
  obtain ⟨⟨⟨⟨hm, -⟩, -⟩, -⟩, -⟩ := h
  exact (modularOk_facts hm).2

/-- VMRED multiplies by 1 in the convention of RND (R130, R278). -/
theorem vmred_product {x : VecIn} (hq : x.q % 2 = 1) (a : Nat) :
    modProduct x a 1 (if x.t.rnd = 1 then a % x.q * invR x.q % x.q else a % x.q) := by
  have h : x.mulq a 1 = if x.t.rnd = 1 then a % x.q * invR x.q % x.q else a % x.q := by
    simp only [VecIn.mulq, mulMod, Nat.mul_one, beq_iff_eq]
  exact h ▸ modProduct_mulq hq rfl rfl

/-- An active butterfly k gives elements k and 16 + k (R279). -/
theorem elementsHold_butterfly {x : VecIn} {rule : Nat → Res → Prop} {f : Nat → Res} (hw : typeWidth x.t.dtype = 64)
    (h : ∀ i, rule i (f i)) : elementsHold x (butterflyMask x) rule (eachElem { x with mask := butterflyMask x } 64 f) :=
  hw ▸ elementsHold_eachElem h

/-- The product of a butterfly with its twiddle, added to a or taken from it (R131). -/
theorem add_or_sub_product {x : VecIn} {a u p : Nat} (c : Prop) [Decidable c] (hu : u % x.q = a % x.q) (hp : p ≤ x.q) :
    ((if c then (u + p) % x.q else (u + x.q - p) % x.q : Nat) : Int) = (if c then (a : Int) + p else (a : Int) - p) % x.q := by
  by_cases h : c
  · rw [if_pos h, if_pos h]
    exact congrArg Nat.cast (add_residue_eq hu rfl)
  · rw [if_neg h, if_neg h]
    exact sub_residue_eq hu rfl hp

/-- Settles O36: each modular kind is one lemma on residues, taken element by element. -/
theorem vectorModular : Obligations.VectorModular := by
  intro r hr s k i codes x hready hlegal hfree
  simp only [vecModular, List.mem_cons, List.not_mem_nil, or_false] at hr
  obtain rfl | rfl | rfl | rfl | rfl | rfl := hr
  · -- VMADD
    refine ⟨_, exec_vec_of_free (f := vmaddOut) rfl hready hlegal hfree, elementsHold_eachElem fun n => ?_⟩
    exact Prod.ext (add_residue_eq (res_mod x _) (res_mod x _)) (mr_eq_modInputs x _)
  · -- VMSUB
    obtain ⟨-, hq⟩ := two_source_facts (x := x) hlegal
    refine ⟨_, exec_vec_of_free (f := vmsubOut) rfl hready hlegal hfree, elementsHold_eachElem fun n => ?_⟩
    exact ⟨sub_residue_eq (res_mod x _) (res_mod x _) (res_le hq _), mr_eq_modInputs x _⟩
  · -- VMMUL
    obtain ⟨-, hq⟩ := two_source_facts (x := x) hlegal
    refine ⟨_, exec_vec_of_free (f := vmmulOut) rfl hready hlegal hfree, elementsHold_eachElem fun n => ?_⟩
    exact ⟨modProduct_mulq hq (res_mod x _) (res_mod x _), mr_eq_modInputs x _⟩
  · -- VMRED
    refine ⟨_, exec_vec_of_free (f := vmredOut) rfl hready hlegal hfree, elementsHold_eachElem fun n => ?_⟩
    exact ⟨vmred_product (vmred_odd (x := x) hlegal) _, rfl⟩
  · -- VNTT
    obtain ⟨hw, hq⟩ := two_source_facts (x := x) hlegal
    refine ⟨_, exec_vec_of_free (f := vnttOut) rfl hready hlegal hfree, elementsHold_butterfly hw fun n => ?_⟩
    have hp := modProduct_mulq hq (res_mod x (x.b (n % 16))) (res_mod x (x.a (16 + n % 16)))
    exact ⟨_, hp, add_or_sub_product _ (res_mod x _) (Nat.le_of_lt hp.1), mr_eq_modInputs x _⟩
  · -- VINTT
    obtain ⟨hw, hq⟩ := two_source_facts (x := x) hlegal
    refine ⟨_, exec_vec_of_free (f := vinttOut) rfl hready hlegal hfree,
      elementsHold_butterfly hw fun n => ⟨?_, mr_eq_modInputs x _⟩⟩
    dsimp only
    split
    · exact add_residue_eq (res_mod x _) (res_mod x _)
    · refine modProduct_mulq hq ?_ (res_mod x _)
      rw [← sub_residue_eq (res_mod x _) (res_mod x _) (res_le hq _)]
      rfl

end Sys2Proof.Proofs

/-! # Which pairs a mask program allows, and that the class of a tile is sound (R143 to R147)

The mask unit never looks at a pair: it gives a term, a clause and the clauses of a kind each a status over the ranges of a tile. The one
idea is that each of these statuses bounds what holds of every pair within the ranges; the class of the tile then follows from the last. -/

namespace Sys2Proof.Proofs

open Sys2Proof Machine

/-! ## What holds of a pair (R143, R144) -/

/-- Each term of a clause holds of a pair. -/
def clauseHolds (c : List Word64) (q k : Word64) : Prop := ∀ w ∈ c, termHolds w q k = true

/-- Some clause of a list holds of a pair. -/
def someHolds (cs : List (List Word64)) (q k : Word64) : Prop := ∃ c ∈ cs, clauseHolds c q k

/-- The clauses of a program that do not deny. -/
def allowClauses (p : MaskSlot) : List (List Word64) := (clausesOf p).filter (fun c => !isDeny c)

/-- The clauses of a program that deny. -/
def denyClauses (p : MaskSlot) : List (List Word64) := (clausesOf p).filter isDeny

theorem termHolds_iff {w q k : Word64} : termHolds w q k = true ↔
    loLe (maskLo w) (termVal (maskOp w) q k) = true ∧ leHi (termVal (maskOp w) q k) (maskHi w) = true := by
  rw [termHolds, Bool.and_eq_true]

theorem someHolds_allowClauses {p : MaskSlot} {q k : Word64} :
    someHolds (allowClauses p) q k ↔ ∃ c ∈ clausesOf p, isDeny c = false ∧ clauseHolds c q k := by
  simp only [someHolds, allowClauses, List.mem_filter, Bool.not_eq_true', and_assoc]

theorem someHolds_denyClauses {p : MaskSlot} {q k : Word64} :
    someHolds (denyClauses p) q k ↔ ∃ c ∈ clausesOf p, isDeny c = true ∧ clauseHolds c q k := by
  simp only [someHolds, denyClauses, List.mem_filter, and_assoc]

theorem allowedPair_iff {p : MaskSlot} {q k : Word64} : allowedPair p q k = true ↔
    tagPad q = false ∧ tagPad k = false ∧ someHolds (allowClauses p) q k ∧ ¬ someHolds (denyClauses p) q k := by
  rw [someHolds_allowClauses, someHolds_denyClauses]
  simp only [allowedPair, clauseHolds, Bool.and_eq_true, Bool.not_eq_true', List.any_eq_true, List.all_eq_true, and_assoc,
    ← Bool.not_eq_true (List.any _ _)]

/-- R143 and R144, with the terms of a clause written out. -/
theorem pairsAllowed : Claims.PairsAllowed := by
  intro p q k
  rw [allowedPair_iff, someHolds_allowClauses, someHolds_denyClauses]
  simp only [tagPad, clauseHolds, termHolds_iff]

/-! ## A range holds the quantity of each of its pairs (R143, R146) -/

theorem loLe_mono {lo : Option Int} {v u : Int} (h : loLe lo v = true) (hv : v ≤ u) : loLe lo u = true := by
  cases lo with
  | none => rfl
  | some a => exact decide_eq_true (Int.le_trans (of_decide_eq_true h) hv)

theorem leHi_anti {hi : Option Int} {v u : Int} (h : leHi u hi = true) (hv : v ≤ u) : leHi v hi = true := by
  cases hi with
  | none => rfl
  | some a => exact decide_eq_true (Int.le_trans hv (of_decide_eq_true h))

theorem termVal_mem_termRange {q k : Word64} {qr kr : Ranges} (hq : inRanges q qr) (hk : inRanges k kr) (op : Nat) :
    (termRange op qr kr).1 ≤ termVal op q k ∧ termVal op q k ≤ (termRange op qr kr).2 := by
  obtain ⟨hq0, hq1, hq2, hq3⟩ := hq
  obtain ⟨hk0, hk1, hk2, hk3⟩ := hk
  unfold termRange termVal
  split
  · exact ⟨hq0, hq1⟩
  · exact ⟨hk0, hk1⟩
  · exact ⟨Int.sub_le_sub hq0 hk1, Int.sub_le_sub hq1 hk0⟩
  · exact ⟨hq2, hq3⟩
  · exact ⟨hk2, hk3⟩
  · exact ⟨Int.sub_le_sub hq2 hk3, Int.sub_le_sub hq3 hk2⟩

theorem inRanges_widen {t : Word64} {r : Ranges} (h : inRanges t r) (p d : Int) :
    inRanges t { p0 := min p r.p0, p1 := max p r.p1, d0 := min d r.d0, d1 := max d r.d1 } := by
  obtain ⟨h0, h1, h2, h3⟩ := h
  exact ⟨Int.le_trans (Int.min_le_right _ _) h0, Int.le_trans h1 (Int.le_max_right _ _),
    Int.le_trans (Int.min_le_right _ _) h2, Int.le_trans h3 (Int.le_max_right _ _)⟩

/-- R146: a tag that is not padding lies in the ranges of its block. -/
theorem inRanges_of_mem {t : Word64} {l : List Word64} (h : t ∈ l) (ht : tagPad t = false) :
    ∃ r, rangesOf l = some r ∧ inRanges t r := by
  induction h with
  | head l =>
    cases hl : rangesOf l with
    | none => exact ⟨_, by simp only [rangesOf, ht, hl]; rfl, Int.le_refl _, Int.le_refl _, Int.le_refl _, Int.le_refl _⟩
    | some r =>
      exact ⟨_, by simp only [rangesOf, ht, hl]; rfl, Int.min_le_left _ _, Int.le_max_left _ _, Int.min_le_left _ _, Int.le_max_left _ _⟩
  | @tail u l _ ih =>
    obtain ⟨r, hr, hin⟩ := ih
    cases hu : tagPad u with
    | true => exact ⟨r, by simp only [rangesOf, hu, hr, if_true], hin⟩
    | false => exact ⟨_, by simp only [rangesOf, hu, hr]; rfl, inRanges_widen hin (tagPos u) (tagDoc u)⟩

/-! ## A status bounds what holds of each pair (R147) -/

/-- ALL promises a fact, and NONE its negation. -/
def statusBounds (x : Status) (fact : Prop) : Prop := (x = .all → fact) ∧ (x = .none → ¬ fact)

section
variable {q k : Word64} {qr kr : Ranges} (hq : inRanges q qr) (hk : inRanges k kr)
include hq hk

theorem termStatus_bounds (w : Word64) : statusBounds (termStatus w qr kr) (termHolds w q k = true) := by
  obtain ⟨hlo, hhi⟩ := termVal_mem_termRange hq hk (maskOp w)
  rw [termHolds_iff]
  unfold termStatus
  dsimp only
  split
  · next h =>
    rw [Bool.and_eq_true] at h
    exact ⟨fun _ => ⟨loLe_mono h.1 hlo, leHi_anti h.2 hhi⟩, nofun⟩
  · split
    · next h =>
      refine ⟨nofun, fun _ ⟨h0, h1⟩ => ?_⟩
      rw [loLe_mono h0 hhi, leHi_anti h1 hlo] at h
      exact absurd h (by decide)
    · exact ⟨nofun, nofun⟩

theorem clauseStatus_bounds (c : List Word64) : statusBounds (clauseStatus c qr kr) (clauseHolds c q k) := by
  unfold clauseStatus
  dsimp only
  split
  · next h =>
    obtain ⟨w, hw, hs⟩ := List.mem_map.mp (List.contains_iff_mem.mp h)
    exact ⟨nofun, fun _ hc => (termStatus_bounds hq hk w).2 hs (hc w hw)⟩
  · split
    · next h =>
      refine ⟨fun _ w hw => (termStatus_bounds hq hk w).1 ?_, nofun⟩
      exact eq_of_beq (List.all_eq_true.mp h _ (List.mem_map_of_mem hw))
    · exact ⟨nofun, nofun⟩

theorem kindStatus_bounds (cs : List (List Word64)) : statusBounds (kindStatus cs qr kr) (someHolds cs q k) := by
  unfold kindStatus
  dsimp only
  split
  · next h =>
    obtain ⟨c, hc, hs⟩ := List.mem_map.mp (List.contains_iff_mem.mp h)
    exact ⟨fun _ => ⟨c, hc, (clauseStatus_bounds hq hk c).1 hs⟩, nofun⟩
  · split
    · next h =>
      refine ⟨nofun, fun _ ⟨c, hc, hall⟩ => (clauseStatus_bounds hq hk c).2 ?_ hall⟩
      exact eq_of_beq (List.all_eq_true.mp h _ (List.mem_map_of_mem hc))
    · exact ⟨nofun, nofun⟩

end

/-! ## The class of a tile (R147, step 4) -/

section
variable {p : MaskSlot} {qtags : List Word64} {m : Summary}

/-- What makes a tile EMPTY that has a query. -/
theorem classTile_empty {r : Ranges} (hr : rangesOf qtags = some r) (h : classTile (some p) qtags m = .empty) :
    m.nvalid = 0 ∨ kindStatus (allowClauses p) r m.r = .none ∨ kindStatus (denyClauses p) r m.r = .all := by
  unfold classTile at h
  rw [hr] at h
  dsimp only at h
  split at h
  · assumption
  · split at h <;> exact absurd h nofun

/-- What a FULL tile has. -/
theorem classTile_full (h : classTile (some p) qtags m = .full) : ∃ r, rangesOf qtags = some r ∧
    kindStatus (allowClauses p) r m.r = .all ∧ kindStatus (denyClauses p) r m.r = .none ∧ ∀ t ∈ qtags, tagPad t = false := by
  unfold classTile at h
  split at h
  · exact absurd h nofun
  · next r hr =>
    dsimp only at h
    split at h
    · exact absurd h nofun
    · split at h
      · next hf =>
        obtain ⟨ha, hd, -, hpad⟩ := hf
        exact ⟨r, hr, ha, hd, by simpa only [Bool.not_eq_true', List.any_eq_false, Bool.not_eq_true] using hpad⟩
      · exact absurd h nofun

variable {q k : Word64} (hq : q ∈ qtags) (hk : tagPad k = false → inRanges k m.r ∧ 0 < m.nvalid)
include hq hk

theorem not_allowed_of_empty (h : classTile (some p) qtags m = .empty) : allowedPair p q k = false := by
  rw [← Bool.not_eq_true, allowedPair_iff]
  rintro ⟨hqpad, hkpad, hallow, hdeny⟩
  obtain ⟨hkr, hn⟩ := hk hkpad
  obtain ⟨r, hr, hqr⟩ := inRanges_of_mem hq hqpad
  obtain h0 | ha | hd := classTile_empty hr h
  · exact Nat.ne_of_gt hn h0
  · exact (kindStatus_bounds hqr hkr _).2 ha hallow
  · exact hdeny ((kindStatus_bounds hqr hkr _).1 hd)

theorem allowed_of_full (h : classTile (some p) qtags m = .full) (hkpad : tagPad k = false) : allowedPair p q k = true := by
  obtain ⟨r, hr, ha, hd, hpad⟩ := classTile_full h
  obtain ⟨r', hr', hqr⟩ := inRanges_of_mem hq (hpad q hq)
  obtain rfl : r = r' := Option.some.inj (hr.symm.trans hr')
  have hkr := (hk hkpad).1
  exact allowedPair_iff.mpr ⟨hpad q hq, hkpad, (kindStatus_bounds hqr hkr _).1 ha, (kindStatus_bounds hqr hkr _).2 hd⟩

end

/-- Settles O30: the status of each kind of clause bounds what holds of every pair of the tile. -/
theorem maskRule : Obligations.MaskRule :=
  ⟨pairsAllowed, fun _ _ _ _ _ hq hk => ⟨not_allowed_of_empty hq hk, allowed_of_full hq hk⟩⟩

end Sys2Proof.Proofs

/-! # An atomic reads, changes and stores its bytes in one step (R86, R235)

First what the performing of an access leaves behind besides bytes: traces in the translation cache, in L2, in the tier directories and on
the links, none of which changes what is read or which routes stand. Then the one effect of an AMO, its operations, and the fields that no
AMO may have. -/

namespace Sys2Proof.Proofs

open Sys2Proof Machine Laws

/-! ## The traces of an access (R58, R63, R397, R407, R453) -/

/-- The later state differs from the earlier one by traces of accesses alone: entries of the translation cache, and a package in which a
port is up exactly where one was. -/
def accessTraces (s t : State) : Prop :=
  ∃ (l : List TlbEntry) (p : Package), t = { s with core := { s.core with tlb := l }, pkg := p } ∧
    p.ports.any Port.up = s.pkg.ports.any Port.up

namespace accessTraces

theorem refl (s : State) : accessTraces s s := ⟨s.core.tlb, s.pkg, rfl, rfl⟩

theorem ofPkg {s : State} {p : Package} (h : p.ports.any Port.up = s.pkg.ports.any Port.up) : accessTraces s (s.withPkg p) :=
  ⟨s.core.tlb, p, rfl, h⟩

variable {s t u : State}

theorem trans (h : accessTraces s t) (k : accessTraces t u) : accessTraces s u := by
  obtain ⟨l, p, rfl, hp⟩ := h
  obtain ⟨l', p', rfl, hp'⟩ := k
  exact ⟨l', p', rfl, hp'.trans hp⟩

theorem mem_eq (h : accessTraces s t) : t.mem = s.mem := by
  obtain ⟨l, p, rfl, -⟩ := h
  rfl

theorem task_eq (h : accessTraces s t) : t.task = s.task := by
  obtain ⟨l, p, rfl, -⟩ := h
  rfl

theorem storeOwed_eq (h : accessTraces s t) (sp : BitVec 2) (addr size : Nat) : storeOwed t sp addr size = storeOwed s sp addr size := by
  obtain ⟨l, p, rfl, -⟩ := h
  rfl

theorem noRoute_eq (h : accessTraces s t) (k : Nat) : noRoute t k = noRoute s k := by
  obtain ⟨l, p, rfl, hp⟩ := h
  simp only [noRoute, hp]

end accessTraces

/-- A port changed in anything but whether it is up leaves the same ports up. -/
theorem updPort_traces (s : State) (n : Nat) {f : Port → Port} (hf : ∀ p, (f p).up = p.up) : accessTraces s (updPort s n f) := by
  unfold updPort
  split
  · next h =>
    have hup : ∀ v : Vector Port 18, v.any Port.up = (v.map Port.up).any id := fun _ =>
      (Vector.any_map (f := Port.up) (p := id)).symm
    refine .ofPkg ?_
    dsimp only
    rw [hup, hup, Vector.map_set, hf, ← Vector.getElem_map Port.up, Vector.set_getElem_self]
  · exact .refl s

theorem linkSend_traces (s : State) (k size : Nat) (write : Bool) : accessTraces s (linkSend s k size write) := by
  unfold linkSend
  dsimp only
  split
  · exact .ofPkg rfl
  · split
    · refine .trans ?_ (updPort_traces _ _ ?_)
      · exact .ofPkg rfl
      · exact fun _ => rfl
    · exact .refl s

/-- Every way of filling a set of L2 changes the package alone, and not its ports. -/
theorem l2Touch_traces (s : State) (pa : Nat) (world : BitVec 6) (hinted write : Bool) :
    accessTraces s (l2Touch s pa world hinted write) := by
  unfold l2Touch
  dsimp only
  repeat' split
  all_goals exact ⟨_, _, rfl, rfl⟩

theorem heatTouch_traces (s : State) (k : Nat) (write : Bool) : accessTraces s (heatTouch s k write) := by
  unfold heatTouch
  split
  · exact .ofPkg rfl
  · exact .refl s

/-- One access of a line leaves a request on a link, a line in L2 and heat, in that order. -/
theorem touch_traces (s : State) (k : Nat) (world : BitVec 6) (leaf : Word64) (write : Bool) :
    accessTraces s (touch s k world leaf write) := by
  unfold touch
  dsimp only
  refine .trans ?_ (.trans (l2Touch_traces _ _ _ _ _) (heatTouch_traces _ _ _))
  split
  · exact linkSend_traces s k 128 write
  · exact .refl s

theorem readTouch_traces (s : State) (k : Nat) (leaf : Word64) : accessTraces s (readTouch s k leaf) := by
  unfold readTouch
  split
  · exact touch_traces s k _ leaf false
  · exact .refl s

theorem translate_traces (s : State) (va : Nat) (write : Bool) : accessTraces s (Machine.translate s va write).1 := by
  unfold Machine.translate
  dsimp only
  split
  · split <;> exact .refl s
  · split
    · exact .refl s
    · split
      · exact .refl s
      · exact ⟨_, s.pkg, rfl, rfl⟩

theorem place_traces (s : State) (sp : BitVec 2) (addr : Nat) (write : Bool) : accessTraces s (place s sp addr write).1 := by
  unfold place
  split
  · exact .refl s
  · exact .refl s
  · have h := translate_traces s addr write
    split
    · exact .refl s
    · split
      all_goals
        next e =>
          rw [e] at h
          exact h
  · exact .refl s

theorem checkAccess_traces (s : State) (sp : BitVec 2) (addr size : Nat) (write : Bool) :
    accessTraces s (checkAccess s sp addr size write).1 := by
  unfold checkAccess
  split
  · exact .refl s
  · exact place_traces s sp addr write

/-! ## Reading and writing the bytes of an access -/

section
variable {s s1 : State} {sp : BitVec 2} {addr size key : Nat} {write : Bool} {leaf : Word64}

/-- A read that reaches its bytes outside the yard window gives them as memory holds them. -/
theorem withRead_key (h : checkAccess s sp addr size write = (s1, .key key leaf)) (hy : isYard key = false) :
    ∃ t, accessTraces s t ∧ ∀ k, withRead s sp addr size write k = k t key leaf (memRead s.mem key size) (readFails s1 key size) := by
  have hs : accessTraces s s1 := by
    have := checkAccess_traces s sp addr size write
    rwa [h] at this
  refine ⟨readTouch s1 key leaf, hs.trans (readTouch_traces s1 key leaf), fun k => ?_⟩
  have hv : readKey s1 key size = memRead s.mem key size := by
    rw [readKey, hy, if_neg Bool.false_ne_true, State.load, hs.mem_eq]
  unfold withRead
  rw [h, ← hv]

/-- A write that a route leads to, outside the yard window, stores its bytes. -/
theorem writeKeyBy_store (hy : isYard key = false) (hr : noRoute s key = false) (w : Option (SeqId × BitVec 4)) (v : Nat) (leaf : Word64) :
    ∃ t, accessTraces s t ∧ writeKeyBy s w key size v leaf = (t.remember w key size).store key size v := by
  unfold writeKeyBy
  rw [hy, hr, if_neg Bool.false_ne_true, if_neg Bool.false_ne_true]
  refine ⟨_, ?_, rfl⟩
  split
  · exact touch_traces s key _ leaf true
  · exact .refl s

/-- Such a write is not lost (R89). -/
theorem lostWrite_writeKeyBy (hy : isYard key = false) (hr : noRoute s key = false) (w : Option (SeqId × BitVec 4)) (v : Nat) (leaf : Word64)
    (o : Origin) (path : Nat) (oclass : BitVec 4) (slot : Option Nat) (a : Word64) :
    let t := lostWrite (writeKeyBy s w key size v leaf) o path oclass slot key a
    t.task = s.task ∧ t.mem = memWrite s.mem key size v := by
  obtain ⟨u, hu, hw⟩ := writeKeyBy_store (size := size) hy hr w v leaf
  have hn : noRoute ((u.remember w key size).store key size v) key = false := (hu.noRoute_eq key).trans hr
  dsimp only
  rw [lostWrite, hw, hn, if_neg Bool.false_ne_true]
  exact ⟨hu.task_eq, congrArg (memWrite · key size v) hu.mem_eq⟩

end

theorem spaceBound_eq_boundOf (sp : BitVec 2) : spaceBound sp = boundOf sp := by
  revert sp
  decide

/-! ## The operations of an atomic (R235) -/

theorem toSigned_toNat {w : Nat} (x : BitVec w) (hw : 0 < w) : toSigned w x.toNat = x.toInt := by
  rw [toSigned_eq w _ hw, BitVec.ofNat_toNat, BitVec.setWidth_eq]

/-- The model's operations on numbers are those of the rule on words: both are taken apart by the code of the operation. -/
theorem amoNew_toNat (op : BitVec 4) {w : Nat} (hw : 0 < w) (x y z : BitVec w) :
    amoNew op w x.toNat y.toNat z.toNat = (amoRule op w x y z).map BitVec.toNat := by
  unfold amoNew amoRule
  rw [toSigned_toNat x hw, toSigned_toNat y hw]
  generalize op.toNat = n
  match n with
  | 0 => exact congrArg some (BitVec.toNat_add x y).symm
  | 1 => exact congrArg some (BitVec.toNat_and x y).symm
  | 2 => exact congrArg some (BitVec.toNat_or x y).symm
  | 3 => exact congrArg some (BitVec.toNat_xor x y).symm
  | 4 => exact congrArg some (apply_ite BitVec.toNat (x.toInt ≤ y.toInt) x y).symm
  | 5 => exact congrArg some (apply_ite BitVec.toNat (x.toInt ≤ y.toInt) y x).symm
  | 6 => exact congrArg some (Nat.min_def.trans (apply_ite BitVec.toNat (x.toNat ≤ y.toNat) x y).symm)
  | 7 => exact congrArg some (Nat.max_def.trans (apply_ite BitVec.toNat (x.toNat ≤ y.toNat) y x).symm)
  | 8 => rfl
  | n + 9 =>
    simp only [BitVec.toNat_inj, apply_ite (Option.map BitVec.toNat), Option.map_some, Option.map_none]

theorem eight_mul_size (size : Nat) : 2 ^ (8 * size) = 256 ^ size := Nat.pow_mul 2 8 size

/-- A number read from `size` bytes is that of a word of as many bits. -/
theorem toNat_ofNat_memRead (m : List Host.Cell) (key size : Nat) :
    (BitVec.ofNat (8 * size) (memRead m key size)).toNat = memRead m key size := by
  rw [BitVec.toNat_ofNat, eight_mul_size, Nat.mod_eq_of_lt (memRead_lt m key size)]

/-- The register result is the old value, sign-extended for SMIN and SMAX. -/
theorem amoResult_toNat (op : BitVec 4) {w : Nat} (hw : 0 < w) (old : BitVec w) :
    amoResult op w old.toNat = if op = 4 ∨ op = 5 then old.signExtend 64 else BitVec.ofNat 64 old.toNat := by
  rw [amoResult, sext64_toNat old hw]

/-! ## The effect of an atomic (R86, R236) -/

section
variable {s s1 : State} {q : SeqId} {sp : BitVec 2} {size key : Nat} {leaf : Word64} {ord : BitVec 2} {a : Word64}

/-- An atomic that nothing holds back, on bytes that a route leads to and that do not fail correction: the old value goes to its register,
and the new one, if there is one, to its bytes. -/
theorem amoEffect_performed (hs : 0 < 8 * size) (hf : fenced s q 0 = false) (hp : ord.getLsbD 1 = true → fencedPoint s q = false)
    (hc : checkAccess s sp a.toNat size true = (s1, .key key leaf)) (ho : storeOwed s sp a.toNat size = false) (hy : isYard key = false)
    (hr : noRoute s key = false) (hb : readFails s1 key size = none) (i : Instr) (d op oc : BitVec 4) (bv cv : Word64) :
    let old := BitVec.ofNat (8 * size) (memRead s.mem key size)
    ∃ t, amoEffect s q i d op oc size sp ord a bv cv =
        .write t (boundOf sp) [.x d (if op = 4 ∨ op = 5 then old.signExtend 64 else BitVec.ofNat 64 old.toNat) none] ∧
      t.task = s.task ∧
      t.mem = (amoRule op (8 * size) old (BitVec.ofNat (8 * size) bv.toNat) (BitVec.ofNat (8 * size) cv.toNat)).elim s.mem
        (fun v => memWrite s.mem key size v.toNat) := by
  intro old
  obtain ⟨u, hu, hread⟩ := withRead_key hc hy
  have hold : memRead s.mem key size = old.toNat := (toNat_ofNat_memRead s.mem key size).symm
  unfold amoEffect
  rw [if_neg (not_held_at_fences hf hp), hread, hu.storeOwed_eq, ho, if_neg Bool.false_ne_true, hb, hold, ← amoResult_toNat op hs,
    ← spaceBound_eq_boundOf]
  dsimp only
  rw [← BitVec.toNat_ofNat, ← BitVec.toNat_ofNat, amoNew_toNat op hs]
  cases amoRule op (8 * size) old (BitVec.ofNat (8 * size) bv.toNat) (BitVec.ofNat (8 * size) cv.toNat) with
  | none => exact ⟨u, rfl, hu.task_eq, hu.mem_eq⟩
  | some v =>
    obtain ⟨htask, hmem⟩ := lostWrite_writeKeyBy (s := u) (size := size) hy ((hu.noRoute_eq key).trans hr) (some (q, oc)) v.toNat leaf
      (s.origin q i) 0 oc none (faddr sp a)
    exact ⟨_, rfl, htask.trans hu.task_eq, hmem.trans (congrArg (memWrite · key size v.toNat) hu.mem_eq)⟩

end

/-- R86, R178, R235 and R236. -/
theorem atomicsUpdate : Claims.AtomicsUpdate := by
  intro s k d a b op sz oc scope ord c sp s1 key leaf i size old hready hwf ha hb hc hf hp hcheck howed hy hr hfails
  have hsize : 0 < 8 * size := by
    show 0 < 8 * if sz = 1 then 8 else 4
    split <;> decide
  have hmem : (met s i).mem = s.mem := reached_mem s s.cur i
  have hroute : noRoute (met s i) key = false := by rw [← hr, noRoute, noRoute, met, reached_pkg]
  obtain ⟨t, heff, htask, htmem⟩ :=
    amoEffect_performed hsize hf hp hcheck howed hy hroute hfails i d op oc (xVal s i b 1) (xVal s i c 2)
  rw [hmem] at heff htmem
  refine ⟨t, issue_ready hready ?_, htask, ?_⟩
  · rw [withX_clean ha, withX_clean hb, withX_clean hc]
    exact heff
  · revert htmem
    cases amoRule op (8 * size) old (BitVec.ofNat (8 * size) (xVal s i b 1).toNat) (BitVec.ofNat (8 * size) (xVal s i c 2).toNat) with
    | none => exact fun h => ⟨h, fun x _ => congrArg (memGet · x) h⟩
    | some v =>
      intro h
      rw [Option.elim_some] at h
      refine ⟨?_, fun x hx => ?_⟩
      · rw [h, memRead_memWrite hwf, ← eight_mul_size, Nat.mod_eq_of_lt v.isLt]
      · rw [h, memGet_memWrite_other hwf hx]

/-! ## Fields that no AMO may have (R173, R178) -/

/-- An instruction that its sequencer may issue and whose fields are illegal faults ILLEGAL_INSTR (R167). -/
theorem faults_of_not_wellFormed {s : State} {i : Instr} {eff : State → SeqId → Effect} (hx : exec i s = issue i eff s) (hd : decoded s i)
    (hw : i.wellFormed = false) : faults s i 0x01 0 := by
  obtain ⟨hcan, hbound, hheld, hmay⟩ := hd
  have hi : issue i eff s = .next (faultPrecise s s.cur i (faultAt causeIllegalInstr 0) (s.seq s.cur).popped 0) := by
    unfold issue issueOn
    simp only [hcan, hbound, hheld, hmay, hw, Bool.not_true, Bool.not_false, Bool.true_or, Bool.false_eq_true, if_false, if_true]
  refine ⟨_, hx.trans hi, rfl, rfl, fcauseOf_cause causeIllegalInstr s.cur false _ 0, rfl, takeFault_mem _ _, ?_⟩
  refine (takeFault_pc _ _ s.cur).trans ?_
  rw [State.withSeq_same]

theorem amo_wellFormed_iff (k : Tok) (d a b op : BitVec 4) (sz : BitVec 1) (oc : BitVec 4) (scope : BitVec 3) (ord : BitVec 2) (c : BitVec 4)
    (sp : BitVec 2) : (Instr.amo k d a b op sz oc scope ord c sp).wellFormed = true ↔
      tokOk k = true ∧ op.toNat ≤ 9 ∧ scope ≠ 7 ∧ sp ≠ 3 ∧ (c = 0 ∨ op = 9) := by
  simp only [Instr.wellFormed, Bool.and_eq_true, Bool.or_eq_true, decide_eq_true_eq, and_assoc]

/-- R173 and R178. -/
theorem atomicFields : Claims.AtomicFields := by
  intro s k d a b op sz oc scope ord c sp i hd hbad
  refine faults_of_not_wellFormed rfl hd ?_
  rw [← Bool.not_eq_true, amo_wellFormed_iff]
  rintro ⟨-, hop, hscope, hsp, hc⟩
  obtain h | h | h | ⟨h0, h9⟩ := hbad
  · exact absurd hop (Nat.not_le.mpr h)
  · exact hsp h
  · exact hscope h
  · exact hc.elim h0 h9

/-- Settles O19: the traces of an access change no byte and no route, so an atomic is one read and one write of memory, and its operations on
numbers are those of the rule on words. -/
theorem atomics : Obligations.Atomics := ⟨atomicsUpdate, atomicFields⟩

end Sys2Proof.Proofs

/-! # Scalar arithmetic, compares and flags (R198 to R203)

An instruction here reads registers and writes one destination, so its effect is a `.write`. What its row says it computes is the model's
own function by definition, but for the functions that the model computes bit by bit: those have a lemma each. -/

namespace Sys2Proof.Proofs

open Sys2Proof Machine Laws

section
variable {s : State} {i : Instr} {d a : BitVec 4} {b : Src} {bound : Nat} {writes : List Write}

/-- An instruction that nothing holds back and whose effect is on destinations alone issues with them in flight (R22). -/
theorem exec_write_of_ready {eff : State → SeqId → Effect} (hx : exec i s = issue i eff s) (hr : ready s i = true)
    (he : eff (met s i) s.cur = .write (met s i) bound writes) : exec i s = .next (issued s i bound writes) :=
  hx.trans (issue_ready hr he)

theorem alu2_of_clean {f : Word64 → Word64 → Word64} (ha : cleanX s i a 0 = true) (hb : cleanSrc s i b 1 = true) :
    alu2 (met s i) s.cur d a b bound f = .write (met s i) bound [.x d (f (xVal s i a 0) (srcVal s i b 1)) none] := by
  rw [alu2, withX_clean ha, withSrc_clean hb]

theorem alu1_of_clean {f : Word64 → Word64} (ha : cleanX s i a 0 = true) :
    alu1 (met s i) s.cur d a bound f = .write (met s i) bound [.x d (f (xVal s i a 0)) none] := by
  rw [alu1, withX_clean ha]

end

/-! ## Functions of the model that work bit by bit (R198) -/

/-- Sign extension from the low bits of a word (R11). -/
theorem sext64_truncate {w : Nat} (x : Word64) (hw : 0 < w) : sext64 w x.toNat = (x.truncate w).signExtend 64 := by
  rw [sext64_eq w _ hw, BitVec.ofNat_toNat, BitVec.truncate_eq_setWidth]

theorem clzFrom_eq_log2 {v n : Nat} (h : v < 2 ^ n) : clzFrom v n = if v = 0 then n else n - 1 - Nat.log2 v := by
  induction n with
  | zero => rw [clzFrom, if_pos (by omega)]
  | succ n ih =>
    rw [clzFrom]
    by_cases hv : v < 2 ^ n
    · rw [Nat.testBit_lt_two_pow hv, if_neg Bool.false_ne_true, ih hv]
      by_cases h0 : v = 0
      · rw [if_pos h0, if_pos h0, Nat.add_comm]
      · have := (Nat.log2_lt h0).mpr hv
        rw [if_neg h0, if_neg h0]
        omega
    · have hle : 2 ^ n ≤ v := Nat.le_of_not_lt hv
      have h0 : v ≠ 0 := Nat.ne_of_gt (Nat.lt_of_lt_of_le (Nat.two_pow_pos n) hle)
      rw [Nat.testBit_of_two_pow_le_and_two_pow_add_one_gt hle h, if_pos rfl, if_neg h0, (Nat.log2_eq_iff h0).mpr ⟨hle, h⟩]
      omega

theorem ctzFrom_eq_takeWhile (v n k : Nat) : ctzFrom v k n = ((List.range' k n).takeWhile (fun j => !v.testBit j)).length := by
  induction n generalizing k with
  | zero => rfl
  | succ n ih =>
    rw [ctzFrom, List.range'_succ, List.takeWhile_cons, ih (k + 1)]
    cases v.testBit k with
    | true => rfl
    | false => exact Nat.add_comm 1 _

theorem popFrom_eq_filter (v n : Nat) : popFrom v n = ((List.range n).filter v.testBit).length := by
  induction n with
  | zero => rfl
  | succ n ih =>
    rw [popFrom, ih, List.range_succ, List.filter_append, List.length_append, Nat.add_comm, List.filter_cons, List.filter_nil]
    cases v.testBit n <;> rfl

/-- The field that BINS replaces. -/
theorem binsVal_getLsbD (z x y : Word64) {n : Nat} (hn : n < 64) : (binsVal z x y).getLsbD n =
    if shamt y ≤ n ∧ n < shamt y + fieldLen y then x.getLsbD (n - shamt y) else z.getLsbD n := by
  have hmask : (BitVec.ofNat 64 ((2 ^ fieldLen y - 1) * 2 ^ shamt y)).getLsbD n =
      decide (shamt y ≤ n ∧ n < shamt y + fieldLen y) := by
    rw [BitVec.getLsbD_ofNat, Nat.testBit_mul_two_pow, Nat.testBit_two_pow_sub_one, decide_eq_true hn, Bool.true_and,
      ← Bool.decide_and, decide_eq_decide]
    omega
  simp only [binsVal, BitVec.getLsbD_or, BitVec.getLsbD_and, BitVec.getLsbD_not, BitVec.getLsbD_shiftLeft, hmask]
  by_cases h : shamt y ≤ n ∧ n < shamt y + fieldLen y
  · rw [decide_eq_true h, if_pos h]
    simp [hn, h.1]
  · rw [decide_eq_false h, if_neg h]
    simp [hn]

/-! ## ALU instructions (R198 to R200) -/

/-- The effect of a two-operand ALU instruction is that of its row. -/
def meansAlu2 (r : AluRow) : Prop :=
  ∀ (s : State) (k : Tok) (d a : BitVec 4) (b : Src), exec (r.1 k d a b) s = issue (r.1 k d a b) (fun s q => alu2 s q d a b r.2.1 r.2.2) s

theorem meansAlu2_of_mem_aluBasic : ∀ r ∈ aluBasic, meansAlu2 r := by
  simp only [aluBasic, List.forall_mem_cons, List.not_mem_nil, false_imp_iff, implies_true, and_true]
  and_intros <;> exact fun _ _ _ _ _ => rfl

theorem meansAlu2_of_mem_aluMulDiv : ∀ r ∈ aluMulDiv, meansAlu2 r := by
  simp only [aluMulDiv, List.forall_mem_cons, List.not_mem_nil, false_imp_iff, implies_true, and_true]
  and_intros <;> exact fun _ _ _ _ _ => rfl

theorem addwVal_eq : addwVal = fun a b => ((a + b).truncate 32).signExtend 64 :=
  funext fun a => funext fun b => sext64_truncate (a + b) (by decide)

theorem meansAlu2_addw : meansAlu2 (Instr.addw, 1, fun a b => ((a + b).truncate 32).signExtend 64) :=
  addwVal_eq ▸ fun _ _ _ _ _ => rfl

theorem meansAlu2_of_mem_aluMore : ∀ r ∈ aluMore, meansAlu2 r := by
  simp only [aluMore, List.forall_mem_cons, List.not_mem_nil, false_imp_iff, implies_true, and_true, meansAlu2_addw]
  and_intros <;> exact fun _ _ _ _ _ => rfl

theorem meansAlu2_of_mem_aluRows : ∀ r ∈ aluRows, meansAlu2 r :=
  List.forall_mem_append.mpr ⟨List.forall_mem_append.mpr ⟨meansAlu2_of_mem_aluBasic, meansAlu2_of_mem_aluMulDiv⟩, meansAlu2_of_mem_aluMore⟩

/-- R198 and R199. -/
theorem aluTwoOperands : Claims.AluTwoOperands := fun r hr s k d a b hready ha hb =>
  exec_write_of_ready (meansAlu2_of_mem_aluRows r hr s k d a b) hready (alu2_of_clean ha hb)

/-- R198. -/
theorem binsReplacesField : Claims.BinsReplacesField := by
  intro s k d a b i hready hd ha hb
  refine ⟨binsVal (xVal s i d 2) (xVal s i a 0) (srcVal s i b 1), exec_write_of_ready rfl hready ?_, fun n hn => binsVal_getLsbD _ _ _ hn⟩
  rw [withX_clean hd]
  exact alu2_of_clean ha hb

/-- An ALU instruction of one register issues with `g` of it, where the model's own function is `f`. -/
theorem exec_alu1 {s : State} {i : Instr} {d a : BitVec 4} {bound : Nat} {f g : Word64 → Word64}
    (hx : exec i s = issue i (fun s q => alu1 s q d a bound f) s) (hfg : ∀ x, f x = g x) (hr : ready s i = true) (ha : cleanX s i a 0 = true) :
    exec i s = .next (issued s i bound [.x d (g (xVal s i a 0)) none]) :=
  hfg _ ▸ exec_write_of_ready hx hr (alu1_of_clean ha)

/-- R198: counts of bits, sign and zero extension. -/
theorem aluOneOperand : Claims.AluOneOperand := by
  intro r hr s k d a hready ha
  simp only [aluOneRows, List.mem_cons, List.not_mem_nil, or_false] at hr
  obtain rfl | rfl | rfl | rfl | rfl | rfl | rfl := hr
  · -- CLZ
    refine exec_alu1 rfl (fun x => ?_) hready ha
    rw [clzFrom_eq_log2 x.isLt]
    simp only [BitVec.toNat_eq]
    rfl
  · -- CTZ
    refine exec_alu1 rfl (fun x => ?_) hready ha
    rw [ctzFrom_eq_takeWhile, ← List.range_eq_range']
    rfl
  · -- POPC
    refine exec_alu1 rfl (fun x => ?_) hready ha
    rw [popFrom_eq_filter]
    rfl
  · -- SEXTB
    exact exec_alu1 rfl (fun x => sext64_truncate x (by decide)) hready ha
  · -- SEXTH
    exact exec_alu1 rfl (fun x => sext64_truncate x (by decide)) hready ha
  · -- SEXTW
    exact exec_alu1 rfl (fun x => sext64_truncate x (by decide)) hready ha
  · -- ZEXTW
    exact exec_alu1 rfl (fun _ => rfl) hready ha

/-- R170 and R200. -/
theorem aluImmediate : Claims.AluImmediate := by
  constructor
  · intro r hr s k d a n hready ha
    simp only [immRows, List.mem_cons, List.not_mem_nil, or_false] at hr
    obtain rfl | rfl | rfl | rfl | rfl := hr
    all_goals exact exec_write_of_ready rfl hready (alu1_of_clean ha)
  · intro r hr s k d a n hready ha
    simp only [shiftImmRows, List.mem_cons, List.not_mem_nil, or_false] at hr
    obtain rfl | rfl | rfl := hr
    all_goals exact exec_write_of_ready rfl hready (alu1_of_clean ha)

/-- Settles O9: an instruction that nothing holds back issues with the model's function of its operands, which is that of its row. -/
theorem scalarArithmetic : Obligations.ScalarArithmetic := ⟨aluTwoOperands, binsReplacesField, aluOneOperand, aluImmediate⟩

/-! ## Compares and mask tests (R201, R203) -/

theorem condHolds_eq_condRule (c : BitVec 3) (x y : Word64) : condHolds c x y = condRule c x y := by
  unfold condHolds condRule
  generalize c.toNat = n
  match n with
  | 0 | 2 | 3 | 4 | 5 | 7 => rfl
  | 1 | 6 => exact decide_not
  | n + 8 => rfl

/-- The test of a mask, where the model's own is `t`: a lane mask on C, an x register elsewhere (R203). -/
theorem exec_maskTest {s : State} {i : Instr} {f : BitVec 3} {a : BitVec 4} {t u : BitVec 64 → Bool}
    (hx : exec i s = issue i (fun s q => withMask s q a (fun m => .write s 1 [.flag f (bitOf (t m))])) s) (htu : ∀ m, t m = u m)
    (hr : ready s i = true) :
    if s.cur = .C then exec i s = .next (issued s i 1 [.flag f (flagOf (u ((met s i).readM (a.truncate 3) 0)))])
    else cleanX s i a 0 = true → exec i s = .next (issued s i 1 [.flag f (flagOf (u (xVal s i a 0)))]) := by
  split
  · next hC =>
    refine exec_write_of_ready hx hr ?_
    rw [withMask, if_pos hC, htu]
    rfl
  · next hC =>
    intro ha
    refine exec_write_of_ready hx hr ?_
    rw [withMask, if_neg hC, withX_clean ha, htu]
    rfl

/-- R201 and R203. -/
theorem compareSetsFlag : Claims.CompareSetsFlag := by
  refine ⟨?cmp, ?cmpi, ?mask⟩
  case cmp =>
    intro s k f c a b i hready ha hb
    refine exec_write_of_ready rfl hready ?_
    rw [withX_clean ha, withSrc_clean hb, condHolds_eq_condRule]
    rfl
  case cmpi =>
    intro s k f c a n i hready ha
    refine exec_write_of_ready rfl hready ?_
    rw [withX_clean ha, condHolds_eq_condRule]
    rfl
  case mask =>
    intro r hr s k f a hready
    simp only [maskTestRows, List.mem_cons, List.not_mem_nil, or_false] at hr
    obtain rfl | rfl | rfl := hr
    · -- VANY
      exact exec_maskTest rfl (fun _ => decide_not) hready
    · -- VALL
      exact exec_maskTest rfl (fun _ => rfl) hready
    · -- VNONE
      exact exec_maskTest rfl (fun _ => rfl) hready

/-! ## Flag instructions (R202) -/

theorem testBit_packBits_one (l : List Nat) (n : Nat) : (packBits 1 l).testBit n = (l.getD n 0).testBit 0 := by
  have h := elemAt_packBits 1 l n
  rw [elemAt, Nat.one_mul, Nat.pow_one] at h
  rw [Nat.testBit_eq_decide_div_mod_eq, h, Nat.testBit_zero]

/-- FRD packs flag n at bit n, and nothing above the eight flags. -/
theorem packFlags_getLsbD (s : State) (q : SeqId) {n : Nat} (hn : n < 64) :
    (packFlags s q).getLsbD n = (decide (n < 8) && (s.readF q (BitVec.ofNat 3 n) n).getLsbD 0) := by
  rw [packFlags, BitVec.getLsbD_ofNat, testBit_packBits_one, decide_eq_true hn, Bool.true_and]
  by_cases h8 : n < 8
  · simp [upTo, h8, BitVec.getLsbD]
  · simp [upTo, h8]

/-- R202. -/
theorem flagOperations : Claims.FlagOperations := by
  refine ⟨?sel, ?two, ?one, ?set, ?read⟩
  case sel =>
    intro s k d a b f i hready ha hb
    refine exec_write_of_ready rfl hready ?_
    rw [withX_clean ha, withX_clean hb]
    rfl
  case two =>
    intro r hr s k d a b hready
    simp only [flagTwoRows, List.mem_cons, List.not_mem_nil, or_false] at hr
    obtain rfl | rfl | rfl := hr
    all_goals exact exec_write_of_ready rfl hready rfl
  case one =>
    intro r hr s k d a hready
    simp only [flagOneRows, List.mem_cons, List.not_mem_nil, or_false] at hr
    obtain rfl | rfl := hr
    all_goals exact exec_write_of_ready rfl hready rfl
  case set =>
    intro r hr s k d hready
    simp only [flagSetRows, List.mem_cons, List.not_mem_nil, or_false] at hr
    obtain rfl | rfl := hr
    all_goals exact exec_write_of_ready rfl hready rfl
  case read =>
    intro s k d i hready
    exact ⟨_, exec_write_of_ready rfl hready rfl, fun n hn => packFlags_getLsbD _ _ hn⟩

/-- Settles O10: each of these instructions writes the model's condition, mask test or flag operation, which is that of its row; FRD is read
bit by bit. -/
theorem flagsAndCompares : Obligations.FlagsAndCompares := ⟨compareSetsFlag, flagOperations⟩

end Sys2Proof.Proofs

/-! # Keep-masks and queue heads: MKCT, KMOP, KMIO and QX (R219, R307, R313, R314)

First which tiles the mask of a list holds and where in a keep-mask a tile ranks; then the functions that MKCT and KMOP compute, and the
effect that meets the head of an operand queue. Each claim is the issue of an instruction that nothing holds back with one of these. -/

namespace Sys2Proof.Proofs

open Sys2Proof Machine Laws

/-! ## Tiles of a list -/

theorem filter_range_ge {n v : Nat} (h : v ≤ n) (p : Nat → Bool) :
    (List.range n).filter (fun t => p t && decide (v ≤ t)) = (List.range' v (n - v)).filter p := by
  have hsplit : List.range n = List.range' 0 v ++ List.range' v (n - v) := by
    rw [List.range_eq_range', show List.range' v (n - v) = List.range' (0 + v) (n - v) by rw [Nat.zero_add],
      List.range'_append_1, Nat.add_sub_of_le h]
  have hlow : (List.range' 0 v).filter (fun t => p t && decide (v ≤ t)) = [] := by
    refine List.filter_eq_nil_iff.mpr fun t ht => ?_
    have hlt : ¬ v ≤ t := by have := (List.mem_range'_1.mp ht).2; omega
    rw [decide_eq_false hlt, Bool.and_false]
    exact Bool.false_ne_true
  have hhigh : (List.range' v (n - v)).filter (fun t => p t && decide (v ≤ t)) = (List.range' v (n - v)).filter p := by
    refine List.filter_congr fun t ht => ?_
    rw [decide_eq_true (List.mem_range'_1.mp ht).1, Bool.and_true]
  rw [hsplit, List.filter_append, hlow, hhigh, List.nil_append]

/-- The first `k` numbers of a kind are those with fewer than `k` of the kind below them. -/
theorem mem_take_filter_range {p : Nat → Bool} {n k t : Nat} :
    t ∈ ((List.range n).filter p).take k ↔ t < n ∧ p t = true ∧ ((List.range t).filter p).length < k := by
  induction n with
  | zero => simp
  | succ n ih =>
    rw [List.range_succ, List.filter_append, List.take_append, List.mem_append, ih]
    have hlast : t ∈ ([n].filter p).take (k - ((List.range n).filter p).length) ↔
        t = n ∧ p t = true ∧ ((List.range t).filter p).length < k := by
      cases hn : p n with
      | false =>
        rw [List.filter_cons_of_neg (by rw [hn]; exact Bool.false_ne_true), List.filter_nil, List.take_nil]
        constructor
        · exact nofun
        · rintro ⟨rfl, ht, -⟩
          exact absurd (hn.symm.trans ht) Bool.false_ne_true
      | true =>
        rw [List.filter_cons_of_pos hn, List.filter_nil]
        by_cases hk : ((List.range n).filter p).length < k
        · rw [List.take_of_length_le (by rw [List.length_singleton]; omega), List.mem_singleton]
          constructor
          · rintro rfl
            exact ⟨rfl, hn, hk⟩
          · exact And.left
        · rw [Nat.sub_eq_zero_of_le (Nat.le_of_not_lt hk), List.take_zero]
          constructor
          · exact nofun
          · rintro ⟨rfl, -, ht⟩
            exact absurd ht hk
    rw [hlast, Nat.lt_succ_iff_lt_or_eq, or_and_right]

/-! ## Masks of tiles -/

theorem getLsbD_one_shiftLeft {u t : Nat} (ht : t < 512) : (1#512 <<< u).getLsbD t = decide (t = u) := by
  rw [BitVec.getLsbD_shiftLeft, BitVec.getLsbD_one, decide_eq_true ht, Bool.true_and, Bool.eq_iff_iff]
  simp only [Bool.and_eq_true, Bool.not_eq_true', decide_eq_true_eq, decide_eq_false_iff_not]
  omega

theorem getLsbD_maskOfTiles (l : List Nat) {t : Nat} (ht : t < 512) : (maskOfTiles l).getLsbD t = decide (t ∈ l) := by
  refine (getLsbD_foldl_or (fun u => 1#512 <<< u) l t).trans (Bool.eq_iff_iff.mpr ?_)
  simp only [List.any_eq_true, getLsbD_one_shiftLeft ht, decide_eq_true_eq]
  exact exists_eq_right'

theorem mem_tilesOf {m : BitVec 512} {t : Nat} (ht : t < 512) : t ∈ tilesOf m ↔ m.getLsbD t = true := by
  simp [tilesOf, upTo, ht]

theorem getLsbD_mask_filter_tilesOf (m : BitVec 512) (p : Nat → Bool) {t : Nat} (ht : t < 512) :
    (maskOfTiles ((tilesOf m).filter p)).getLsbD t = (m.getLsbD t && p t) := by
  rw [getLsbD_maskOfTiles _ ht, Bool.eq_iff_iff, decide_eq_true_eq, List.mem_filter, mem_tilesOf ht, Bool.and_eq_true]

theorem getLsbD_lowestSet (m : BitVec 512) (n : Nat) {t : Nat} (ht : t < 512) :
    (lowestSet m n).getLsbD t = (m.getLsbD t && decide (((List.range t).filter (fun u => m.getLsbD u)).length < n)) := by
  rw [lowestSet, getLsbD_maskOfTiles _ ht, Bool.eq_iff_iff, decide_eq_true_eq, Bool.and_eq_true, decide_eq_true_eq, tilesOf, upTo,
    mem_take_filter_range, and_iff_right ht]

theorem getLsbD_and_not (m o : BitVec 512) {t : Nat} (ht : t < 512) : (m &&& ~~~o).getLsbD t = (m.getLsbD t && !o.getLsbD t) := by
  rw [BitVec.getLsbD_and, BitVec.getLsbD_not, decide_eq_true ht, Bool.true_and]

/-! ## MKCT (R307) -/

theorem nextSet_eq_headD (m : BitVec 512) (t n : Nat) :
    nextSet m t n = ((List.range' t n).filter (fun u => m.getLsbD u)).headD 512 := by
  induction n generalizing t with
  | zero => rfl
  | succ n ih =>
    rw [nextSet, List.range'_succ, List.filter_cons]
    split
    · rfl
    · exact ih (t + 1)

/-- The search from `v` on ends at the first set bit not below `v`. -/
theorem nextSet_eq_headD_range (m : BitVec 512) {v : Nat} (hv : v < 512) :
    nextSet m v (512 - v) = ((List.range 512).filter (fun t => m.getLsbD t && decide (v ≤ t))).headD 512 := by
  rw [nextSet_eq_headD, filter_range_ge (Nat.le_of_lt hv) (fun u => m.getLsbD u)]

/-! ## KMOP (R313) -/

theorem bitsOf_eq_extractLsb (c : Word64) (hi lo : Nat) : bitsOf c.toNat lo (hi - lo + 1) = (c.extractLsb hi lo).toNat := by
  rw [BitVec.extractLsb_toNat, Nat.shiftRight_eq_div_pow]
  rfl

/-- The mask that KMOP makes of its source `m` and its other source `o` under control value `c`. -/
def kmopMask (c : Word64) (m o : BitVec 512) : BitVec 512 :=
  let lo := (c.extractLsb 24 16).toNat
  match (c.extractLsb 2 0).toNat with
  | 0 => m &&& o
  | 1 => m &&& ~~~o
  | 2 => maskOfTiles ((tilesOf m).filter (fun t => decide (lo ≤ t) && decide (t ≤ (c.extractLsb 40 32).toNat)))
  | 3 => m &&& ~~~(1#512 <<< lo)
  | _ => lowestSet m (c.extractLsb 41 32).toNat

/-- Whether KMOP under control value `c` keeps tile `t` of its source `m`, its other source being `o`. -/
def kmopKeeps (c : Word64) (m o : BitVec 512) (t : Nat) : Bool :=
  match (c.extractLsb 2 0).toNat with
  | 0 => o.getLsbD t
  | 1 => !o.getLsbD t
  | 2 => decide ((c.extractLsb 24 16).toNat ≤ t) && decide (t ≤ (c.extractLsb 40 32).toNat)
  | 3 => decide (t ≠ (c.extractLsb 24 16).toNat)
  | _ => decide (((List.range t).filter (fun u => m.getLsbD u)).length < (c.extractLsb 41 32).toNat)

theorem getLsbD_kmopMask (c : Word64) (m o : BitVec 512) {t : Nat} (ht : t < 512) :
    (kmopMask c m o).getLsbD t = (m.getLsbD t && kmopKeeps c m o t) := by
  unfold kmopMask kmopKeeps
  generalize (c.extractLsb 2 0).toNat = op
  match op with
  | 0 => exact BitVec.getLsbD_and
  | 1 => exact getLsbD_and_not m o ht
  | 2 => exact getLsbD_mask_filter_tilesOf m _ ht
  | 3 =>
    refine (getLsbD_and_not m _ ht).trans ?_
    rw [getLsbD_one_shiftLeft ht]
    exact congrArg _ decide_not.symm
  | _ + 4 => exact getLsbD_lowestSet m _ ht

/-- KMOP with a legal control value and its other source at hand writes the mask that the value asks for. -/
theorem exec_kmop {s : State} {k : Tok} {d a : BitVec 2} {b : Src} (hr : ready s (.kmop k d a b) = true)
    (hb : cleanSrc s (.kmop k d a b) b 0 = true) :
    let c := srcVal s (.kmop k d a b) b 0
    let op := (c.extractLsb 2 0).toNat
    op ≤ 4 → c &&& ~~~(kmopBits op) = 0 → (op = 4 → (c.extractLsb 41 32).toNat ≤ 512) →
    (op < 2 → coveredHit (met s (.kmop k d a b)).task s.cur [.km (c.extractLsb 5 4)] = false) →
    exec (.kmop k d a b) s = .next (issued s (.kmop k d a b) 2
      [.km d (kmopMask c ((met s (.kmop k d a b)).readKm a 32) ((met s (.kmop k d a b)).readKm (c.extractLsb 5 4) 33))]) := by
  intro c op hop hbits hcount hcov
  refine exec_write_of_ready rfl hr ?_
  have hlegal : ¬ (4 < op ∨ c &&& ~~~(kmopBits op) ≠ 0 ∨ (op = 4 ∧ 512 < (c.extractLsb 41 32).toNat)) := by
    rintro (h | h | ⟨h, hn⟩)
    · exact Nat.not_lt.mpr hop h
    · exact h hbits
    · exact Nat.not_lt.mpr (hcount h) hn
  have hfree : ¬ ((decide (op < 2) && coveredHit (met s (.kmop k d a b)).task s.cur [.km (c.extractLsb 5 4)]) = true) := by
    rw [Bool.and_eq_true, decide_eq_true_eq]
    rintro ⟨h2, h⟩
    exact Bool.false_ne_true ((hcov h2).symm.trans h)
  rw [withSrc_clean hb]
  simp only [bitsOf_eq_extractLsb _ 2 0, bitsOf_eq_extractLsb _ 24 16, bitsOf_eq_extractLsb _ 40 32, bitsOf_eq_extractLsb _ 41 32]
  rw [if_neg hlegal, if_neg hfree]
  rfl

/-- R307 and R313. -/
theorem keepMaskOperations : Claims.KeepMaskOperations := by
  refine ⟨?mkct, ?kmop⟩
  case mkct =>
    intro s k d mode a b i v m l hr hb
    constructor
    · intro hv
      refine exec_write_of_ready rfl hr ?_
      rw [withSrc_clean hb, if_neg (Nat.not_le.mpr hv), ← nextSet_eq_headD_range m hv]
      rfl
    · intro hv
      refine faults_of_fail rfl hr ?_
      rw [withSrc_clean hb, if_pos hv]
      rfl
  case kmop =>
    intro s k d a b i c op m o hr hb hop hbits hcount hcov
    exact ⟨kmopMask c m o, exec_kmop hr hb hop hbits hcount hcov, fun t ht => getLsbD_kmopMask c m o ht⟩

/-! ## The head of an operand queue (R39, R226, R283) -/

section
variable {s : State} {i : Instr}

/-- A filled head without poison, with no matrix operation to pop it first, is there to be used. -/
theorem withQ_head {n : BitVec 3} {hd : QEntry} {tl : List QEntry} (hm : matAhead s n = false) (hq : s.task.q.get n = hd :: tl)
    (hf : hd.filled = true) (hp : hd.poison = none) (pop : Bool) (k : State → Entry → Effect) :
    withQ s n pop k = k (if pop then popQ s n else s) hd.data := by
  simp [withQ, hm, hq, hf, hp]

/-- An instruction that nothing holds back issues from the state that its effect leaves, its destinations in flight (R22). -/
theorem exec_writeAt_of_ready {t : State} {bound : Nat} {writes : List Write} {eff : State → SeqId → Effect} (hx : exec i s = issue i eff s)
    (hr : ready s i = true) (he : eff (met s i) s.cur = .write t bound writes) : exec i s = .next (issuedAt s i t bound writes) :=
  hx.trans (issue_ready hr he)

end

/-- The 512 bits of an entry from bit `n` on (R314). -/
theorem ofNat_div_eq_truncate (e : Entry) (n : Nat) : BitVec.ofNat 512 (e.toNat / 2 ^ n) = (e >>> n).truncate 512 := by
  apply BitVec.eq_of_toNat_eq
  rw [BitVec.toNat_ofNat, BitVec.truncate_eq_setWidth, BitVec.toNat_setWidth, BitVec.toNat_ushiftRight, Nat.shiftRight_eq_div_pow]

theorem laneOf_zero (e : Entry) : laneOf e 0 = e.truncate 32 := by
  apply BitVec.eq_of_toNat_eq
  simp [laneOf]

theorem laneOf_one_append_zero (e : Entry) : laneOf e 1 ++ laneOf e 0 = e.truncate 64 := by
  apply BitVec.eq_of_toNat_eq
  simp only [laneOf, BitVec.toNat_append, BitVec.toNat_ofNat, BitVec.truncate_eq_setWidth, BitVec.toNat_setWidth]
  rw [← Nat.shiftLeft_add_eq_or_of_lt (Nat.mod_lt _ (by decide)), Nat.shiftLeft_eq]
  omega

/-- R219: lane 0, lanes 1 and 0, or lane 0 sign-extended. -/
theorem qxVal_eq (f : BitVec 2) (e : Entry) (hf : f ≠ 3) :
    qxVal f e = if f = 0 then (e.truncate 32).zeroExtend 64 else if f = 1 then e.truncate 64 else (e.truncate 32).signExtend 64 := by
  have hcases : f = 0 ∨ f = 1 ∨ f = 2 := by revert f; decide
  obtain rfl | rfl | rfl := hcases
  · exact congrArg (BitVec.zeroExtend 64) (laneOf_zero e)
  · exact laneOf_one_append_zero e
  · exact congrArg (BitVec.signExtend 64) (laneOf_zero e)

/-! ## KMIO and QX (R219, R314) -/

theorem met_outputs (s : State) (i : Instr) : (met s i).task.o = s.task.o := by
  rw [met, reached_frame]
  rfl

theorem reserveO_get (s : State) (n : BitVec 2) :
    (reserveO s n).1.task.o.get n = s.task.o.get n ++ [QEntry.reserved s.nextId] := by
  unfold reserveO
  exact RegFile.get_set_same _ _ _

/-- R314. -/
theorem keepMaskQueues : Claims.KeepMaskQueues := by
  refine ⟨?kmioIn, ?kmioOut⟩
  case kmioIn =>
    intro s k p kk pop n hd tl i hr hm hq hf hp
    refine exec_writeAt_of_ready rfl hr ?_
    rw [withQ_head hm hq hf hp, ofNat_div_eq_truncate]
    simp only [beq_iff_eq]
  case kmioOut =>
    intro s k o kk i hr hlen
    have hroom : oRoom (met s i) o ≠ 0 := by
      rw [oRoom, met_outputs]
      exact Nat.sub_ne_zero_of_lt hlen
    have hid : (met s i).nextId = s.nextId := reached_nextId s s.cur i
    refine ⟨(reserveO (met s i) o).1, exec_writeAt_of_ready rfl hr ?_, ?_, reached_mem s s.cur i⟩
    · rw [if_neg hroom, ← hid]
      rfl
    · rw [reserveO_get, met_outputs, List.length_append, List.length_singleton]

/-- R219. -/
theorem qxReads : Claims.QxReads := by
  intro s k d a f hd tl i hr hf3 hm hq hf hp
  refine exec_writeAt_of_ready rfl hr ?_
  rw [withQ_head hm hq hf hp, qxVal_eq f hd.data hf3]

/-- Settles O32: MKCT and KMOP write the function of their masks that the rule states bit by bit, and an operand or output queue at hand is
met at its head or its next place. -/
theorem keepMasks : Obligations.KeepMasks := ⟨keepMaskOperations, keepMaskQueues, qxReads⟩

end Sys2Proof.Proofs
